-- ==== Sys2Proof/Word.lean ====
section
/-! DEFINITION. The word types of the Nurus NX8: 64-bit scalar registers, 32-bit code words and lanes, bytes. -/

namespace Sys2Proof

/-- A 64-bit scalar or control register (02 R43). -/
abbrev Word := BitVec 64

/-- A 32-bit code word (08 R214), lane of a vector register (11 R315) or FP32 pattern. -/
abbrev W32 := BitVec 32

/-- A byte of memory. -/
abbrev Byte := BitVec 8

end Sys2Proof
end

