-- ==== Sys2Proof/Config.lean ====
section
/-! DEFINITION. What one NX8 fixes, and the free values: values the manual leaves open. A free value is an opaque
constant, so no proof can use a number for it. -/

namespace Sys2Proof.Config

/-- A fresh unspecified value for each number of the counter `State.draws` (log 2). -/
opaque freeWord : Nat → BitVec 64

/-- The FP32 value that special function number `f` gives for an FP32 input, where R323 states only a bound.
Functions are numbered by their opcodes 0x09 to 0x12 (log 10). -/
opaque specialFp32 : Nat → BitVec 32 → BitVec 32

/-- The FP32 value an array column sum takes among those R143 admits, by the draw counter (log 11). -/
opaque columnSum : Nat → BitVec 32

/-- The FP32 values of the spline basis (04 R145, 13 R370), the base function and its derivative, by selector and
inputs, where the manual states only a bound (log 12). -/
opaque splineFp32 : Nat → BitVec 32 → BitVec 32

/-- The SHA-256 digest the device reports for measurement index `n` (21 R449), of contents the manual does not give and
of what of them the state holds. -/
opaque digest : Nat → List Nat → BitVec 256

/-- The host's own translation for a virtual function (01 R13): the host page that the IOMMU gives for a page of function
`fn`'s I/O virtual addresses, both as 4 KiB page numbers (log 58). -/
opaque hostPage : Nat → Nat → Nat

/-- The code of an agent kind in a watchpoint record (18 R418, R422), by the model's numbers of the kinds (log 73). -/
opaque agentKind : Nat → BitVec 4

/-- How a watchpoint record names an agent that is no context and no copy command, by its kind and number (log 73). -/
opaque agentName : Nat → Nat → BitVec 60

/-- The device's serial number (21 R467), which the manual does not give. -/
opaque serial : BitVec 64

/-- The nonces the management processor gives for debug tokens (21 R467), by their number. -/
opaque nonce : Nat → BitVec 64

/-- The CRC-32 of a flit (21 R451), of its header below the CRC and what of its payload the model holds: address, what an RMW
asks, data. The manual gives neither the polynomial nor the payload's layout (log 30). -/
opaque flitCrc : Nat → List Nat → BitVec 32

/-- The number of the structure within a bank that a machine-check record names (18 R425), by the error code and the place
of the error (log 74). -/
opaque mcaUnit : Nat → Nat → BitVec 8

/-- The die-to-die link segments from compute die `n` to hub die `h` (01 R32). -/
def segments (n h : Nat) : Nat :=
  match n % 8, h % 4 with
  | 0, 0 => 1 | 0, 1 => 1 | 0, 2 => 3 | 0, _ => 2
  | 1, 0 => 1 | 1, 1 => 1 | 1, 2 => 2 | 1, _ => 3
  | 2, 0 => 2 | 2, 1 => 1 | 2, 2 => 1 | 2, _ => 3
  | 3, 0 => 3 | 3, 1 => 1 | 3, 2 => 1 | 3, _ => 2
  | 4, 0 => 3 | 4, 1 => 2 | 4, 2 => 1 | 4, _ => 1
  | 5, 0 => 2 | 5, 1 => 3 | 5, 2 => 1 | 5, _ => 1
  | 6, 0 => 1 | 6, 1 => 3 | 6, 2 => 2 | 6, _ => 1
  | _, 0 => 1 | _, 1 => 2 | _, 2 => 3 | _, _ => 1

/-- The two near hubs of compute die `n` (00 R2): the hub `k` = 0 is HD(floor(n/2)). -/
def nearHub (n k : Nat) : Nat := (n / 2 + k) % 4

/-- Cellar size in bytes: 1.5 TiB (01 R8). -/
def cellarBytes : Nat := 0x18000000000

/-- Larder size in bytes: 256 MiB (01 R8). -/
def larderBytes : Nat := 0x10000000

/-- Settling ticks of the adjacent step between OP`n` and OP`n+1` (07 R208). -/
def settleTicks : Nat → Nat
  | 0 => 200 | 1 => 400 | 2 => 400 | 3 => 500 | 4 => 600 | 5 => 700 | _ => 800

/-- The RAMP reset UP = DN of OP`n` in wu (07 R208, R212). -/
def rampReset : Nat → Nat
  | 0 => 16384 | 1 => 16384 | 2 => 16384 | 3 => 8192 | 4 => 8192 | 5 => 8192 | _ => 6144

/-- Frequency of OP`n` in MHz (07 R208). -/
def opMHz : Nat → Nat
  | 0 => 200 | 1 => 300 | 2 => 400 | 3 => 500 | 4 => 650 | 5 => 800 | 6 => 900 | _ => 1000

/-- Energy of 1 wu at OP`n` in units of 0.05 pJ (07 R208). -/
def opEnergy : Nat → Nat
  | 0 => 20 | 1 => 22 | 2 => 26 | 3 => 30 | 4 => 35 | 5 => 40 | 6 => 45 | _ => 50

end Sys2Proof.Config
end

