-- ==== Sys2Proof/Syntax.lean ====
section
/-! DEFINITION. The syntax of the Nurus NX8: one constructor for each row of spec/opcode_table.json. A slot word carries
its operand fields from the lowest bit up; what every slot word has beside them is its envelope `Env`. The other rows are
events; what tells one such event from another stands in the state (`EvArgs`). -/

namespace Sys2Proof

/-- The prefixes of one slot word (08 R225): RND (code, r), SAT (mode, CB), IMX, SCO, SNP. -/
structure Pfx where
  rnd : Option (BitVec 3 × BitVec 5)
  sat : Option (BitVec 2 × BitVec 24)
  imx : Option (BitVec 26)
  sco : Option (BitVec 3)
  snp : Option (BitVec 2)
  deriving DecidableEq, Repr

/-- No prefix. -/
def Pfx.empty : Pfx := ⟨none, none, none, none, none⟩

/-- What every slot word has beside its opcode and operands (08 R217, R219): the slot position 0 to 16, the predicate
field, H, and the prefixes before it. -/
structure Env where
  pos : BitVec 5
  pred : BitVec 4
  hold : Bool
  pfx : Pfx
  deriving DecidableEq, Repr

/-- One step of the machine: a slot word of one of the nine classes (08 R231), or an event. The field names follow the
opcode table; a field is as wide as its encoding. -/
inductive Instr where
  /-- R243: Branches to the bundle at a signed word offset from the own bundle, 32-bit form. -/
  | br (f : BitVec 19)
  /-- R243: Branch with a 51-bit word offset, 64-bit form. -/
  | br64 (f : BitVec 51)
  /-- R243: Branches to the address held in an s register. -/
  | bri (s : BitVec 6)
  /-- R243: Branches by offset and writes the return address to s47, 32-bit form. -/
  | call (f : BitVec 19)
  /-- R243: Call with a 51-bit word offset, 64-bit form. -/
  | call64 (f : BitVec 51)
  /-- R243: Calls the address held in an s register and links s47. -/
  | calli (s : BitVec 6)
  /-- R195: Checks a loop body and starts the loop sequencer with a trip count from a register. -/
  | loop (b : BitVec 7) (ii : BitVec 7) (n : BitVec 6) (vr : BitVec 6) (sr : BitVec 5)
  /-- R195: Starts a four-level loop nest whose trip count is the product of four registers. -/
  | loopn (b : BitVec 7) (ii : BitVec 7) (n0 : BitVec 6) (n1 : BitVec 6) (n2 : BitVec 6) (n3 : BitVec 6) (vr : BitVec 6) (sr : BitVec 5)
  /-- R250: Tests an FLG bit, optionally clears it, and makes the context WAITING while it is clear. -/
  | wait (f : BitVec 5) (c : BitVec 1)
  /-- R251: Gives up the core to the oldest READY context, or makes the context dormant. -/
  | yield (d : BitVec 1)
  /-- R253: Writes FMT from a register, effective at the 4th bundle after. -/
  | fmtset (r : BitVec 6)
  /-- R253: Writes FMT from an immediate, effective at the 4th bundle after. -/
  | fmtset64 (i : BitVec 23)
  /-- R253: Sets the bundle allowance BAL, effective 4 bundles later. -/
  | balset (a : BitVec 10)
  /-- R253: Sets the window allowance WAL, effective 4 bundles later. -/
  | walset (a : BitVec 13)
  /-- R208: Starts or queues an operating-point transition of the cluster. -/
  | opset (t : BitVec 3)
  /-- R254: Places the context in a lock-step group and reports success in a predicate. -/
  | gjoin (g : BitVec 8) (c : BitVec 4) (k : BitVec 3)
  /-- R157: Places a marker in both queues that orders accesses across it at a scope. -/
  | qmark (s : BitVec 3)
  /-- R157: Freezes the context until earlier accesses, copies and array steps have performed at a scope. -/
  | fence (s : BitVec 3)
  /-- R160: Promotion fence: a pkg FENCE, then a wait at a compute die's ordering point. -/
  | fencep (d : BitVec 3)
  /-- R100: Registers a transaction and takes its snapshot stamp from PCLK. -/
  | txbegin (a : BitVec 10)
  /-- R104: Commits or aborts the active transaction and lands the cause and stamp at the arrival tick. -/
  | txcommit (d : BitVec 6) (k : BitVec 3) (a : BitVec 10)
  /-- R88: Allocates a snapshot entry stamped with PCLK and returns its handle. -/
  | snapnew (d : BitVec 6) (k : BitVec 3) (a : BitVec 10)
  /-- R89: Binds a snapshot handle to the context, or unbinds with handle 0. -/
  | snapset (s : BitVec 6) (k : BitVec 3) (a : BitVec 10)
  /-- R90: Releases a snapshot handle, making its entry FREE or DRAINING. -/
  | snapdrop (s : BitVec 6) (k : BitVec 3) (a : BitVec 10)
  /-- R263: Raises SWTRAP after the bundle with the given code in DETAIL. -/
  | trap (c : BitVec 16)
  /-- R265: Posts a service record to the device fault queue for the host driver. -/
  | sysc (f : BitVec 5) (v : BitVec 14)
  /-- R266: Copies a control register into an s register. -/
  | crd (d : BitVec 6) (r : BitVec 10)
  /-- R266: Writes an s register into the RW fields of a control register after its delay. -/
  | cwr (s : BitVec 6) (r : BitVec 10)
  /-- R267: Adds two scalar registers modulo 2^64. -/
  | add (d : BitVec 6) (a : BitVec 6) (b : BitVec 6)
  /-- R267: Subtracts two scalar registers modulo 2^64. -/
  | sub (d : BitVec 6) (a : BitVec 6) (b : BitVec 6)
  /-- R267: Low 64 bits of the product of two registers. -/
  | mul (d : BitVec 6) (a : BitVec 6) (b : BitVec 6)
  /-- R267: High 64 bits of the signed 128-bit product. -/
  | mulh (d : BitVec 6) (a : BitVec 6) (b : BitVec 6)
  /-- R267: High 64 bits of the unsigned 128-bit product. -/
  | mulhn (d : BitVec 6) (a : BitVec 6) (b : BitVec 6)
  /-- R268: Signed division rounded toward zero, never trapping. -/
  | div (d : BitVec 6) (a : BitVec 6) (b : BitVec 6)
  /-- R268: Unsigned division, never trapping. -/
  | divn (d : BitVec 6) (a : BitVec 6) (b : BitVec 6)
  /-- R268: Signed remainder, never trapping. -/
  | rem (d : BitVec 6) (a : BitVec 6) (b : BitVec 6)
  /-- R268: Unsigned remainder, never trapping. -/
  | remn (d : BitVec 6) (a : BitVec 6) (b : BitVec 6)
  /-- R267: Bitwise AND of two registers. -/
  | and (d : BitVec 6) (a : BitVec 6) (b : BitVec 6)
  /-- R267: Bitwise OR of two registers. -/
  | or (d : BitVec 6) (a : BitVec 6) (b : BitVec 6)
  /-- R267: Bitwise XOR of two registers. -/
  | xor (d : BitVec 6) (a : BitVec 6) (b : BitVec 6)
  /-- R267: a AND NOT b. -/
  | andn (d : BitVec 6) (a : BitVec 6) (b : BitVec 6)
  /-- R267: Shifts left by the low 6 bits of b. -/
  | shl (d : BitVec 6) (a : BitVec 6) (b : BitVec 6)
  /-- R267: Logical shift right by the low 6 bits of b. -/
  | shr (d : BitVec 6) (a : BitVec 6) (b : BitVec 6)
  /-- R267: Arithmetic shift right by the low 6 bits of b. -/
  | sar (d : BitVec 6) (a : BitVec 6) (b : BitVec 6)
  /-- R267: Rotates left by the low 6 bits of b. -/
  | rol (d : BitVec 6) (a : BitVec 6) (b : BitVec 6)
  /-- R267: Signed minimum. -/
  | min (d : BitVec 6) (a : BitVec 6) (b : BitVec 6)
  /-- R267: Signed maximum. -/
  | max (d : BitVec 6) (a : BitVec 6) (b : BitVec 6)
  /-- R267: Unsigned minimum. -/
  | minn (d : BitVec 6) (a : BitVec 6) (b : BitVec 6)
  /-- R267: Unsigned maximum. -/
  | maxn (d : BitVec 6) (a : BitVec 6) (b : BitVec 6)
  /-- R270: Adds a sign-extended 7-bit immediate to a register. -/
  | addi (d : BitVec 6) (a : BitVec 6) (i : BitVec 7)
  /-- R270: Adds a 39-bit signed immediate to a register. -/
  | addi64 (d : BitVec 6) (a : BitVec 6) (i : BitVec 39)
  /-- R267: Counts leading zero bits. -/
  | clz (d : BitVec 6) (a : BitVec 6)
  /-- R267: Counts trailing zero bits. -/
  | ctz (d : BitVec 6) (a : BitVec 6)
  /-- R267: Counts set bits. -/
  | popc (d : BitVec 6) (a : BitVec 6)
  /-- R267: Copies a scalar register. -/
  | mov (d : BitVec 6) (a : BitVec 6)
  /-- R271: Extracts an unsigned bit field. -/
  | bfx (d : BitVec 6) (a : BitVec 6) (o : BitVec 6) (l : BitVec 6)
  /-- R271: Extracts a sign-extended bit field. -/
  | bfxs (d : BitVec 6) (a : BitVec 6) (o : BitVec 6) (l : BitVec 6)
  /-- R271: Inserts a bit field into the destination. -/
  | bfi (d : BitVec 6) (a : BitVec 6) (o : BitVec 6) (l : BitVec 6)
  /-- R272: Selects one of two registers by a predicate. -/
  | sel (d : BitVec 6) (a : BitVec 6) (b : BitVec 6) (k : BitVec 4)
  /-- R270: Loads a sign-extended 13-bit immediate. -/
  | movi (d : BitVec 6) (i : BitVec 13)
  /-- R270: Loads a sign-extended 45-bit immediate. -/
  | movi64 (d : BitVec 6) (i : BitVec 45)
  /-- R270: Adds b shifted left by 3 or 6 to a. -/
  | addx (d : BitVec 6) (a : BitVec 6) (b : BitVec 6) (s : BitVec 1)
  /-- R270: Adds b, optionally sign-extended from 32 bits, shifted by SH. -/
  | addx64 (d : BitVec 6) (a : BitVec 6) (b : BitVec 6) (h : BitVec 6) (x : BitVec 1)
  /-- R273: Compares two registers into a predicate k0-k7. -/
  | cmp (c : BitVec 4) (a : BitVec 6) (b : BitVec 6) (k : BitVec 3)
  /-- R273: Compares two registers into any predicate. -/
  | cmp64 (c : BitVec 4) (a : BitVec 6) (b : BitVec 6) (k : BitVec 4)
  /-- R273: Compares a register with a 6-bit signed immediate into a predicate. -/
  | cmpi (c : BitVec 4) (a : BitVec 6) (k : BitVec 3) (i : BitVec 6)
  /-- R273: Compares a register with a 37-bit signed immediate. -/
  | cmpi64 (c : BitVec 4) (a : BitVec 6) (k : BitVec 4) (i : BitVec 37)
  /-- R274: FP32 addition with one rounding. -/
  | fadd (d : BitVec 6) (a : BitVec 6) (b : BitVec 6)
  /-- R274: FP32 subtraction with one rounding. -/
  | fsub (d : BitVec 6) (a : BitVec 6) (b : BitVec 6)
  /-- R274: FP32 multiplication with one rounding. -/
  | fmul (d : BitVec 6) (a : BitVec 6) (b : BitVec 6)
  /-- R274: FP32 fused multiply-add with one rounding. -/
  | ffma (d : BitVec 6) (a : BitVec 6) (b : BitVec 6) (c : BitVec 6)
  /-- R274: FP32 minimum by FMin. -/
  | fmin (d : BitVec 6) (a : BitVec 6) (b : BitVec 6)
  /-- R274: FP32 maximum by FMax. -/
  | fmax (d : BitVec 6) (a : BitVec 6) (b : BitVec 6)
  /-- R275: FP32 compare into a predicate k0-k7. -/
  | fcmp (c : BitVec 4) (a : BitVec 6) (b : BitVec 6) (k : BitVec 3)
  /-- R275: FP32 compare into any predicate. -/
  | fcmp64 (c : BitVec 4) (a : BitVec 6) (b : BitVec 6) (k : BitVec 4)
  /-- R276: Converts a scalar between float and integer formats with one rounding. -/
  | cvtf (d : BitVec 6) (a : BitVec 6) (sf : BitVec 4) (df : BitVec 4)
  /-- R277: Reads a field of an address iterator. -/
  | aird (d : BitVec 6) (j : BitVec 4) (f : BitVec 3)
  /-- R277: Writes a field of an address iterator from the next bundle. -/
  | aiwr (s : BitVec 6) (j : BitVec 4) (f : BitVec 3)
  /-- R278: Draws a 64-bit Philox random value. -/
  | rng (d : BitVec 6)
  /-- R284: Fixed-latency 8-byte load from the local window, LIN view. -/
  | ld (d : BitVec 6) (b : BitVec 6) (i : BitVec 7)
  /-- R284: Fixed-latency local load with size and sign extension. -/
  | ld64 (d : BitVec 10) (b : BitVec 7) (i : BitVec 26) (z : BitVec 2) (x : BitVec 1)
  /-- R285: Local acquire load at sys scope acting as clu. -/
  | ldacq (d : BitVec 6) (b : BitVec 6) (i : BitVec 7)
  /-- R285: Local acquire load with scope, size and sign fields. -/
  | ldacq64 (d : BitVec 10) (b : BitVec 7) (i : BitVec 26) (z : BitVec 2) (x : BitVec 1) (s : BitVec 3)
  /-- R287: Long load that lands at a named arrival tick. -/
  | ldl (d : BitVec 6) (b : BitVec 7) (z : BitVec 2) (x : BitVec 1) (a : BitVec 12) (i : BitVec 19)
  /-- R286: Long acquire load: LDL with ACQ set and a scope. -/
  | ldacqLong (d : BitVec 6) (b : BitVec 7) (z : BitVec 2) (x : BitVec 1) (s : BitVec 3) (a : BitVec 12) (i : BitVec 19)
  /-- R289: Fixed-latency vector load of lane group 0 in the SWZ view. -/
  | vld (d : BitVec 6) (b : BitVec 6) (i : BitVec 7)
  /-- R289: Vector load of several lane groups into absolute registers. -/
  | vld64 (d : BitVec 10) (b : BitVec 7) (i : BitVec 26) (g : BitVec 8)
  /-- R290: Long vector load landing at an arrival tick. -/
  | vldl (d : BitVec 10) (b : BitVec 7) (g : BitVec 8) (a : BitVec 12) (i : BitVec 14)
  /-- R289: Loads one line into lane group 0. -/
  | vldb (d : BitVec 6) (b : BitVec 6) (i : BitVec 7)
  /-- R289: Broadcasts one line to every named lane group. -/
  | vldb64 (d : BitVec 10) (b : BitVec 7) (i : BitVec 26) (g : BitVec 8)
  /-- R291: Gathers 32-bit elements from the local window by index. -/
  | vldx (d : BitVec 10) (x : BitVec 10) (b : BitVec 7) (g : BitVec 8) (s : BitVec 2) (m : BitVec 4)
  /-- R292: Loads a tile of rows, optionally transposed. -/
  | tld (d : BitVec 10) (b : BitVec 7) (g : BitVec 8) (s : BitVec 14) (r : BitVec 5) (t : BitVec 1) (w : BitVec 2)
  /-- R294: Asks owning hubs to allocate cellar lines without returning data. -/
  | pref (c : BitVec 6) (b : BitVec 6) (i : BitVec 7)
  /-- R296: Stores 8 bytes of a scalar register. -/
  | st (d : BitVec 6) (b : BitVec 6) (i : BitVec 7)
  /-- R296: Stores the low SZ bytes of a scalar register. -/
  | st64 (d : BitVec 10) (b : BitVec 7) (i : BitVec 26) (z : BitVec 2)
  /-- R296: Release store at sys scope. -/
  | strel (d : BitVec 6) (b : BitVec 6) (i : BitVec 7)
  /-- R296: Release store with scope and size fields. -/
  | strel64 (d : BitVec 10) (b : BitVec 7) (i : BitVec 26) (z : BitVec 2) (s : BitVec 3)
  /-- R297: Stores a vector register of lane group 0 in the SWZ view. -/
  | vst (d : BitVec 6) (b : BitVec 6) (i : BitVec 7)
  /-- R297: Stores a register of several lane groups. -/
  | vst64 (d : BitVec 10) (b : BitVec 7) (i : BitVec 26) (g : BitVec 8)
  /-- R297: Masked vector store of group 0 under mask m1. -/
  | vstm (d : BitVec 6) (b : BitVec 6) (i : BitVec 7)
  /-- R297: Masked vector store of a chosen group or all groups. -/
  | vstm64 (d : BitVec 10) (b : BitVec 7) (i : BitVec 26) (m : BitVec 4) (l : BitVec 4)
  /-- R298: Scatters 32-bit elements to the local window by index. -/
  | vstx (d : BitVec 10) (x : BitVec 10) (b : BitVec 7) (g : BitVec 8) (s : BitVec 2) (m : BitVec 4)
  /-- R292: Stores a tile of rows. -/
  | tst (d : BitVec 10) (b : BitVec 7) (g : BitVec 8) (s : BitVec 14) (r : BitVec 5)
  /-- R358: One step of loading the live plane from a plane image. -/
  | ald (b : BitVec 7) (k : BitVec 9) (n : BitVec 6) (t : BitVec 1) (l : BitVec 2)
  /-- R358: One step of loading the shadow plane. -/
  | alds (b : BitVec 7) (k : BitVec 9) (n : BitVec 6) (t : BitVec 1) (l : BitVec 2)
  /-- R360: Zeroes an accumulator bank, RACC, GP or the OOG counters. -/
  | azero (t : BitVec 3)
  /-- R365: One step of a dense matrix pass into an accumulator row. -/
  | amm (b : BitVec 7) (r : BitVec 12) (k : BitVec 9) (o : BitVec 8) (n : BitVec 1) (c : BitVec 1) (w : BitVec 2) (l : BitVec 1) (y : BitVec 2) (z : BitVec 7)
  /-- R365: One step of a packed-sparse matrix pass. -/
  | amms (b : BitVec 7) (r : BitVec 12) (k : BitVec 9) (o : BitVec 8) (n : BitVec 1) (c : BitVec 1) (w : BitVec 2) (l : BitVec 1) (y : BitVec 2) (z : BitVec 7)
  /-- R372: One step of evaluating the spline layer for a sample. -/
  | aeval (b : BitVec 7) (r : BitVec 12) (o : BitVec 8) (n : BitVec 1) (c : BitVec 1)
  /-- R373: One step of the activation gradient into RACC. -/
  | abwd (b : BitVec 7) (r : BitVec 12) (z : BitVec 7) (q : BitVec 12) (o : BitVec 8) (c : BitVec 1)
  /-- R374: One step of scattering coefficient gradients into GP. -/
  | agrad (b : BitVec 7) (r : BitVec 12) (z : BitVec 7) (q : BitVec 12) (c : BitVec 1)
  /-- R375: Updates one row of cells from their gradients with stochastic rounding. -/
  | aupd (a : BitVec 6) (r : BitVec 5)
  /-- R368: Sets array mode, base function, clamp and grid size. -/
  | amode (m : BitVec 1) (b : BitVec 2) (c : BitVec 2) (g : BitVec 3)
  /-- R369: Loads the knot registers KLO and KIH of every row. -/
  | aknot (b : BitVec 6) (d : BitVec 13)
  /-- R377: Extends the spline grid by LO and HI intervals. -/
  | aextend (l : BitVec 4) (u : BitVec 4)
  /-- R379: One step of converting an accumulator row into vector registers. -/
  | aout (d : BitVec 10) (g : BitVec 3) (s : BitVec 2) (o : BitVec 8) (m : BitVec 6) (e8 : BitVec 8) (c : BitVec 1)
  /-- R379: One step of converting an accumulator row into scratchpad. -/
  | aouts (b : BitVec 7) (r : BitVec 12) (s : BitVec 2) (o : BitVec 8) (m : BitVec 6) (e8 : BitVec 8) (c : BitVec 1)
  /-- R380: Reads the out-of-grid counters into lane groups 0-3. -/
  | aoog (d : BitVec 6) (c : BitVec 1)
  /-- R380: Reads one gradient index of a row into vector registers. -/
  | agout (d : BitVec 10) (g : BitVec 3) (o : BitVec 6) (q : BitVec 5) (c : BitVec 1)
  /-- R380: Reads one plane slot of a row into vector registers. -/
  | acout (d : BitVec 10) (g : BitVec 3) (o : BitVec 6) (q : BitVec 5) (p : BitVec 1)
  /-- R361: Writes A-side or B-side scale latches from a register. -/
  | scale (a : BitVec 6) (s : BitVec 1) (f : BitVec 4) (n : BitVec 3)
  /-- R361: Writes the A-side X latches from a register. -/
  | scx (a : BitVec 6) (f : BitVec 4) (n : BitVec 3)
  /-- R362: Sets the array random key and clears APC. -/
  | sckey (a : BitVec 6)
  /-- R301: Copy-engine byte copy. -/
  | cpy (b : BitVec 6) (a : BitVec 6) (r : BitVec 6) (n : BitVec 20)
  /-- R302: Copy-engine strided two-dimensional copy. -/
  | cpys (b : BitVec 6) (a : BitVec 6) (r : BitVec 6)
  /-- R301: Copy-engine accumulate of source elements into destination at the home unit. -/
  | cpacc (b : BitVec 6) (a : BitVec 6) (r : BitVec 6) (n : BitVec 20) (o : BitVec 3) (t : BitVec 2)
  /-- R303: Atomic swap at the home unit returning the old value. -/
  | cpswap (d : BitVec 6) (b : BitVec 6) (v : BitVec 6) (w : BitVec 1) (a : BitVec 12)
  /-- R303: Atomic compare-and-swap at the home unit returning the old value. -/
  | cpcas (d : BitVec 6) (b : BitVec 6) (v : BitVec 6) (c : BitVec 6) (w : BitVec 1) (a : BitVec 12)
  /-- R304: Sends a payload and message that wakes a target context. -/
  | cpsend (a : BitVec 6)
  /-- R301: Copy-engine fill with an 8-byte pattern. -/
  | cpfill (b : BitVec 6) (a : BitVec 6) (r : BitVec 6) (n : BitVec 20)
  /-- R306: Initialises a barrier word. -/
  | cpbinit (b : BitVec 6) (a : BitVec 6)
  /-- R307: Arrives on a barrier word as a release RMW. -/
  | cparr (b : BitVec 6) (r : BitVec 6) (i : BitVec 1) (s : BitVec 3)
  /-- R309: Hands a collective descriptor to the collective engine. -/
  | cpcoll (b : BitVec 6)
  /-- R311: Writes a completion word as a release after earlier commands complete, reporting CFAIL. -/
  | cprel (a : BitVec 6) (b : BitVec 6) (s : BitVec 3)
  /-- R312: Returns copy progress and state at the arrival tick. -/
  | cpstat (d : BitVec 6) (a : BitVec 10)
  /-- R342: AND of masks or predicates. -/
  | pand (d : BitVec 4) (a : BitVec 4) (b : BitVec 4) (g : BitVec 3) (k : BitVec 1)
  /-- R342: OR of masks or predicates. -/
  | por (d : BitVec 4) (a : BitVec 4) (b : BitVec 4) (g : BitVec 3) (k : BitVec 1)
  /-- R342: XOR of masks or predicates. -/
  | pxor (d : BitVec 4) (a : BitVec 4) (b : BitVec 4) (g : BitVec 3) (k : BitVec 1)
  /-- R342: a AND NOT b of masks or predicates. -/
  | pandn (d : BitVec 4) (a : BitVec 4) (b : BitVec 4) (g : BitVec 3) (k : BitVec 1)
  /-- R342: NOT of a mask or predicate. -/
  | pnot (d : BitVec 4) (a : BitVec 4) (g : BitVec 3) (k : BitVec 1)
  /-- R342: Copies a mask or predicate. -/
  | pmov (d : BitVec 4) (a : BitVec 4) (g : BitVec 3) (k : BitVec 1)
  /-- R343: Sets a predicate to ANY, ALL or NONE of a mask. -/
  | psetk (k : BitVec 4) (a : BitVec 4) (g : BitVec 3) (c : BitVec 2)
  /-- R343: Counts the set bits of a mask into a scalar. -/
  | pcnt (d : BitVec 6) (a : BitVec 4) (g : BitVec 3)
  /-- R343: Keeps the lowest set bit of a mask. -/
  | pfirst (d : BitVec 4) (a : BitVec 4) (g : BitVec 3)
  /-- R343: Expands a predicate into masks of chosen lane groups. -/
  | pktom (d : BitVec 4) (a : BitVec 4) (g : BitVec 8)
  /-- R322: Lane-group float addition, 32-bit form. -/
  | vadd (d : BitVec 6) (a : BitVec 6) (b : BitVec 6) (et : BitVec 1)
  /-- R322: Lane-group float addition, 64-bit form. -/
  | vadd64 (d : BitVec 10) (a : BitVec 10) (b : BitVec 10) (e4 : BitVec 4)
  /-- R322: Lane-group float subtraction, 32-bit form. -/
  | vsub (d : BitVec 6) (a : BitVec 6) (b : BitVec 6) (et : BitVec 1)
  /-- R322: Lane-group float subtraction, 64-bit form. -/
  | vsub64 (d : BitVec 10) (a : BitVec 10) (b : BitVec 10) (e4 : BitVec 4)
  /-- R322: Lane-group float multiplication, 32-bit form. -/
  | vmul (d : BitVec 6) (a : BitVec 6) (b : BitVec 6) (et : BitVec 1)
  /-- R322: Lane-group float multiplication, 64-bit form. -/
  | vmul64 (d : BitVec 10) (a : BitVec 10) (b : BitVec 10) (e4 : BitVec 4)
  /-- R322: Lane-group fused multiply-add. -/
  | vfma (d : BitVec 10) (a : BitVec 10) (b : BitVec 10) (c : BitVec 10) (e4 : BitVec 4)
  /-- R322: Lane-group fused multiply-subtract. -/
  | vfms (d : BitVec 10) (a : BitVec 10) (b : BitVec 10) (c : BitVec 10) (e4 : BitVec 4)
  /-- R322: Lane-group float minimum, 32-bit form. -/
  | vmin (d : BitVec 6) (a : BitVec 6) (b : BitVec 6) (et : BitVec 1)
  /-- R322: Lane-group float minimum, 64-bit form. -/
  | vmin64 (d : BitVec 10) (a : BitVec 10) (b : BitVec 10) (e4 : BitVec 4)
  /-- R322: Lane-group float maximum, 32-bit form. -/
  | vmax (d : BitVec 6) (a : BitVec 6) (b : BitVec 6) (et : BitVec 1)
  /-- R322: Lane-group float maximum, 64-bit form. -/
  | vmax64 (d : BitVec 10) (a : BitVec 10) (b : BitVec 10) (e4 : BitVec 4)
  /-- R322: Lane-group absolute value, 32-bit form. -/
  | vabs (d : BitVec 6) (a : BitVec 6) (et : BitVec 1)
  /-- R322: Lane-group absolute value, 64-bit form. -/
  | vabs64 (d : BitVec 10) (a : BitVec 10) (e4 : BitVec 4)
  /-- R322: Lane-group negation, 32-bit form. -/
  | vneg (d : BitVec 6) (a : BitVec 6) (et : BitVec 1)
  /-- R322: Lane-group negation, 64-bit form. -/
  | vneg64 (d : BitVec 10) (a : BitVec 10) (e4 : BitVec 4)
  /-- R323: Reciprocal special function, 32-bit form. -/
  | vrcp (d : BitVec 6) (a : BitVec 6) (et : BitVec 1)
  /-- R323: Reciprocal special function, 64-bit form. -/
  | vrcp64 (d : BitVec 10) (a : BitVec 10) (e4 : BitVec 4)
  /-- R323: Reciprocal square root, 32-bit form. -/
  | vrsq (d : BitVec 6) (a : BitVec 6) (et : BitVec 1)
  /-- R323: Reciprocal square root, 64-bit form. -/
  | vrsq64 (d : BitVec 10) (a : BitVec 10) (e4 : BitVec 4)
  /-- R323: Square root, 32-bit form. -/
  | vsqrt (d : BitVec 6) (a : BitVec 6) (et : BitVec 1)
  /-- R323: Square root, 64-bit form. -/
  | vsqrt64 (d : BitVec 10) (a : BitVec 10) (e4 : BitVec 4)
  /-- R323: Base-2 exponential, 32-bit form. -/
  | vexp2 (d : BitVec 6) (a : BitVec 6) (et : BitVec 1)
  /-- R323: Base-2 exponential, 64-bit form. -/
  | vexp264 (d : BitVec 10) (a : BitVec 10) (e4 : BitVec 4)
  /-- R323: Base-2 logarithm, 32-bit form. -/
  | vlog2 (d : BitVec 6) (a : BitVec 6) (et : BitVec 1)
  /-- R323: Base-2 logarithm, 64-bit form. -/
  | vlog264 (d : BitVec 10) (a : BitVec 10) (e4 : BitVec 4)
  /-- R323: Sine, 32-bit form. -/
  | vsin (d : BitVec 6) (a : BitVec 6) (et : BitVec 1)
  /-- R323: Sine, 64-bit form. -/
  | vsin64 (d : BitVec 10) (a : BitVec 10) (e4 : BitVec 4)
  /-- R323: Cosine, 32-bit form. -/
  | vcos (d : BitVec 6) (a : BitVec 6) (et : BitVec 1)
  /-- R323: Cosine, 64-bit form. -/
  | vcos64 (d : BitVec 10) (a : BitVec 10) (e4 : BitVec 4)
  /-- R323: Hyperbolic tangent, 32-bit form. -/
  | vtanh (d : BitVec 6) (a : BitVec 6) (et : BitVec 1)
  /-- R323: Hyperbolic tangent, 64-bit form. -/
  | vtanh64 (d : BitVec 10) (a : BitVec 10) (e4 : BitVec 4)
  /-- R323: Logistic sigmoid, 32-bit form. -/
  | vsigm (d : BitVec 6) (a : BitVec 6) (et : BitVec 1)
  /-- R323: Logistic sigmoid, 64-bit form. -/
  | vsigm64 (d : BitVec 10) (a : BitVec 10) (e4 : BitVec 4)
  /-- R323: SiLU function, 32-bit form. -/
  | vsilu (d : BitVec 6) (a : BitVec 6) (et : BitVec 1)
  /-- R323: SiLU function, 64-bit form. -/
  | vsilu64 (d : BitVec 10) (a : BitVec 10) (e4 : BitVec 4)
  /-- R325: Whole-lane bitwise AND, 32-bit form. -/
  | vand (d : BitVec 6) (a : BitVec 6) (b : BitVec 6)
  /-- R325: Whole-lane bitwise AND, 64-bit form. -/
  | vand64 (d : BitVec 10) (a : BitVec 10) (b : BitVec 10)
  /-- R325: Whole-lane bitwise OR, 32-bit form. -/
  | vor (d : BitVec 6) (a : BitVec 6) (b : BitVec 6)
  /-- R325: Whole-lane bitwise OR, 64-bit form. -/
  | vor64 (d : BitVec 10) (a : BitVec 10) (b : BitVec 10)
  /-- R325: Whole-lane bitwise XOR, 32-bit form. -/
  | vxor (d : BitVec 6) (a : BitVec 6) (b : BitVec 6)
  /-- R325: Whole-lane bitwise XOR, 64-bit form. -/
  | vxor64 (d : BitVec 10) (a : BitVec 10) (b : BitVec 10)
  /-- R325: Whole-lane bitwise NOT, 32-bit form. -/
  | vnot (d : BitVec 6) (a : BitVec 6)
  /-- R325: Whole-lane bitwise NOT, 64-bit form. -/
  | vnot64 (d : BitVec 10) (a : BitVec 10)
  /-- R325: Element shift left, 32-bit form. -/
  | vshl (d : BitVec 6) (a : BitVec 6) (b : BitVec 6) (et : BitVec 1)
  /-- R325: Element shift left, 64-bit form. -/
  | vshl64 (d : BitVec 10) (a : BitVec 10) (b : BitVec 10) (e4 : BitVec 4)
  /-- R325: Element logical shift right, 32-bit form. -/
  | vshr (d : BitVec 6) (a : BitVec 6) (b : BitVec 6) (et : BitVec 1)
  /-- R325: Element logical shift right, 64-bit form. -/
  | vshr64 (d : BitVec 10) (a : BitVec 10) (b : BitVec 10) (e4 : BitVec 4)
  /-- R325: Element arithmetic shift right, 32-bit form. -/
  | vsar (d : BitVec 6) (a : BitVec 6) (b : BitVec 6) (et : BitVec 1)
  /-- R325: Element arithmetic shift right, 64-bit form. -/
  | vsar64 (d : BitVec 10) (a : BitVec 10) (b : BitVec 10) (e4 : BitVec 4)
  /-- R322: Integer element addition, 32-bit form. -/
  | viadd (d : BitVec 6) (a : BitVec 6) (b : BitVec 6) (et : BitVec 1)
  /-- R322: Integer element addition, 64-bit form. -/
  | viadd64 (d : BitVec 10) (a : BitVec 10) (b : BitVec 10) (e4 : BitVec 4)
  /-- R322: Integer element subtraction, 32-bit form. -/
  | visub (d : BitVec 6) (a : BitVec 6) (b : BitVec 6) (et : BitVec 1)
  /-- R322: Integer element subtraction, 64-bit form. -/
  | visub64 (d : BitVec 10) (a : BitVec 10) (b : BitVec 10) (e4 : BitVec 4)
  /-- R322: Integer element multiplication, 32-bit form. -/
  | vimul (d : BitVec 6) (a : BitVec 6) (b : BitVec 6) (et : BitVec 1)
  /-- R322: Integer element multiplication, 64-bit form. -/
  | vimul64 (d : BitVec 10) (a : BitVec 10) (b : BitVec 10) (e4 : BitVec 4)
  /-- R322: Integer element minimum, 32-bit form. -/
  | vimin (d : BitVec 6) (a : BitVec 6) (b : BitVec 6) (et : BitVec 1)
  /-- R322: Integer element minimum, 64-bit form. -/
  | vimin64 (d : BitVec 10) (a : BitVec 10) (b : BitVec 10) (e4 : BitVec 4)
  /-- R322: Integer element maximum, 32-bit form. -/
  | vimax (d : BitVec 6) (a : BitVec 6) (b : BitVec 6) (et : BitVec 1)
  /-- R322: Integer element maximum, 64-bit form. -/
  | vimax64 (d : BitVec 10) (a : BitVec 10) (b : BitVec 10) (e4 : BitVec 4)
  /-- R326: Float compare into a mask, 32-bit form. -/
  | vcmp (m : BitVec 4) (a : BitVec 6) (b : BitVec 6) (c : BitVec 3)
  /-- R326: Float compare of a chosen element part into a mask. -/
  | vcmp64 (m : BitVec 4) (c : BitVec 3) (a : BitVec 10) (b : BitVec 10) (e4 : BitVec 4) (p : BitVec 3)
  /-- R326: Integer compare into a mask, 32-bit form. -/
  | vicmp (m : BitVec 4) (a : BitVec 6) (b : BitVec 6) (c : BitVec 3)
  /-- R326: Integer compare of a chosen element part into a mask. -/
  | vicmp64 (m : BitVec 4) (c : BitVec 3) (a : BitVec 10) (b : BitVec 10) (e4 : BitVec 4) (p : BitVec 3)
  /-- R327: Selects lanes from two registers by a mask. -/
  | vsel (d : BitVec 10) (a : BitVec 10) (b : BitVec 10) (m : BitVec 4)
  /-- R325: Copies whole lanes, 32-bit form. -/
  | vmov (d : BitVec 6) (a : BitVec 6)
  /-- R325: Copies whole lanes, 64-bit form. -/
  | vmov64 (d : BitVec 10) (a : BitVec 10)
  /-- R328: Writes the low bits of a scalar register to every element. -/
  | vsplat (d : BitVec 6) (s : BitVec 6) (w : BitVec 2)
  /-- R328: Writes an immediate to every element. -/
  | vsplat64 (d : BitVec 10) (i : BitVec 32) (w : BitVec 2)
  /-- R329: Writes an arithmetic sequence over element numbers. -/
  | viota (d : BitVec 6) (s : BitVec 6) (t : BitVec 4) (w : BitVec 2) (g : BitVec 1)
  /-- R330: Permutes elements of the group by an index register, 32-bit form. -/
  | vperm (d : BitVec 6) (a : BitVec 6) (b : BitVec 6) (et : BitVec 1)
  /-- R330: Element permutation, 64-bit form. -/
  | vperm64 (d : BitVec 10) (a : BitVec 10) (b : BitVec 10) (e4 : BitVec 4)
  /-- R331: Moves a register from another lane group, 32-bit form. -/
  | vxcp (d : BitVec 6) (a : BitVec 6) (g : BitVec 3)
  /-- R331: Moves an absolute register from another lane group. -/
  | vxcp64 (d : BitVec 10) (a : BitVec 10) (g : BitVec 3)
  /-- R332: Sum reduction with one rounding, 32-bit form. -/
  | vredadd (d : BitVec 6) (a : BitVec 6) (k : BitVec 1) (et : BitVec 1)
  /-- R332: Sum reduction with format code and WIDE, 64-bit form. -/
  | vredadd64 (d : BitVec 10) (a : BitVec 10) (e4 : BitVec 4) (w : BitVec 1)
  /-- R332: Maximum reduction, 32-bit form. -/
  | vredmax (d : BitVec 6) (a : BitVec 6) (k : BitVec 1) (et : BitVec 1)
  /-- R332: Maximum reduction, 64-bit form. -/
  | vredmax64 (d : BitVec 10) (a : BitVec 10) (e4 : BitVec 4)
  /-- R332: Minimum reduction, 32-bit form. -/
  | vredmin (d : BitVec 6) (a : BitVec 6) (k : BitVec 1) (et : BitVec 1)
  /-- R332: Minimum reduction, 64-bit form. -/
  | vredmin64 (d : BitVec 10) (a : BitVec 10) (e4 : BitVec 4)
  /-- R333: Inclusive prefix sum, 32-bit form. -/
  | vscan (d : BitVec 6) (a : BitVec 6) (k : BitVec 1) (et : BitVec 1)
  /-- R333: Inclusive or exclusive prefix sum, 64-bit form. -/
  | vscan64 (d : BitVec 10) (a : BitVec 10) (e4 : BitVec 4) (x : BitVec 1)
  /-- R334: Packs selected elements to the front and returns their count, 32-bit form. -/
  | vcompress (d : BitVec 6) (a : BitVec 6) (s : BitVec 6) (z : BitVec 1)
  /-- R334: Packs selected elements, 64-bit form. -/
  | vcompress64 (d : BitVec 10) (a : BitVec 10) (s : BitVec 6) (z : BitVec 1) (e4 : BitVec 4)
  /-- R334: Spreads leading elements over selected positions, 32-bit form. -/
  | vexpand (d : BitVec 6) (a : BitVec 6) (s : BitVec 6) (z : BitVec 1)
  /-- R334: Spreads leading elements, 64-bit form. -/
  | vexpand64 (d : BitVec 10) (a : BitVec 10) (s : BitVec 6) (z : BitVec 1) (e4 : BitVec 4)
  /-- R335: Converts elements with exact scaling and one rounding. -/
  | vcvt (d : BitVec 10) (a : BitVec 10) (sf : BitVec 4) (df : BitVec 4) (p : BitVec 3) (m : BitVec 6) (x : BitVec 8)
  /-- R336: Stochastically rounds elements to a narrower format in place. -/
  | vrnd (d : BitVec 10) (a : BitVec 10) (sf : BitVec 4) (tf : BitVec 4) (r : BitVec 5)
  /-- R337: Draws a random word or uniform value per lane. -/
  | vrng (d : BitVec 6) (k : BitVec 2)
  /-- R338: Narrows integers to half width. -/
  | vpack (d : BitVec 10) (a : BitVec 10) (b : BitVec 10) (sf : BitVec 4)
  /-- R339: Widens narrow or block-scaled elements. -/
  | vunpk (d : BitVec 10) (a : BitVec 10) (sf : BitVec 4) (df : BitVec 4) (p : BitVec 3) (s : BitVec 6)
  /-- R340: Compresses a dense K-quad into the packed two-of-four layout. -/
  | vspcomp (d : BitVec 10) (a : BitVec 10) (x : BitVec 10) (m : BitVec 4) (sf : BitVec 4)
  /-- R341: Accumulates block maxima, computes block scales, or encodes E2M1X codes. -/
  | vblkscl (d : BitVec 10) (a : BitVec 10) (b : BitVec 10) (o : BitVec 2) (df : BitVec 4) (p : BitVec 3)
  /-- R222: Control no-operation of format CN. -/
  | nop
  /-- R243: Branches to the address in s47. -/
  | ret
  /-- R248: Ends the loop after the current iteration by squashing later iterations. -/
  | lexit
  /-- R252: Ends the context for the launch after aborting any transaction and draining its queues. -/
  | retire
  /-- R255: Removes the context from its lock-step group. -/
  | gleave
  /-- R57: Freezes until earlier local stores and loads of the context have performed, ordering the two views. -/
  | vjoin
  /-- R107: Ends the transaction at once with cause EXPLICIT and frees its records. -/
  | txabort
  /-- R264: Returns from the trap handler, restoring holds, sequencer state and captured results. -/
  | eret
  /-- R263: Raises BKPT after the bundle. -/
  | bkpt
  /-- R359: Exchanges live and shadow plane slots and descriptors. -/
  | aswap
  /-- R376: Doubles the spline grid over the same range. -/
  | arefine
  /-- R218: Issues a bundle with an empty present mask, executing only held words. -/
  | oneTickBundle
  /-- R194: Executes a held slot word again in a bundle that leaves its position empty. -/
  | heldWordRepeat
  /-- R196: The sequencer issues one loop tick of every body bundle of its phase. -/
  | loopTick
  /-- R76: The 12-tick correction freeze expires and issue resumes. -/
  | eccFreezeEnd
  /-- R354: The 72-tick recomputation freeze ends and the result is added or poisoned. -/
  | residueFreezeEnd
  /-- R79: Hub scrubbers correct or poison errors in cellar, larder and caches. -/
  | patrolScrub
  /-- R428: A FATAL error stops every core and command processor and is reported over CXL. -/
  | fatalError
  /-- R189: A result is written to its register within its latency window. -/
  | resultWriteback
  /-- R68: Data waiting in a landing entry is written at its arrival tick. -/
  | arrivalTickLanding
  /-- R69: Late data arrives, ending the freeze at the arrival tick. -/
  | lateDataLands
  /-- R40: A faulted long load freezes and traps at its arrival tick, replayable. -/
  | longLoadFault
  /-- R41: A store fault is raised when the store reaches its queue head. -/
  | storeFault
  /-- R308: An overrun returned by a bank unit traps the issuing context. -/
  | barrierOverrun
  /-- R261: After the store drain, the handler at TVEC issues with trap state saved. -/
  | trapEntry
  /-- R264: After handler results are written, ERET restores state and resumes at TNEXT. -/
  | eretResume
  /-- R412: A captured result is written to its destination at its remaining count. -/
  | captureEntryWrite
  /-- R202: A BAL or WAL write takes effect at the 4th issued bundle. -/
  | settingTakesEffect
  /-- R211: An FMT write takes effect at the 4th issued bundle. -/
  | fmtTakesEffect
  /-- R57: The VJOIN freeze ends when earlier local accesses have performed. -/
  | vjoinRelease
  /-- R157: The FENCE freeze ends when every earlier access and copy has performed. -/
  | fenceRelease
  /-- R160: FENCEP ends when accesses passing the die ordering point before it have performed. -/
  | fencepRelease
  /-- R157: The load queue releases entries held behind a marker once earlier stores perform. -/
  | qmarkRelease
  /-- R150: A queued store performs at its home. -/
  | storePerform
  /-- R296: A release store performs once earlier loads and stores have performed at its scope. -/
  | strelPerform
  /-- R433: In compatibility mode a frozen reader resumes once the running-stepping latency has passed. -/
  | icmInterlockRelease
  /-- R53: Each cluster tick a bank grants one requester in rotating order. -/
  | arbitrationGrant
  /-- R36: A hub walk ends, installing a leaf with A and D updates or faulting. -/
  | pageWalkComplete
  /-- R185: A blocked context becomes READY when its queue has room. -/
  | queueRoom
  /-- R250: A set flag makes a WAITING context READY and completes its WAIT. -/
  | waitComplete
  /-- R71: A context becomes dormant once its queues and landing buffer are empty. -/
  | dormancyEntry
  /-- R252: After its drain the context leaves its group, releases bindings and becomes RETIRED. -/
  | retireComplete
  /-- R73: A dormant context is loaded from its oldest arrival and starts its handler. -/
  | contextWake
  /-- R204: A core idles a tick when the ceiling window would be exceeded, retrying next tick. -/
  | ceilingStretch
  /-- R206: The slew limiter grants or withholds each core's bundle in a tick. -/
  | slewWithhold
  /-- R207: In the last tick of a step the limiter issues filler for a deficit. -/
  | slewFiller
  /-- R192: Lock-step members issue one bundle each per group tick. -/
  | groupTick
  /-- R192: Lock-step begins or resumes once every member reaches a G bundle. -/
  | lockstepStart
  /-- R208: An adjacent operating-point step finishes settling and the next begins. -/
  | opsetSettleStep
  /-- R210: The management processor moves a cluster between operating points. -/
  | mgmtOpTransition
  /-- R299: A copy engine accepts a queued class P command. -/
  | copyAccept
  /-- R300: A copy command completes when its writes have performed at their homes. -/
  | copyComplete
  /-- R311: CPREL writes its completion word once its conditions hold and clears CFAIL. -/
  | cprelWrite
  /-- R72: The payload is written and the arrival enters the target core's arrival queue. -/
  | cpsendDelivery
  /-- R62: A bank or controller arithmetic unit applies a read-modify-write to one line. -/
  | homeUnitRmw
  /-- R307: The bank unit applies a barrier arrival to the word. -/
  | cparrApply
  /-- R84: The commit clock issues one stamp per 1 ns tick to a commit or auto-commit group. -/
  | stampIssue
  /-- R104: After the transaction drains, hubs lock, register, validate and vote. -/
  | txPrepare
  /-- R105: A prepare waiting on a locked line resumes at the unlock. -/
  | prepareResume
  /-- R104: Hubs install plain-written versions and apply merges at the commit stamp. -/
  | txPublish
  /-- R98: A hub collector reclaims unreachable records and settles lines. -/
  | collectorReclaim
  /-- R413: The dispatcher saves every context of a victim launch at a bundle boundary. -/
  | preempt
  /-- R414: A saved context is restored and resumes at its VCC. -/
  | contextResume
  /-- R389: A write to a tail word's line is reported to the serving processor. -/
  | tailWordWrite
  /-- R389: Within 2 us the processor reads the tail word and new records. -/
  | tailRead
  /-- R399: The dispatcher starts or retries startable commands in priority order. -/
  | dispatch
  /-- R396: Every virtual cluster of a launch is mapped to an eligible physical cluster. -/
  | launchPlacement
  /-- R392: A completed command releases SEQ with its failure bit to its completion word. -/
  | commandCompletion
  /-- R402: WAITV rereads its word at least every 2 us and on writes to its line. -/
  | waitvPoll
  /-- R405: The job advances CURSOR when all lower records have performed. -/
  | updjobCursor
  /-- R406: A reserved cluster runs its tests and its result byte is written. -/
  | selftestCluster
  /-- R394: Firmware command that checks and places a kernel launch. -/
  | launch
  /-- R401: Firmware command that completes when a masked word meets a condition. -/
  | waitv
  /-- R401: Firmware command that writes a value as a release. -/
  | signalWrite
  /-- R401: Firmware command that adds a value at the home unit as a release. -/
  | signalAdd
  /-- R401: Firmware command that copies bytes as CPY does. -/
  | copy
  /-- R401: Firmware command that fills with a pattern as CPFILL does. -/
  | fill
  /-- R401: Firmware command that allocates a snapshot and writes its handle. -/
  | snapNewCmd
  /-- R401: Firmware command that drops a snapshot handle. -/
  | snapDropCmd
  /-- R403: Firmware command that runs an optimiser job from its cursor. -/
  | updjob
  /-- R406: Firmware command that reserves and tests named clusters. -/
  | selftest
  /-- R407: Firmware command that saves one launch of the tenant and resumes another. -/
  | ctxswap
  /-- R393: Firmware command that completes once earlier commands have completed. -/
  | qfence
  /-- R37: TINVC GO with KIND 0b00 invalidates one page of every size. -/
  | tinvPage
  /-- R37: TINVC GO with KIND 0b01 invalidates all entries of a tenant. -/
  | tinvTid
  /-- R37: TINVC GO with KIND 0b10 invalidates all tenants, physical function only. -/
  | tinvAllTenants
  /-- R37: An invalidation finishes and BUSY returns to 0. -/
  | tinvComplete
  /-- R471: A TCTL write of EN checks TROOT and enables the tenant or sets TERR. -/
  | tenantEnable
  /-- R388: Writing QCTL.EN 1 sets HEAD to the tail word's value. -/
  | queueEnable
  /-- R419: FQSERV RESUME makes a faulted copy translate again from its cursor. -/
  | fqservResume
  /-- R419: FQSERV END fails the faulted copy command. -/
  | fqservEnd
  /-- R418: A write of FQBASE, FQLOG or FQHEAD retries writing held records to the ring. -/
  | fqRegisterWrite
  /-- R417: Sets a flag bit of a named context of a running or saved launch. -/
  | flgset
  /-- R464: GO with KIND cold stops the device and runs a cold start. -/
  | startctlCold
  /-- R464: GO with KIND warm stops the device and runs a warm start. -/
  | startctlWarm
  /-- R426: A write of HELD empties an MCA record only if its SEQ matches. -/
  | mcaRecordClear
  /-- R425: Reading ECNT returns the counts and clears MISS. -/
  | mcaEcntRead
  /-- R99: Reading COLFREED returns and clears the reclaimed-record count. -/
  | colfreedRead
  /-- R472: Reads or writes the communicator entry selected by CMSEL. -/
  | cmdataAccess
  /-- R423: Writes a context's debug control at INVASIVE level. -/
  | dbgctlWrite
  /-- R470: A write to a device register with no behaviour of its own. -/
  | registerWrite
  /-- R423: The management processor dumps device memory without changing state. -/
  | memoryDump
  /-- R467: A token or request raises the debug level and is measured. -/
  | debugLevelRequest
  /-- R429: Resets one tenant's contexts, commands, transactions and translations. -/
  | functionLevelReset
  /-- R448: A host CXL.mem access goes through the owning hub's cache or is refused. -/
  | hostMemAccess
  /-- R465: A host configuration request, retried until the register space is up. -/
  | configRequest
  /-- R449: SPDM request answered with the supported version. -/
  | getVersion
  /-- R449: SPDM capabilities request. -/
  | getCapabilities
  /-- R449: SPDM algorithm negotiation. -/
  | negotiateAlgorithms
  /-- R449: SPDM certificate digests request. -/
  | getDigests
  /-- R449: SPDM certificate request. -/
  | getCertificate
  /-- R449: SPDM challenge signed with the identity key. -/
  | challenge
  /-- R449: SPDM request for the measurement indices. -/
  | getMeasurements
  /-- R449: SPDM secp384r1 key exchange for a secure session. -/
  | keyExchange
  /-- R449: SPDM FINISH completing a secure session. -/
  | finish
  /-- R449: Any other SPDM request gets ERROR UnsupportedRequest. -/
  | spdmUnsupportedRequest
  /-- R454: An idle flit carrying the current flow-control mask is received. -/
  | skelholtIdle
  /-- R451: A read request flit from a peer is checked and served. -/
  | skelholtReadRequest
  /-- R451: A write flit from a peer is checked and applied. -/
  | skelholtWrite
  /-- R451: A read-modify-write flit from a peer is checked and applied. -/
  | skelholtRmw
  /-- R455: A response flit completes an outstanding request. -/
  | skelholtResponse
  /-- R310: A collective flit drives a reduction hop or distribution at the engine. -/
  | skelholtCollective
  /-- R430: A reset marker ends discarding of a reset tenant's flits. -/
  | skelholtResetMarker
  /-- R453: On a NAK the sender replays every flit from that SEQ. -/
  | flitReplay
  /-- R454: A changed flow-control mask is sent in an idle flit within one flit time. -/
  | xoffIdleFlit
  /-- R457: Every 100 us the device sends OFFER to each neighbour. -/
  | budgetOfferTimer
  /-- R457: A received budget offer is recorded with its hop count. -/
  | offer
  /-- R457: A received take deducts and grants surplus and forwards the remainder. -/
  | take
  /-- R457: A received grant adds budget to B. -/
  | grant
  /-- R456: Every 100 us the management processor recomputes demand D. -/
  | demandUpdate
  /-- R458: The cluster ceilings are set from B and the thermal ceiling. -/
  | ceilUpdate
  /-- R460: Every 1 ms valves, pump, thermal ceilings and headroom are updated. -/
  | thermalUpdate
  /-- R462: Runs the cold start steps through READY. -/
  | coldStart
  /-- R462: Runs the warm start steps, keeping cellar contents. -/
  | warmStart
  /-- R464: On leaving OFF or after power loss the device runs the start KIND names. -/
  | moduleLeavesOff
  /-- R468: Gates the clusters the host names. -/
  | powerClusterGate
  /-- R468: Gates every cluster. -/
  | powerIdle
  /-- R468: Leaves only the management processor on auxiliary power. -/
  | powerOff
  /-- R468: The dispatcher ungates clusters before placement, taking 50 us. -/
  | ungateOnDemand
  /-- R407: The hypervisor saves a virtual function, and the firmware undoes or records by swap cursor a CTXSWAP under way. -/
  | vfSave
  /-- R407: The hypervisor restores a virtual function, and its interrupted CTXSWAP completes or starts again before any other command of its queues. -/
  | vfRestore
  /-- R468: The host returns clusters gated under CLUSTER_GATED to ON, and they are cleared as on a change of tenant. -/
  | clusterUngate
  /-- R464: Main and auxiliary power are both lost, so STARTCTL returns to its reset values and all state is gone. -/
  | lossOfAllPower
  /-- R451: A flit with an unknown KIND, or a nonzero reserved field, is received, discarded and logged CORRECTED. -/
  | skelholtUnknownKind
  /-- R13: A completion or snoop response from the host over CXL returns data to a device access of host memory, or releases a line recalled by back-invalidate. -/
  | cxlHostResponse
  /-- R205: The power manager writes RAMP0 to RAMP7, which changes the slew limits of the cluster. -/
  | rampWrite
  deriving DecidableEq, Repr

/-- A slot word as it stands in a bundle: its envelope and what it says. -/
structure Slot where
  env : Env
  op : Instr
  deriving DecidableEq, Repr

end Sys2Proof
end

