-- ==== Sys2Proof/Machine/State.lean ====
section
/-! DEFINITION. The state of one Nurus NX8 package as plain data, the reasons a step can stop, and the state right after
reset. Sparse tables are lists keyed by number (`NatMap`); a key that is not listed reads as the table's default. -/

namespace Sys2Proof.Machine

/-- A sparse table: pairs of key and value, keys rising, no entry equal to the table's default. -/
abbrev NatMap (α : Type) := List (Nat × α)

/-! ### Outcomes -/

/-- Why a step stops with a fault. -/
inductive Fault where
  /-- Raised by the meanings of PATROL_SCRUB and MEMORY_DUMP for a device physical address beyond the end of its space or
  in a reserved space (01 R8), which no translation produces. Safe: the machine stops where the manual gives nothing. -/
  | noSuchAddress (pa : Nat)
  deriving DecidableEq, Repr

/-- Why a step is refused. -/
inductive Refusal where
  /-- Raised by an arm of `exec` that has no meaning yet. Safe: no next state is claimed. -/
  | notModelled (mnemonic : String)
  deriving DecidableEq, Repr

/-! ### Context: registers, results, queues -/

/-- An address iterator (07 R199). -/
structure Iter where
  base : Word
  str0 : W32
  str1 : W32
  str2 : W32
  str3 : W32
  dir : Bool
  deriving DecidableEq, Repr

/-- Where a result goes, bound at issue (02 R47). A vector register is one group's register; lanes are picked apart by the
result's lane set. -/
inductive Dst where
  | sreg (n : Nat)
  | kreg (n : Nat)
  | vreg (g r : Nat)
  | mreg (g n : Nat)
  | iter (j f : Nat)
  deriving DecidableEq, Repr

/-- A result owed to a register (07 R189): its data, the lanes still to be written, the lanes that are poisoned, and how
many more bundles may issue before it must be there. -/
structure Result where
  dst : Dst
  val : BitVec 512
  lanes : BitVec 16
  poison : BitVec 16
  left : Nat
  exact : Bool
  deriving DecidableEq, Repr

/-- An 8-byte granule to be written: its byte address, the bytes to write (one bit each), and the data; with no data the
bytes are poison (02 R77). -/
structure Granule where
  addr : Nat
  mask : BitVec 8
  data : Option (BitVec 64)
  deriving DecidableEq, Repr

/-- How the bytes of a load become results (10 R283 to R293). `lines` names for each 64 B line its address, lane group and
register; `lanes` names each gathered element; `trans` names each transposed unit by its row addresses, group and first
register. -/
inductive LFmt where
  | scalar (d : Nat) (sz : Nat) (sx : Bool) (addr : Nat)
  | lines (l : List (Nat × Nat × Nat))
  | lanes (l : List (Nat × Nat × Nat × Nat))
  | trans (ew : Nat) (units : List (List Nat × Nat × Nat))
  deriving DecidableEq, Repr

/-- What a load-queue entry is (05 R148, R151). `land` names the landing entry of a long load. -/
inductive LKind where
  | fixed
  | land (id : Nat)
  | mark (scope : Nat)
  deriving DecidableEq, Repr

/-- A load-queue entry: the granules still to be read and those read (with no data: poison), the format, the ticks to
its exact landing (`fixed`), the version source (08 R226), the acquire scope, and where it came from. `hold` keeps a faulted
request in the capture buffer until ERET reissues it (01 R40). -/
structure LoadEntry where
  id : Nat
  kind : LKind
  swz : Bool
  need : List Nat
  got : List (Nat × Option (BitVec 64))
  fmt : LFmt
  left : Nat
  snp : Nat
  acq : Option Nat
  bundle : Nat
  handler : Bool
  hold : Bool
  deriving DecidableEq, Repr

/-- What a landing-buffer entry writes at its arrival tick (02 R67, 09 R259, 10 R303, R312). -/
inductive LandKind where
  | load (fmt : LFmt)
  | swap (d : Nat)
  | stat (d : Nat)
  | txBegin
  | txCommit (d kd : Nat)
  | snapNew (d kd : Nat)
  | snapSet (kd : Nat)
  | snapDrop (kd : Nat)
  deriving DecidableEq, Repr

/-- What has come back for a landing entry: granules of a load; a value and a truth value of the other kinds (for
TXBEGIN the stamp and whether it was registered; for SNAPSET the new binding); a fault to raise when the entry is due; or
a command that failed. -/
inductive Answer where
  | waiting
  | granules (l : List (Nat × Option (BitVec 64)))
  | value (v : BitVec 64) (ok : Bool)
  | fault (cause : BitVec 8) (code : BitVec 16) (va : Nat)
  | failed
  deriving DecidableEq, Repr

/-- A landing-buffer entry (02 R67 to R69): `left` bundles to its arrival tick. `eager` is set once the entry is written
as soon as its data is there (02 R71, 09 R252, R264). -/
structure Landing where
  id : Nat
  kind : LandKind
  left : Nat
  answer : Answer
  bundle : Nat
  handler : Bool
  eager : Bool
  deriving DecidableEq, Repr

/-- The operation of a class P command with its operands as read at issue (10 R301 to R312). -/
inductive CopyOp where
  | cpy (dst src count : Nat)
  | cpys (dst src : Nat) (len rows : Nat) (ds ss : Int)
  | cpacc (dst src count : Nat) (aop ety : Nat)
  | cpswap (dst : Nat) (val : Word) (wide : Bool)
  | cpcas (dst : Nat) (val cmp : Word) (wide : Bool)
  | cpsend (target : Word) (handler : Word) (src : Nat) (place : Word) (msg : Nat)
  | cpfill (dst : Nat) (pat : Word) (poison : Bool) (count : Nat)
  | cpbinit (dst : Nat) (w0 w1 w2 : Word)
  | cparr (dst : Nat) (phase : Bool) (scope : Nat)
  | cpcoll (desc : Nat)
  | cprel (dst : Nat) (val : Word) (scope : Nat)
  | cpstat
  deriving DecidableEq, Repr

/-- Where a class P command stands (10 R299, R300, 18 R419). `written`: it makes no further write. -/
inductive CopySt where
  | queued
  | running
  | faulted (cause : BitVec 8) (code : BitVec 16) (va : Nat)
  | arrivalWait
  | collective
  | written
  deriving DecidableEq, Repr

/-- A class P command: its place in the order of leaving the store queues, then the identifier of R418 once accepted;
context, launch, virtual cluster, tenant, its number in issue order (10 R312) and in its store queue, landing entry if it has one, progress
cursor in bytes of the destination, bytes written beyond it (offset and count), source bytes read ahead (R302), failure so
far, the transaction it belongs to (03 R101), version source, the last stamp a write of it took, the issuing bundle, and
whether a handler issued it. A context number from 4,096 up names a saved context (log 15). -/
structure CopyCmd where
  ident : Nat
  cid : Nat
  lid : Nat
  vc : Nat
  tid : Nat
  num : Nat
  qid : Nat
  ahead : List (Nat × Nat)
  buf : NatMap (Option Byte)
  stamp : Nat
  op : CopyOp
  land : Option Nat
  st : CopySt
  cursor : Nat
  failed : Bool
  tx : Option Nat
  snp : Nat
  bundle : Nat
  handler : Bool
  deriving DecidableEq, Repr

/-- What a store-queue entry is (05 R151). `store` holds its granules in writing order; `rel` the release scope. -/
inductive SKind where
  | store (ws : List Granule) (rel : Option Nat)
  | cmd (c : CopyCmd)
  | mark (scope : Nat)
  | txBegin (land : Nat)
  | txCommit (land : Nat)
  | snapNew (land : Nat)
  | snapSet (land : Nat) (handle : W32)
  | snapDrop (land : Nat) (handle : W32)
  deriving DecidableEq, Repr

/-- How far a store to a versioned page has come (03 R86, R97): not sent to its hub; waiting there for a stamp; stamped. -/
inductive SentSt where
  | no
  | queued
  | stamped (c : Nat)
  | peer
  deriving DecidableEq, Repr

/-- A store-queue entry. `local_` marks a store to the local window, whose addresses are LIN addresses; `swz` its view;
`tx` the transaction its VER writes belong to. -/
structure StoreEntry where
  id : Nat
  kind : SKind
  local_ : Bool
  swz : Bool
  tx : Option Nat
  bundle : Nat
  handler : Bool
  sent : SentSt
  deriving DecidableEq, Repr

/-- A held slot word (07 R194). `touched` is set while its source registers have been written since it last ran (R203). -/
structure Hold where
  slot : Slot
  touched : Bool
  deriving DecidableEq, Repr

/-- The loop sequencer (07 R195 to R199, 09 R247): the body's decoded bundles with their addresses, weights and G bits, the
loop tick, and the iteration a LEXIT ended. `stale` is set when a fence discards the body, which is then fetched again (05 R167). -/
structure Seq where
  addr : Nat
  after : Nat
  body : List (Nat × Nat × Bool × List Slot)
  ii : Nat
  n : Nat
  ns : List Nat
  vr : Nat
  sr : Nat
  base0 : Nat
  tick : Nat
  exit : Option Nat
  stale : Bool
  deriving DecidableEq, Repr

/-- Why a context is frozen (07 R190). A join or fence names the first queue entry that is later than it. -/
inductive Freeze where
  | late
  | residue
  | vjoin (bound : Nat)
  | fence (scope bound : Nat)
  | fencep (die bound : Nat)
  | arbitration
  | stream
  | dormancy
  | retire
  | ceiling
  | slew
  | lockstep
  | trapDrain
  | eret
  | icm
  | management
  deriving DecidableEq, Repr

/-- The states of R185. `bound` of a WAIT is the number of the first queue entry that stands after it (05 R158, 17 R408). -/
inductive CtxState where
  | issuing
  | ready
  | blocked
  | waiting (flag : Nat) (clr : Bool) (bound : Nat)
  | dormant
  | retired
  deriving DecidableEq, Repr

/-- The control registers of a context (09 R266), each as its value in force. -/
structure CRegs where
  vcc : Word
  fmt : Word
  bal : Word
  wal : Word
  flg : Word
  snap : Word
  txs : Word
  vwb : Word
  rkey : Word
  rctr : Word
  tcause : Word
  tbund : Word
  tnext : Word
  tvec : Word
  gid : Word
  gsk : Word
  ecnt : Word
  htc : Word
  lid : Word
  wpa : NatMap Word
  wpc : NatMap Word
  deriving DecidableEq, Repr

/-- A control-register write that has not taken effect (07 R202, R211, 09 R266). -/
structure Setting where
  creg : Nat
  val : Word
  left : Nat
  deriving DecidableEq, Repr

/-- A running pass (13 R351): its word, the step index, and the operands, FMT, latches, SCKEY and APC it read at step 0;
whether a step of it has run under a true predicate (08 R220), and whether an operand register it read was poisoned. `cut` is
set when a new SCKEY has landed since its last step, so that, ending there, it counts in no APC (04 R142). -/
structure Pass where
  slot : Slot
  k : Nat
  ran : Bool
  bad : Bool
  cut : Bool
  opnds : List Nat
  fmt : Word
  la : NatMap Byte
  xa : NatMap Byte
  lb : NatMap Byte
  sckey : Word
  apc : W32
  row : List W32
  deriving DecidableEq, Repr

/-- What trap entry saves beside the trap registers (09 R261): holds, sequencer, the TNEXT it wrote, the freezes that waited
for accesses and go on after ERET (log 20), and the array pass of a held word (13 R351). -/
structure Saved where
  holds : List Hold
  seq : Option Seq
  tnext : Word
  waits : List Freeze
  pass : Option Pass
  deriving DecidableEq, Repr

/-- A late cause that has come due and is not yet taken (18 R411). -/
structure Pending where
  cause : BitVec 8
  detail : BitVec 16
  bundle : Nat
  va : Nat
  handler : Bool
  deriving DecidableEq, Repr

/-- One register an interlocked compatibility mode reader may have to wait for (19 R433): bundles of its own mode until the
schedule has it, and bundles until the running stepping has it. -/
structure Icm where
  dst : Dst
  early : Nat
  late : Nat
  handler : Bool
  deriving DecidableEq, Repr

/-- The architectural registers of a context (02 R43). Poison is carried by scalar register and vector lane; `dead` names the
predicates, masks and iterators that an uncorrectable error has poisoned (02 R77, log 75). -/
structure Regs where
  s : NatMap Word
  k : NatMap Bool
  a : NatMap Iter
  v : NatMap W32
  m : NatMap (BitVec 16)
  spoison : NatMap Bool
  vpoison : NatMap Bool
  dead : List Dst
  deriving DecidableEq, Repr

/-- The queues and buffers of a context (02 R67, 07 R186, 10 R299, 18 R412). `copyq` holds the commands no engine has
accepted; `sysc` the unposted SYSC records (18 R418); `aouts` the AOUTS granules, by PA, that have not performed at the
banks (05 R149, R157). -/
structure Queues where
  results : List Result
  capture : List Result
  lq : List LoadEntry
  sq : List StoreEntry
  csq : List StoreEntry
  landing : List Landing
  copyq : List CopyCmd
  nextId : Nat
  issued : Nat
  sysc : List (List Word)
  aouts : List Granule
  deriving DecidableEq, Repr

/-- A context (07 R185). `place` is its (virtual cluster, core, context) in its launch; `checked` is set while the next
bundle was reached by a branch and must have T (09 R244); `icm` the scheduled stepping in interlocked compatibility mode;
`noWatch` lets the next bundle pass the watchpoints (18 R421); `stop` is set when a double trap or a loss has ended it;
`written` holds the registers written since the last issue (07 R203); `fetched` the words of the bundle due, by address,
that the core has fetched ahead of its issue (05 R167), `streamed` the granules that an array stream of it has read ahead, by PA
(05 R149). -/
structure Context where
  st : CtxState
  pc : Nat
  checked : Bool
  regs : Regs
  c : CRegs
  q : Queues
  settings : List Setting
  window : List Nat
  holds : List Hold
  seq : Option Seq
  saved : Option Saved
  freezes : List Freeze
  pend : List Pending
  txid : Option Nat
  cfail : Bool
  readyAt : Nat
  place : Nat × Nat × Nat
  icm : Option Bool
  icms : List Icm
  noWatch : Bool
  dbgStep : Bool
  stop : Bool
  members : Nat
  written : List Dst
  fetched : NatMap W32
  streamed : NatMap (Option Word)
  deriving DecidableEq, Repr

/-! ### Core and cluster -/

/-- KIND of a plane descriptor (13 R348). -/
inductive PlaneKind where
  | none
  | dense
  | sparse
  | spline
  deriving DecidableEq, Repr

/-- A plane descriptor: KIND, scale and X bytes by (block row × 2 + block column), live bitmap (13 R348); and the last K index
and column that its load fetched, since what was not fetched counts as +0 whatever its side byte holds (04 R136, 13 R363). -/
structure PlaneDesc where
  kind : PlaneKind
  ps : NatMap Byte
  px : NatMap Byte
  bitmap : BitVec 128
  kv : Nat
  nv : Nat
  deriving DecidableEq, Repr

/-- A latch or SCKEY write not yet visible (13 R362): target (0 LA, 1 LB, 2 XA, 3 SCKEY), index, value, bundles left, and
whether those are the handler's (09 R261). -/
structure LatchWrite where
  tgt : Nat
  idx : Nat
  val : Word
  left : Nat
  handler : Bool
  deriving DecidableEq, Repr

/-- The function array of a core (13 R348). Planes are bytes keyed by ((row × 64 + column) × 64 + byte); ACC by
((bank × 256 + row) × 64 + column); OOG by row × 2 + (0 below, 1 above). `poison` marks what a load left poisoned (02 R77), by
kind × 2^20 + key: 0 live and 1 shadow plane bytes, 2 KLO, 3 KIH, 4 live and 5 shadow side entries, 6 live and 7 shadow
bitmap, 8 bytes of GP. -/
structure ArrayState where
  cp : NatMap Byte
  gp : NatMap Byte
  sp : NatMap Byte
  live : PlaneDesc
  shadow : PlaneDesc
  klo : NatMap W32
  kih : NatMap W32
  spline : Bool
  basef : Nat
  clamp : Nat
  g : Nat
  acc : NatMap W32
  racc : NatMap W32
  accPoison : NatMap Bool
  raccPoison : NatMap Bool
  oog : NatMap (BitVec 16)
  poison : NatMap Bool
  la : NatMap Byte
  xa : NatMap Byte
  lb : NatMap Byte
  sckey : Word
  apc : W32
  latches : List LatchWrite
  pass : Option Pass
  owner : Option Nat
  deriving DecidableEq, Repr

/-- A CPSEND arrival in a core's arrival queue (02 R72, R73); `poison` has a bit for each 8 bytes of the message (02 R78). -/
structure Arrival where
  ctx : Nat
  sender : Word
  payload : Word
  len : Word
  msg : BitVec 512
  poison : BitVec 8
  handler : Word
  deriving DecidableEq, Repr

/-- A core: its array, its arrival queue of 8 (02 R72), the weights it issued in the last core ticks with the cluster ticks
they were issued in (07 R204), the counter that orders READY contexts (07 R187), and whether a correction has frozen it (02 R76). -/
structure CoreState where
  array : ArrayState
  arrivals : List Arrival
  ticks : List (Nat × Nat)
  nextReady : Nat
  ecc : Bool
  deriving DecidableEq, Repr

/-- A TLB entry: one leaf, tagged with its tenant (01 R34). -/
structure TlbEntry where
  tid : Nat
  va : Nat
  size : Nat
  leaf : Word
  deriving DecidableEq, Repr

/-- A walk-cache entry: the non-leaf entry that covers `size` bytes from `va` for a tenant names this table (01 R36). -/
structure WalkEntry where
  tid : Nat
  va : Nat
  size : Nat
  table : Nat
  deriving DecidableEq, Repr

/-- A cluster's operating point registers (07 R208 to R210). `step` is the point the adjacent step goes to and `due` the
cluster tick it settles at; `byMgmt` says whose transition is in progress; `mgmt` is a management target that waits;
`back` is the point a die held at OP0 returns to. -/
structure Oper where
  cur : Nat
  tgt : Nat
  settling : Bool
  byMgmt : Bool
  queued : Option Nat
  mgmt : Option Nat
  step : Nat
  due : Nat
  back : Option Nat
  deriving DecidableEq, Repr

/-- The slew limiter (07 R205 to R207): weight issued so far in the step, weight of the step before. -/
structure Slew where
  p : Nat
  prev : Nat
  deriving DecidableEq, Repr

/-- A cluster. `denied` names the requesters that lost a bank's arbitration and are to try again (02 R53): number and bank;
`ceilNew` is a CEIL write that applies from the next tick (07 R204); `budgetCeil` is the power ceiling of the last budget update
(21 R458) and `theta` the thermal one (21 R460). -/
structure ClusterState where
  atcap : Word
  oper : Oper
  ceil : Word
  ceilNew : Option Word
  fillc : Word
  ramp : NatMap Word
  slew : Slew
  tick : Nat
  tlb : List TlbEntry
  denied : List (Nat × Nat)
  lastTid : Option Nat
  withdrawn : Bool
  reserved : Bool
  gated : Bool
  hr : Int
  budgetCeil : Nat
  theta : Nat
  deriving DecidableEq, Repr

/-! ### Versioned memory -/

/-- A committed version record (03 R82); poison is one bit for each granule (02 R77). -/
structure VRec where
  stamp : Nat
  data : BitVec 1024
  poison : BitVec 16
  deriving DecidableEq, Repr

/-- A tentative version, or a delta with its type, operation and touched 2-byte units (03 R82, R102); `sys` says whether a page
with SYSATOM is among those it was made through (05 R166). -/
inductive TRec where
  | tentative (data : BitVec 1024) (poison : BitVec 16)
  | delta (ety op : Nat) (vals : BitVec 1024) (touched : BitVec 64) (sys : Bool)
  deriving DecidableEq, Repr

/-- The directory entry of a line (03 R81): stamp of the in-place version, chain newest first, records of transactions by
TXID, lock owner, and transactions registered for the merge (R104). -/
structure LineEntry where
  stamp : Nat
  chain : List VRec
  recs : NatMap TRec
  lock : Option Nat
  merge : List Nat
  deriving DecidableEq, Repr

/-- States of a snapshot entry (03 R87). -/
inductive SnapSt where
  | free
  | live
  | draining
  deriving DecidableEq, Repr

/-- A snapshot table entry (03 R87). -/
structure Snap where
  st : SnapSt
  gen : Nat
  stamp : Nat
  tid : Nat
  binds : Nat
  deriving DecidableEq, Repr

/-- Where a registered transaction stands (03 R104, R111): active; commit asked for, with the hubs that voted YES and those
waiting on a lock; stamped, with the hubs that have published. -/
inductive TxSt where
  | active
  | committing (land : Nat) (yes waits : List Nat)
  | stamped (land : Nat) (stamp : Nat) (published : List Nat)
  deriving DecidableEq, Repr

/-- A transaction (03 R100, R103). A transaction that found the table full is kept under a number from 16,386 up and is
not registered. -/
structure Tx where
  cid : Nat
  tid : Nat
  stamp : Nat
  doom : Option Nat
  st : TxSt
  deriving DecidableEq, Repr

/-! ### Firmware, host and package -/

/-- A tenant's registers (01 R471, R472, 03 R88, 18 R417), and whether the hypervisor has its function saved (16 R407). The
communicator table's key is entry × 8192 + rank, and entry × 8192 + 4096 for the header. -/
structure Tenant where
  troot : Word
  en : Bool
  terr : Bool
  snq : Nat
  cmsel : Word
  comm : NatMap Word
  tinva : Word
  tinvBusy : Bool
  tinvErr : Bool
  tinvKind : Nat
  tinvTid : Nat
  peert : NatMap (BitVec 16)
  fqbase : Word
  fqlog : Word
  fqtail : Nat
  fqhead : Word
  lost : Bool
  badsrv : Bool
  vsaved : Bool
  deriving DecidableEq, Repr

/-- A fault-queue record (18 R418): its eight words. -/
structure FqRec where
  tid : Nat
  words : List Word
  deriving DecidableEq, Repr

/-- A firmware command record that has been read (16 R391), whether it has started, and what it has done so far:
`prog` counts bytes, tests or records by command; `phase` is 1 while writes of its processor that it waits for are on their way,
2 while its completion word is, 3 while a job's CURSOR is; `launch` is the launch it became. -/
structure Command where
  words : List Word
  started : Bool
  done : Bool
  fail : Nat
  prog : Nat
  phase : Nat
  launch : Option Nat
  deriving DecidableEq, Repr

/-- A work queue (16 R388, R390): registers, and the commands read and not completed, oldest first; `refused` is set when a
write of its processor that had been sent was refused, `outStamp` the last stamp such a write took. -/
structure WQueue where
  qbase : Word
  qtail : Word
  head : Nat
  tid : Nat
  logsz : Nat
  pri : Nat
  en : Bool
  fseq : Nat
  fcode : Nat
  xlt : Bool
  ovf : Bool
  cmds : List Command
  poll : Bool
  waited : Nat
  refused : Bool
  outStamp : Nat
  deriving DecidableEq, Repr

/-- Where a launch stands (16 R400, R407). -/
inductive LaunchSt where
  | running
  | saved (swap : Bool)
  deriving DecidableEq, Repr

/-- A launch (16 R394 to R400): its queue, sequence value and record words, tenant, priority, map from virtual to
physical clusters, state, whether its contexts are stopped to be saved (18 R413) and that by a CTXSWAP, saved context images by (virtual cluster × 32 + core × 4 + context), saved array images by
(virtual cluster × 8 + core), arrivals that were queued for its contexts, and failure so far. `words` holds the record's 16 words and then its entry
table (16 R395), or for an update job the 16 words of its JCB. -/
structure Launch where
  queue : Nat
  seqv : Word
  words : List Word
  tid : Nat
  pri : Nat
  map : List Nat
  st : LaunchSt
  halt : Option Bool
  order : Nat
  images : NatMap Context
  arrays : NatMap ArrayState
  arrivals : List Arrival
  fail : Nat
  deriving DecidableEq, Repr

/-- An MCA bank (18 R425): FIRST and WORST as class, location and origin words, ECNT and ECFG. -/
structure Mca where
  fcls : Word
  floc : Word
  forg : Word
  wcls : Word
  wloc : Word
  worg : Word
  ecnt : Word
  ecfg : Word
  deriving DecidableEq, Repr

/-- What tells one event from another of its kind; each event's meaning says which of these it reads. -/
structure EvArgs where
  a : Nat
  b : Nat
  c : Nat
  w : Word
  x : Word
  hdr : BitVec 128
  data : BitVec 1920
  mask : BitVec 128
  flag : Bool
  temp : Int
  deriving DecidableEq, Repr

/-- What an auto-commit does to its line (03 R97): its bytes written; elements of `z` bytes updated by operation and element
type, by address and operand; or one element swapped, where `cmp` says on that value only. -/
inductive AutoOp where
  | write (ws : List Granule)
  | update (ety op z : Nat) (els : List (Nat × Nat))
  | swap (pa z v : Nat) (cmp : Option Nat)
  deriving DecidableEq, Repr

/-- Whose write an auto-commit is: a context's store-queue entry; a copy command's bytes from an offset on, with those of the
line still to come; a peer's request; or the command processor's for a work queue. -/
inductive AutoFor where
  | store (cid id : Nat)
  | copy (ident off left : Nat)
  | peer (x : EvArgs)
  | queue (q : Nat)
  deriving DecidableEq, Repr

/-- A write outside a transaction held ready at its hub for the next auto-commit group (03 R84, R97): its line, what it does,
whose it is, for which tenant, whether the cellar cache may allocate, and whether its page has SYSATOM (05 R166). -/
structure AutoWrite where
  line : Nat
  op : AutoOp
  src : AutoFor
  tid : Nat
  alloc : Bool
  sys : Bool
  deriving DecidableEq, Repr

/-- A message the device has sent. `req` of a flit is the operation, and the element type with 4 more for a versioned page and 8 more for one with SYSATOM,
of a request. `cxlTake` takes a line of host memory exclusive through CXL.cache, `cxlWatch` has its writes reported (21 R446);
`spdmError` says whether its code is UnsupportedRequest. -/
inductive Message where
  | msix (fn vector : Nat)
  | flit (port : Nat) (hdr : BitVec 128) (pa : Nat) (req : Nat × Nat) (data : List Granule)
  | cxlError
  | cxlRequest (fn pa : Nat) (write : Bool)
  | cxlSnoop (pa : Nat)
  | cxlTake (pa : Nat)
  | cxlWatch (pa : Nat)
  | hostRead (data : BitVec 512) (poison : Bool)
  | configRetry (fn : Nat)
  | configOk (fn : Nat)
  | nak (port seq : Nat)
  | measurement (index : Nat) (digest : BitVec 256)
  | spdm (request : String)
  | spdmError (unsupported : Bool)
  | offer (port amount hops : Nat)
  | take (port amount : Nat)
  | grant (port amount unmet : Nat)
  | dump (pa : Nat) (bytes : List Byte)
  | readback (val : Word)
  deriving DecidableEq, Repr

/-- A Skelholt port (21 R450 to R454): up, next sequence numbers sent and expected, flits received and not yet served in
their order (held in the receive buffers of their lanes), the mask its buffers give and the one it sent last, the mask it obeys,
flits sent and not acknowledged (header, address, request, payload), the SEQ the last NAK named and the
replays from it, the largest offer heard (R457), and what VL 0 has still to send while it is stopped: KIND, tag, LEN, tenant
and message. -/
structure Port where
  up : Bool
  txSeq : BitVec 12
  rxSeq : BitVec 12
  held : List EvArgs
  full : BitVec 8
  mask : BitVec 8
  xoff : BitVec 8
  sent : List (BitVec 128 × Nat × (Nat × Nat) × List Granule)
  nak : Nat
  replays : Nat
  offer : Nat
  hops : Nat
  vl0 : List (Nat × Nat × Nat × Nat × Option Message)
  deriving DecidableEq, Repr

/-- Who waits for a peer's response: a granule of a load-queue entry, a store-queue entry, a copy
command's source bytes, its destination bytes. -/
inductive PeerFor where
  | load (cid id granule : Nat)
  | store (cid id : Nat)
  | copy (ident : Nat) (off len : Nat)
  | ack (ident : Nat) (off len : Nat)
  deriving DecidableEq, Repr

/-- A request sent to a peer and not yet answered (21 R455): its tag, the port it left by, who waits for it. -/
structure PeerReq where
  tag : Nat
  port : Nat
  who : PeerFor
  deriving DecidableEq, Repr

/-- A collective at the package's engines (10 R309, R310): the command it serves, its tenant, its descriptor, the member
count, this device's rank, the device of the next rank, the elements of DST that are written, how many of its own elements
it has dealt with, and how many flits. `told` is set once its descriptor has gone to the next rank, `met` counts the other
members' descriptors compared with it; `bad` keeps one that failed or is over listed, so that its flits are known and a second
command of its COMM and SEQ fails. -/
structure Coll where
  ident : Nat
  tid : Nat
  met : Nat
  told : Bool
  bad : Bool
  w0 : Word
  count : Nat
  src : Nat
  dst : Nat
  key : Word
  members : Nat
  rank : Nat
  next : Nat
  done : NatMap Bool
  sent : Nat
  got : Nat
  deriving DecidableEq, Repr

/-- Security states (21 R466). -/
inductive Security where
  | open_
  | provisioned
  | sealed
  | failed
  deriving DecidableEq, Repr

/-- Debug levels (21 R467). -/
inductive DebugLevel where
  | none
  | nonInvasive
  | invasive
  deriving DecidableEq, Repr

/-- Power states (21 R468). -/
inductive Power where
  | on
  | gated
  | idle
  | off
  deriving DecidableEq, Repr

/-- The management side of the package (21 R456 to R469). `regsUp` says that the register space is up, `takes` holds the takes of
a tick that is not over (port, tag, watts), `flow` and `coolant` what the nine coolant sensors read (the inlet's number 8),
`repair` the attic repair map, `nonce` the number of the nonce in force. -/
structure Mgmt where
  floor : Nat
  dem : Nat
  budget : Nat
  lrsz : Nat
  sterr : Bool
  stkind : Nat
  lstep : Nat
  fails : Nat
  starts : Nat
  recov : Bool
  fallbk : Bool
  warm : Bool
  ready : Bool
  starting : Bool
  goWarm : Bool
  security : Security
  fused : Security
  debug : DebugLevel
  power : Power
  valve : NatMap Nat
  pump : Nat
  temp : NatMap Int
  silent : NatMap Bool
  tripped : NatMap Bool
  debugLog : List Nat
  spdm : Nat
  ideOpen : Bool
  regsUp : Bool
  takes : List (Nat × Nat × Nat)
  flow : NatMap Nat
  coolant : NatMap Int
  repair : Word
  nonce : Nat
  deriving DecidableEq, Repr

/-- Where a stored bit is wrong (02 R75, R76): a granule of memory as its bank or its cellar channel stores it (in the cellar
the whole 64 B block); a granule of a cellar line as the cellar cache holds it; a scalar register, a predicate, a field of an iterator or
a mask of a context; a granule (two lanes) of a vector register of one group; a granule of a landing-buffer entry's data, by its address; granule `k` of
the data of entry `n` of the capture buffer;
an array's plane, knot or table bytes by the keys of `ArrayState.poison`, or its accumulators (`acc` with RACC as bank 16); or the
datapath register that holds a context's next result (18 R427). -/
inductive Site where
  | mem (pa : Nat)
  | line (pa : Nat)
  | sreg (cid n : Nat)
  | kreg (cid n : Nat)
  | iter (cid j f : Nat)
  | mreg (cid g n : Nat)
  | vreg (cid g r k : Nat)
  | landing (cid id addr : Nat)
  | capture (cid n k : Nat)
  | plane (core key : Nat)
  | acc (core key : Nat)
  | datapath (cid : Nat)
  deriving DecidableEq, Repr

/-- An error waiting to be found (02 R76, R77): where it is and whether it cannot be corrected. Plain data for what physics
does to the package. -/
structure Upset where
  site : Site
  unc : Bool
  deriving DecidableEq, Repr

/-- A residue error of the focused array at its next step (13 R354): its column, in the low 6 bits; for a cell's own multiplier
also its row in the 6 bits above and its index above those. -/
structure Residue where
  column : Nat
  agrees : Bool
  deriving DecidableEq, Repr

/-- A store that has performed at a scope below its home's (01 R30, 05 R150, R160): the context number it left from, the
last ordering point it has reached (1 its core's port, 2 its cluster's arbiter, 3 its die's crossbar), its context, its
tenant, its granules, and whether the cellar cache may allocate (02 R66). -/
structure Flight where
  from_ : Nat
  upto : Nat
  cid : Nat
  tid : Nat
  ws : List Granule
  alloc : Bool
  deriving DecidableEq, Repr

/-- A device RMW on a page without SYSATOM that has read and not yet written (05 R166): the granule it writes, for which
tenant and which agent (its kind and number, as a watchpoint record has them), and whether the cellar cache may allocate. -/
structure OpenRmw where
  tid : Nat
  kind : Nat
  agent : Nat
  w : Granule
  alloc : Bool
  deriving DecidableEq, Repr

/-! ### The schedule -/

/-- One act of some agent: an event row; the next bundle of the focused context; one load of it performing, whole or one
granule; part of a copy, or only its reads; the next bundle's first words fetched ahead; granules of the own window read ahead
by an array stream of the next bundle; a change of focus; or the number that the fabric manager gives the device (21 R450). -/
inductive Act where
  | event (i : Instr) (x : EvArgs)
  | issue
  | performLoad (id : Nat) (granule : Option Nat)
  | copyPart (k off len : Nat)
  | copyFetch (k off len : Nat)
  | prefetch (n : Nat)
  | stream (a n : Nat)
  | focus (cid : Nat)
  | nameDevice (n : Nat)
  deriving DecidableEq, Repr

/-- What is known while one bundle's words take effect (08 R218, 09 R261): whether one is being issued, the bundle's
address, the sequential successor, where the program goes if a branch is taken, the cause, detail and address of a trap
that has been taken before it, the iteration of the word at hand
in a loop tick, whether it runs as a held repeat, whether a word of the bundle draws (04 R142), the words to run with
their iterations and held marks, what the word at hand measures where that is not its weight, the bundle's actual weight,
what the bundle has measured so far, in 1/64 wu (07 R200, R203), and the core watchpoint its fetch matches (18 R421). -/
structure Issue where
  live : Bool
  addr : Nat
  next : Nat
  target : Option Nat
  trap : Option (BitVec 8 × BitVec 16 × Nat)
  iter : Option Nat
  held : Bool
  drew : Bool
  todo : List (Slot × Option Nat × Bool)
  meas : Option Nat
  weight : Nat
  energy : Nat
  watch : Option Nat
  deriving DecidableEq, Repr

/-! ### The package -/

/-- The state of the package. `route` is keyed by hub × 4096 + destination device; `relays` names for each TAKE passed on
the tag and port it went by, those it came by (tag × 64 + port), and the power not yet answered for (21 R457); `discard` holds port × 256 + TID (18 R430). `ctx`, `core` and `clu` are the context with number `cur`, its core and its cluster; the
others stand in the tables. `cached` is keyed by hub × 32,768 + set: a set's lines (line number and dirty bit), newest first
(02 R64); `walkCache` by hub; `recalled` holds the lines that a device RMW has taken from the host (05 R166); `watchQ` the
memory-side watchpoint records still to be posted (18 R422). `dirRoom` is how many directory entries a hub can hold (03 R115, log 31). A context's number is 32 × physical cluster + 4 × core + context. -/
structure State where
  agenda : List Act
  arg : EvArgs
  env : Env
  issue : Issue
  draws : Nat
  stepping : Bool
  halted : Bool
  cur : Nat
  ctx : Context
  core : CoreState
  clu : ClusterState
  ctxs : NatMap Context
  cores : NatMap CoreState
  clus : NatMap ClusterState
  mem : List Host.Cell
  memPoison : NatMap Bool
  upsets : List Upset
  residues : List Residue
  cached : NatMap (List (Nat × Bool))
  walkCache : NatMap (List WalkEntry)
  openRmws : List OpenRmw
  recalled : NatMap Bool
  flights : List Flight
  cclk : Nat
  pclk : Nat
  unpublished : List Nat
  turn : Bool
  dir : NatMap LineEntry
  autoQ : List AutoWrite
  snaps : NatMap Snap
  txs : NatMap Tx
  colfreed : NatMap Word
  colst : NatMap Word
  lrsz : Nat
  dirRoom : Nat
  tenants : NatMap Tenant
  fqOver : List FqRec
  watchQ : List FqRec
  queues : NatMap WQueue
  launches : NatMap Launch
  nextLid : Nat
  nextOrder : Nat
  copies : List CopyCmd
  colls : List Coll
  mca : NatMap Mca
  hwpa : NatMap Word
  hwpc : NatMap Word
  device : Nat
  route : NatMap (BitVec 16)
  ports : NatMap Port
  peerReqs : List PeerReq
  discard : List Nat
  relays : List (Nat × Nat × Nat)
  mgmt : Mgmt
  outbox : List Message
  deriving DecidableEq, Repr

/-! ### Reset -/

/-- An iterator at reset: every field 0 (02 R48, log 8). -/
def Iter.reset : Iter := ⟨0, 0, 0, 0, 0, false⟩

/-- The registers at reset (02 R48, log 8). -/
def Regs.reset : Regs := ⟨[], [], [], [], [], [], [], []⟩

/-- FMT at reset: AFMT = BFMT = OFMT = 1 (07 R211). -/
def fmtReset : Word := 0x111

/-- WPC at reset: LEN = 3 (18 R420). -/
def wpcReset : Word := 0x0C000000

/-- The control registers at reset (09 R266 and the rules it names). -/
def CRegs.reset : CRegs :=
  { vcc := 0, fmt := fmtReset, bal := 1023, wal := 8191, flg := 0, snap := 0, txs := 0, vwb := 0, rkey := 0, rctr := 0,
    tcause := 0, tbund := 0, tnext := 0, tvec := 0, gid := 0, gsk := 0, ecnt := 0, htc := 0, lid := 0, wpa := [],
    wpc := [] }

/-- Empty queues and buffers (07 R184). -/
def Queues.reset : Queues :=
  { results := [], capture := [], lq := [], sq := [], csq := [], landing := [], copyq := [], nextId := 0, issued := 0,
    sysc := [], aouts := [] }

/-- A context that no launch has started (log 8). -/
def Context.reset : Context :=
  { st := .retired, pc := 0, checked := false, regs := .reset, c := .reset, q := .reset, settings := [], window := [],
    holds := [], seq := none, saved := none, freezes := [], pend := [], txid := none, cfail := false, readyAt := 0,
    place := (0, 0, 0), icm := none, icms := [], noWatch := false, dbgStep := false, stop := false, members := 0,
    written := [], fetched := [], streamed := [] }

/-- A cleared plane descriptor: KIND NONE, scale bytes 0x7F, X bytes 0, empty bitmap (02 R48). -/
def PlaneDesc.reset : PlaneDesc := ⟨.none, [], [], 0, 511, 63⟩

/-- The array at reset (02 R48, 13 R348). LA and LB default to 0x7F, XA to 0. -/
def ArrayState.reset : ArrayState :=
  { cp := [], gp := [], sp := [], live := .reset, shadow := .reset, klo := [], kih := [], spline := false, basef := 0,
    clamp := 0, g := 1, acc := [], racc := [], accPoison := [], raccPoison := [], oog := [], poison := [], la := [], xa := [],
    lb := [], sckey := 0, apc := 0, latches := [], pass := none, owner := none }

/-- A core at reset. -/
def CoreState.reset : CoreState := ⟨.reset, [], [], 0, false⟩

/-- A cluster at reset (07 R204 to R209, 01 R19 with all 16 MiB present, log 7). RAMPn defaults to R208's value. -/
def ClusterState.reset : ClusterState :=
  { atcap := 0x100F, oper := ⟨5, 5, false, false, none, none, 5, 0, none⟩, ceil := 8191, ceilNew := none, fillc := 0, ramp := [],
    slew := ⟨0, 0⟩, tick := 0, tlb := [], denied := [], lastTid := none, withdrawn := false, reserved := false, gated := false,
    hr := 0, budgetCeil := 8191, theta := 8191 }

/-- A snapshot entry that was never allocated. -/
def Snap.reset : Snap := ⟨.free, 0, 0, 0, 0⟩

/-- A tenant's registers at reset: SNQ 16 (03 R88), the rest 0. -/
def Tenant.reset : Tenant :=
  { troot := 0, en := false, terr := false, snq := 16, cmsel := 0, comm := [], tinva := 0, tinvBusy := false,
    tinvErr := false, tinvKind := 0, tinvTid := 0, peert := [], fqbase := 0, fqlog := 0, fqtail := 0, fqhead := 0,
    lost := false, badsrv := false, vsaved := false }

/-- A work queue at reset: LOGSZ 4, disabled (16 R388). -/
def WQueue.reset : WQueue :=
  { qbase := 0, qtail := 0, head := 0, tid := 0, logsz := 4, pri := 0, en := false, fseq := 0, fcode := 0, xlt := false,
    ovf := false, cmds := [], poll := false, waited := 0, refused := false, outStamp := 0 }

/-- An MCA bank at reset: empty, ECFG.RECC = 1 (18 R425). -/
def Mca.reset : Mca := ⟨0, 0, 0, 0, 0, 0, 0, 1⟩

/-- A Skelholt port at reset: trained and up (21 R454, R462 step 3, log 5). -/
def Port.reset : Port := ⟨true, 0, 0, [], 0, 0, 0, [], 0, 0, 0, 0, []⟩

/-- The management side after a first cold start (21 R456 to R469, logs 5, 6, 9). -/
def Mgmt.reset : Mgmt :=
  { floor := 1600, dem := 0, budget := 3200, lrsz := 6, sterr := false, stkind := 0, lstep := 0, fails := 0, starts := 1,
    recov := false, fallbk := false, warm := false, ready := true, starting := false, goWarm := false, security := .open_,
    fused := .open_, debug := .none, power := .on, valve := [], pump := 0, temp := [], silent := [], tripped := [],
    debugLog := [], spdm := 0, ideOpen := false, regsUp := true, takes := [], flow := [], coolant := [], repair := 0, nonce := 0 }

/-- Arguments of no event. -/
def EvArgs.reset : EvArgs := ⟨0, 0, 0, 0, 0, 0, 0, 0, false, 0⟩

/-- The envelope of no word. -/
def envReset : Env := ⟨0, 0, false, Pfx.empty⟩

/-- No bundle is being issued. -/
def Issue.reset : Issue := ⟨false, 0, 0, none, none, none, false, false, [], none, 0, 0, none⟩

/-- The package right after the cold start that follows power-on: READY, every line of the cellar settled, no tenant and
no queue enabled, no launch (21 R462, 03 R83, 16 R388). -/
def State.reset : State :=
  { agenda := [], arg := .reset, env := envReset, issue := .reset, draws := 0, stepping := true, halted := false,
    cur := 0, ctx := .reset, core := .reset, clu := .reset, ctxs := [], cores := [], clus := [], mem := [],
    memPoison := [], upsets := [], residues := [], cached := [], walkCache := [], openRmws := [], recalled := [], flights := [], cclk := 0, pclk := 0, unpublished := [],
    turn := false, dir := [], autoQ := [], snaps := [], txs := [], colfreed := [], colst := [], lrsz := 6, dirRoom := 0x4000000, tenants := [],
    fqOver := [], watchQ := [], queues := [], launches := [], nextLid := 0, nextOrder := 0, copies := [], colls := [], mca := [],
    hwpa := [], hwpc := [], device := 0, route := [], ports := [], peerReqs := [], discard := [], relays := [], mgmt := .reset,
    outbox := [] }

end Sys2Proof.Machine
end

