-- ==== Sys2Proof/Machine/Ops.lean ====
section
/-! DEFINITION. The named operations the meanings share: sparse tables, numbering, memory, translation, error records,
fault-queue records, taking a trap and returning from one. -/

namespace Sys2Proof.Machine

/-! ### Sparse tables -/

/-- The entry for a key. -/
def NatMap.find? {α : Type} : NatMap α → Nat → Option α
  | [], _ => none
  | (k, v) :: t, q => if q = k then some v else NatMap.find? t q

/-- The value for a key, `d` where none is listed. -/
def NatMap.get {α : Type} (d : α) (m : NatMap α) (k : Nat) : α := (NatMap.find? m k).getD d

/-- The table without a key. -/
def NatMap.del {α : Type} (m : NatMap α) (k : Nat) : NatMap α := m.filter fun e => e.1 != k

/-- A pair put in its place by key, the key not being listed. -/
def NatMap.ins {α : Type} (k : Nat) (v : α) : NatMap α → NatMap α
  | [] => [(k, v)]
  | (j, u) :: t => if k < j then (k, v) :: (j, u) :: t else (j, u) :: NatMap.ins k v t

/-- The table with a key at a value, listed whatever the value. -/
def NatMap.put {α : Type} (m : NatMap α) (k : Nat) (v : α) : NatMap α := NatMap.ins k v (NatMap.del m k)

/-- The table with a key at a value, not listed where the value is the default. -/
def NatMap.set {α : Type} [DecidableEq α] (d : α) (m : NatMap α) (k : Nat) (v : α) : NatMap α :=
  if v = d then NatMap.del m k else NatMap.put m k v

/-! ### Bits and bytes -/

/-- Bits `lo + n - 1` to `lo` as a number. -/
def bits {w : Nat} (v : BitVec w) (lo n : Nat) : Nat := (v.toNat >>> lo) % 2 ^ n

/-- A number's bits `lo + n - 1` to `lo`. -/
def nbits (v lo n : Nat) : Nat := (v >>> lo) % 2 ^ n

/-- A 64-bit word from a number. -/
def wd (n : Nat) : Word := BitVec.ofNat 64 n

/-- Byte `i` of a value, byte 0 the least significant (02 R43, 04 R118: little-endian). -/
def byteOf {w : Nat} (v : BitVec w) (i : Nat) : Byte := v.extractLsb' (8 * i) 8

/-- Bytes put together, the first the least significant. -/
def ofBytes (w : Nat) : List Byte → BitVec w
  | [] => 0
  | b :: t => (ofBytes w t <<< 8) ||| b.setWidth w

/-- Bits `lo + n - 1` to `lo` of `w` replaced by the low bits of `v`. -/
def setBits (w : Word) (lo n : Nat) (v : Nat) : Word :=
  (w &&& ~~~ (wd (2 ^ n - 1) <<< lo)) ||| (wd (v % 2 ^ n) <<< lo)

/-- The sign-extended value of the low `n` bits. -/
def sext (n : Nat) (v : Nat) : Int := if v % 2 ^ n < 2 ^ (n - 1) then (v % 2 ^ n : Int) else (v % 2 ^ n : Int) - 2 ^ n

/-! ### Contexts, cores, clusters -/

/-- The context in physical cluster `p`, core `c`, with number `x` in its core. -/
def ctxId (p c x : Nat) : Nat := 32 * p + 4 * c + x

/-- The focused context's physical cluster. -/
def State.clusterId (s : State) : Nat := s.cur / 32

/-- The focused context's core, counted over the package. -/
def State.coreId (s : State) : Nat := s.cur / 4

/-- The number of a saved context: its launch and its place in it (log 15). -/
def savedId (lid vc core x : Nat) : Nat := 4096 + 4096 * lid + ctxId vc core x

/-- A context by number, running or saved. -/
def State.getCtx (s : State) (id : Nat) : Context :=
  if id = s.cur then s.ctx
  else if 4096 ≤ id then
    match NatMap.find? s.launches ((id - 4096) / 4096) with
    | some l => NatMap.get .reset l.images (id % 4096)
    | none => .reset
  else NatMap.get .reset s.ctxs id

/-- A context put in its place. -/
def State.setCtx (s : State) (id : Nat) (c : Context) : State :=
  if id = s.cur then { s with ctx := c }
  else if 4096 ≤ id then
    match NatMap.find? s.launches ((id - 4096) / 4096) with
    | some l =>
      let l' := { l with images := NatMap.put l.images (id % 4096) c }
      { s with launches := NatMap.put s.launches ((id - 4096) / 4096) l' }
    | none => s
  else { s with ctxs := NatMap.set .reset s.ctxs id c }

/-- A core by number. -/
def State.getCore (s : State) (id : Nat) : CoreState := if id = s.coreId then s.core else NatMap.get .reset s.cores id

/-- A core put in its place. -/
def State.setCore (s : State) (id : Nat) (c : CoreState) : State :=
  if id = s.coreId then { s with core := c } else { s with cores := NatMap.set .reset s.cores id c }

/-- A cluster by number. -/
def State.getClu (s : State) (id : Nat) : ClusterState :=
  if id = s.clusterId then s.clu else NatMap.get .reset s.clus id

/-- A cluster put in its place. -/
def State.setClu (s : State) (id : Nat) (c : ClusterState) : State :=
  if id = s.clusterId then { s with clu := c } else { s with clus := NatMap.set .reset s.clus id c }

/-- The focus moved to another context: the old one, its core and its cluster go back to the tables. -/
def State.focus (s : State) (id : Nat) : State :=
  if id = s.cur then s else
    let c := s.getCtx id
    let k := s.getCore (id / 4)
    let u := s.getClu (id / 32)
    { s with
      cur := id, ctx := c, core := k, clu := u
      ctxs := NatMap.del (NatMap.set .reset s.ctxs s.cur s.ctx) id
      cores := NatMap.del (NatMap.set .reset s.cores s.coreId s.core) (id / 4)
      clus := NatMap.del (NatMap.set .reset s.clus s.clusterId s.clu) (id / 32) }

/-- A change to the control registers of the focused context. -/
def State.modC (s : State) (f : CRegs → CRegs) : State := { s with ctx := { s.ctx with c := f s.ctx.c } }

/-- A change to the queues of the focused context. -/
def State.modQ (s : State) (f : Queues → Queues) : State := { s with ctx := { s.ctx with q := f s.ctx.q } }

/-- A change to the registers of the focused context. -/
def State.modR (s : State) (f : Regs → Regs) : State := { s with ctx := { s.ctx with regs := f s.ctx.regs } }

/-- A change to the array of the focused core. -/
def State.modA (s : State) (f : ArrayState → ArrayState) : State :=
  { s with core := { s.core with array := f s.core.array } }

/-- A change to a context by number. -/
def State.modCtx (s : State) (id : Nat) (f : Context → Context) : State := s.setCtx id (f (s.getCtx id))

/-- A message sent. -/
def State.send (s : State) (m : Message) : State := { s with outbox := s.outbox ++ [m] }

/-- The focused context is in its trap handler (09 R260). -/
def State.inh (s : State) : Bool := s.ctx.c.tcause.getLsbD 31

/-- The launch of a context, if it has one (16 R397). -/
def State.launchOf (s : State) (c : Context) : Option Launch := NatMap.find? s.launches (bits c.c.lid 0 16)

/-- The tenant of a context: its launch's (01 R21). -/
def State.tidOf (s : State) (c : Context) : Nat := match s.launchOf c with | some l => l.tid | none => 0

/-- A fresh free value: the next of the uninterpreted sequence `Config.freeWord` (log 2). -/
def State.draw (s : State) : State × Word := ({ s with draws := s.draws + 1 }, Config.freeWord s.draws)

/-! ### Memory -/

/-- 2^48: the size of a space (01 R8). -/
def spaceSize : Nat := 0x1000000000000

/-- The base of the lumber room in the cellar (01 R10, 03 R115). -/
def State.lumberBase (s : State) : Nat := Config.cellarBytes - s.lrsz * 0x800000000

/-- A device physical address inside a space that holds memory (01 R8). -/
def paOk (pa : Nat) : Bool :=
  let off := pa % spaceSize
  match pa / spaceSize with
  | 0 => decide (off < Config.cellarBytes)
  | 1 => decide (off < Config.larderBytes)
  | 2 => decide (off < 0x80000000)
  | 4 => true
  | _ => false

/-- The device physical address of a LIN window address of a cluster (01 R12). -/
def localPa (p a : Nat) : Nat := 2 * spaceSize + p * 0x1000000 + a

/-- The LIN address of the byte that a SWZ window address names (02 R50, R51). -/
def swizzle (a : Nat) : Nat := a ^^^ (nbits a 12 4 <<< 6)

/-- The window address in LIN terms, by view. -/
def viewAddr (swz : Bool) (a : Nat) : Nat := if swz then swizzle a else a

/-- The owning hub of a cellar or larder address (01 R9, R11); hub 0 for the rest. -/
def hubOf (pa : Nat) : Nat :=
  match pa / spaceSize with
  | 0 => nbits pa 12 2
  | 1 => nbits pa 16 2
  | _ => 0

/-- The channel of a cellar address within its hub, and its global number (01 R9). -/
def channelOf (pa : Nat) : Nat := nbits pa 14 6 ^^^ nbits pa 20 6

/-- See `channelOf`. -/
def globalChannel (pa : Nat) : Nat := 64 * hubOf pa + channelOf pa

/-- The bank of a larder offset, 0 to 1,023, and the byte within it (01 R11). -/
def larderBank (off : Nat) : Nat := nbits off 8 10

/-- See `larderBank`. -/
def larderByte (off : Nat) : Nat := nbits off 18 10 * 256 + nbits off 0 8

/-- The bank of a LIN window address, 0 to 63, and the line and byte in it (02 R50). -/
def padBank (a : Nat) : Nat := 16 * nbits a 22 2 + nbits a 6 4

/-- See `padBank`. -/
def padLine (a : Nat) : Nat × Nat := (nbits a 10 12, nbits a 0 6)

/-- One byte of memory; a byte nothing has written reads 0 (log 4). -/
def State.byte (s : State) (pa : Nat) : Byte := NatMap.get 0 s.mem pa

/-- One byte written. -/
def State.setByte (s : State) (pa : Nat) (b : Byte) : State := { s with mem := NatMap.set 0 s.mem pa b }

/-- `n` bytes from an address up. -/
def State.bytes (s : State) (pa n : Nat) : List Byte := (List.range n).map fun i => s.byte (pa + i)

/-- Bytes written from an address up. -/
def State.setBytes (s : State) (pa : Nat) (l : List Byte) : State :=
  { s with mem := ((List.range l.length).zip l).foldl (fun m x => NatMap.set 0 m (pa + x.1) x.2) s.mem }

/-- The aligned granule that holds a byte address, as it is stored. -/
def State.word64 (s : State) (pa : Nat) : Word := ofBytes 64 (s.bytes (pa / 8 * 8) 8)

/-- A granule as a reader sees it: nothing where it is poisoned (02 R77). -/
def State.granule (s : State) (pa : Nat) : Option Word :=
  if NatMap.get false s.memPoison (pa / 8) then none else some (s.word64 pa)

/-- A granule write at its home (05 R149): the masked bytes in one access. A whole granule clears poison; a partial write
leaves a poisoned granule poisoned; a write of poison poisons it (02 R77, log 14). -/
def State.writeG (s : State) (g : Granule) : State :=
  match g.data with
  | none => { s with memPoison := NatMap.set false s.memPoison (g.addr / 8) true }
  | some d =>
    let m := (List.range 8).foldl
      (fun m i => if g.mask.getLsbD i then NatMap.set 0 m (g.addr + i) (byteOf d i) else m) s.mem
    { s with
      mem := m
      memPoison := if g.mask == 0xFF then NatMap.set false s.memPoison (g.addr / 8) false else s.memPoison }

/-- The granules of `n` bytes from an address up, with their values little-endian; `poison` writes poison. -/
def granules (addr : Nat) (l : List Byte) (poison : Bool) : List Granule :=
  let n := l.length
  (List.range ((addr % 8 + n + 7) / 8)).map fun i =>
    let base := addr / 8 * 8 + 8 * i
    let idx := (List.range 8).map fun j => (base + j, j)
    let inside (x : Nat) : Bool := decide (addr ≤ x) && decide (x < addr + n)
    let mask : BitVec 8 := idx.foldl (fun m x => if inside x.1 then m ||| (1#8 <<< x.2) else m) 0
    let data := ofBytes 64 (idx.map fun x => if inside x.1 then l.getD (x.1 - addr) 0 else 0)
    ⟨base, mask, if poison then none else some data⟩

/-- The bytes of a value, least significant first. -/
def valBytes {w : Nat} (v : BitVec w) (n : Nat) : List Byte := (List.range n).map (byteOf v)

/-- The byte at an address out of granules that were read; nothing where its granule is poison or missing. -/
def gotByte (got : List (Nat × Option (BitVec 64))) (a : Nat) : Option Byte :=
  match got.find? fun g => g.1 == a / 8 * 8 with
  | some (_, some d) => some (byteOf d (a % 8))
  | _ => none

/-- `n` bytes out of granules that were read, and whether any of them is poison. -/
def gotBytes (got : List (Nat × Option (BitVec 64))) (a n : Nat) : List Byte × Bool :=
  let l := (List.range n).map fun i => gotByte got (a + i)
  (l.map fun b => b.getD 0, l.any Option.isNone)

/-! ### Machine-check records -/

/-- A bank's record state after an error (18 R426): SEQ, CORR, then FIRST, WORST or MISS. `sev` is 1 CORRECTED,
2 CONTAINED, 3 FATAL; `org` the agent of the origin word, `place` the die, cluster and index where it names none. The manual numbers no UNIT: it
is a free value (log 74). -/
def Mca.log (m : Mca) (sev code : Nat) (psn : Bool) (akind loc : Nat) (org : Option Nat) (place : Nat := 0) : Mca :=
  let seq := (bits m.ecnt 0 16 + 1) % 65536
  let corr := bits m.ecnt 32 32
  let corr := if sev = 1 then min (corr + 1) 0xFFFFFFFF else corr
  let e := setBits (setBits m.ecnt 0 16 seq) 32 32 corr
  if sev = 1 ∧ m.ecfg.getLsbD 0 = false then { m with ecnt := e } else
    let cls := wd (2 ^ 63 + sev * 2 ^ 61 + (if psn then 2 ^ 60 else 0) + akind * 2 ^ 58 +
      (if org.isSome then 2 ^ 57 else 0) + (Config.mcaUnit code place).toNat * 2 ^ 40 + seq * 2 ^ 16 + code)
    let o := wd (org.getD place)
    let first := !m.fcls.getLsbD 63
    let worst := !m.wcls.getLsbD 63 || decide (bits m.wcls 61 2 ≤ sev)
    let m1 := if first then { m with fcls := cls, floc := wd loc, forg := o } else m
    let m2 := if worst then { m1 with wcls := cls, wloc := wd loc, worg := o } else m1
    { m2 with ecnt := if first || worst then e else setBits e 16 16 (min (bits e 16 16 + 1) 65535) }

/-- Whether an error signals (18 R425): FATAL always; CONTAINED with SIGU; CORRECTED with SIGT at a multiple of THR. -/
def Mca.signals (m : Mca) (sev : Nat) : Bool :=
  if sev = 3 then true
  else if sev = 2 then m.ecfg.getLsbD 2
  else
    let thr := bits m.ecfg 16 16
    m.ecfg.getLsbD 1 && thr != 0 && bits m.ecnt 32 32 % thr == 0

/-- An error logged in a bank, and its signal on vector 1 of the physical function (18 R425 to R427). -/
def State.logError (s : State) (bank sev code : Nat) (psn : Bool) (akind loc : Nat) (org : Option Nat)
    (place : Nat := 0) : State :=
  let m := (NatMap.get .reset s.mca bank).log sev code psn akind loc org place
  let s := { s with mca := NatMap.set .reset s.mca bank m }
  if m.signals sev then s.send (.msix 0 1) else s

/-- The origin word of a context (18 R425): TID, die, cluster, core, context, CTXV. -/
def State.originOf (s : State) (id : Nat) : Nat :=
  let p := id / 32
  s.tidOf (s.getCtx id) * 2 ^ 56 + (p / 16) * 2 ^ 52 + (p % 16) * 2 ^ 48 + (id / 4 % 8) * 2 ^ 45 + (id % 4) * 2 ^ 43 +
    2 ^ 42

/-- The bank of a core's structures (18 R424). -/
def coreBank (id : Nat) : Nat := 4 * (id / 512)

/-- The bank of the structure that stores an address (18 R424). -/
def memBank (pa : Nat) : Nat :=
  match pa / spaceSize with
  | 0 => 32 + 6 * hubOf pa
  | 1 => 32 + 6 * hubOf pa + 2
  | 2 => 4 * (nbits pa 24 7 / 16) + (if nbits pa 23 1 = 0 then 1 else 2)
  | _ => 60

/-- Poison put into memory: one granule, or the whole 64 B block of the cellar (02 R77). -/
def State.poisonAt (s : State) (pa : Nat) : State :=
  if pa / spaceSize = 0 then
    { s with memPoison := (List.range 8).foldl (fun m i => NatMap.set false m (pa / 64 * 8 + i) true) s.memPoison }
  else { s with memPoison := NatMap.set false s.memPoison (pa / 8) true }

/-! ### Cellar caches and stored errors (02 R64 to R66, R75 to R79) -/

/-- The set of its hub's cellar cache that an address falls in, counted over the package (log 59). -/
def cacheSet (pa : Nat) : Nat := 32768 * hubOf pa + nbits pa 7 5 + 32 * nbits pa 14 10

/-- A cellar address's line is in its hub's cache. -/
def State.isCached (s : State) (pa : Nat) : Bool :=
  pa / spaceSize == 0 && (NatMap.get [] s.cached (cacheSet pa)).any fun x => x.1 == pa / 128

/-- Where an error in memory lies, as the origin word names it: die, cluster, and channel, bank or set (18 R425, log 60). -/
def memPlace (pa : Nat) (cache : Bool) : Nat :=
  match pa / spaceSize with
  | 0 => (8 + hubOf pa) * 2 ^ 52 + if cache then cacheSet pa % 32768 else channelOf pa
  | 1 => (8 + hubOf pa) * 2 ^ 52 + larderBank pa
  | 2 => nbits pa 28 3 * 2 ^ 52 + nbits pa 24 4 * 2 ^ 48 + padBank pa
  | _ => 15 * 2 ^ 52

/-- An error of memory or of a cellar cache that has been found: corrected and logged, or poisoned and logged. -/
def State.found (s : State) (u : Upset) : State :=
  match u.site, u.unc with
  | .mem pa, true =>
    (s.poisonAt pa).logError (memBank pa) 2 (if pa / spaceSize = 0 then 0x0004 else 0x0002) true 1 pa none (memPlace pa false)
  | .mem pa, false =>
    s.logError (memBank pa) 1 (if pa / spaceSize = 0 then 0x0003 else 0x0001) false 1 pa none (memPlace pa false)
  | .line pa, true =>
    State.logError { s with memPoison := NatMap.set false s.memPoison (pa / 8) true } (33 + 6 * hubOf pa) 2 0x0002 true 1 pa
      none (memPlace pa true)
  | .line pa, false => s.logError (33 + 6 * hubOf pa) 1 0x0001 false 1 pa none (memPlace pa true)
  | _, _ => s

/-- The errors at some sites of memory are found; the answer says whether one was corrected. -/
def State.findAt (s : State) (p : Site → Bool) : State × Bool :=
  let us := s.upsets.filter fun u => p u.site
  (us.foldl State.found { s with upsets := s.upsets.filter fun u => !p u.site }, us.any fun u => !u.unc)

/-- The stored bits an access to a granule reads: those of the cache where the line is in it, else those of its home, in
the cellar a whole 64 B block. -/
def State.meets (s : State) (pa : Nat) : Site → Bool
  | .mem a => if pa / spaceSize = 0 then !s.isCached pa && a / 64 == pa / 64 else a / 8 == pa / 8
  | .line a => s.isCached pa && a / 8 == pa / 8
  | _ => false

/-- The errors waiting in a granule are found where an access reads it (02 R76, R77). -/
def State.findUpset (s : State) (pa : Nat) : State × Bool := s.findAt (s.meets pa)

/-- A line allocated in its set; the oldest of 24 gives way, written back where it is dirty (02 R64, log 59). -/
def State.fillLine (s : State) (pa : Nat) (dirty : Bool) : State :=
  let l := NatMap.get [] s.cached (cacheSet pa)
  let out := if l.length < 24 then none else l.getLast?
  let s := match out with
    | none => s
    | some (n, d) =>
      let at_ : Site → Bool := fun x => match x with | .line a => a / 128 == n | _ => false
      if d then (s.findAt at_).1 else { s with upsets := s.upsets.filter fun u => !at_ u.site }
  { s with cached := NatMap.set [] s.cached (cacheSet pa) ((pa / 128, dirty) :: l.take 23) }

/-- An access at its home: a cellar address goes through its hub's cache, which allocates a line that misses where `alloc`
says so, and marks a written line dirty; errors in what it reads are found (02 R64 to R66, R76). -/
def State.visit (s : State) (pa : Nat) (wr alloc : Bool) : State × Bool :=
  let r := s.findUpset pa
  if pa / spaceSize ≠ 0 then r
  else if s.isCached pa then
    let mark (x : Nat × Bool) : Nat × Bool := if x.1 = pa / 128 then (x.1, x.2 || wr) else x
    ({ r.1 with cached := NatMap.set [] r.1.cached (cacheSet pa) ((NatMap.get [] r.1.cached (cacheSet pa)).map mark) }, r.2)
  else if alloc then
    let q := r.1.findAt fun x => match x with | .mem a => a / 128 == pa / 128 | _ => false
    (q.1.fillLine pa wr, r.2 || q.2)
  else r

/-- A granule written at its home, through the cache in the cellar: a whole granule takes the place of one whose stored
bits are wrong. -/
def State.store (s : State) (g : Granule) (alloc : Bool) : State :=
  let whole : Bool := g.mask == 0xFF && (g.addr / spaceSize != 0 || s.isCached g.addr)
  let s := if whole then { s with upsets := s.upsets.filter fun u => !s.meets g.addr u.site } else s
  State.writeG (s.visit g.addr true alloc).1 g

/-- A core stands still for a correction in its own storage or in what it reads of the scratchpad (02 R76). -/
def State.freezeCore (s : State) (core : Nat) : State := s.setCore core { s.getCore core with ecc := true }

/-- An error in a core's own storage is found for a context (02 R76, R77): corrected, with the core frozen, or uncorrectable,
which the caller poisons. -/
def State.foundInCore (s : State) (id : Nat) (unc : Bool) : State :=
  let s := s.logError (coreBank id) (if unc then 2 else 1) (if unc then 2 else 1) unc 0 0 (some (s.originOf id))
  if unc then s else s.freezeCore (id / 4)

/-- SRC of a record about a context: virtual cluster, core, context (18 R418). -/
def Context.src (c : Context) : Nat := c.place.1 * 256 + c.place.2.1 * 16 + c.place.2.2

/-! ### Memory-side watchpoints -/

/-- A memory-side watchpoint's hit (18 R422): enabled, of the kind of access, in range, and of its tenant. -/
def hwpHits (a c : Word) (pa n : Nat) (wr : Bool) (tid : Nat) : Bool :=
  let len := 2 ^ max 3 (min 30 (bits c 26 6))
  let base := a.toNat % 2 ^ 52 / len * len
  c.getLsbD 0 && c.getLsbD (if wr then 2 else 1) && decide (base < pa + n) && decide (pa < base + len) &&
    (!c.getLsbD 24 || bits c 16 8 == tid)

/-- SRC of an access in a watchpoint's record (18 R418, R422): a context by its place, a copy command by its sender's and its
identifier; the codes of the kinds and the names of other agents are free values (log 73). Kind 0 is a context, 1 a copy
engine, 2 a hub's page walker, 3 a command processor, 4 HD0's fault queues, 5 the host, 6 a peer. -/
def State.agentSrc (s : State) (kind agent : Nat) : Nat :=
  let who : Nat := match kind with
    | 0 => (s.getCtx agent).src
    | 1 => (match s.copies.find? fun c => c.ident == agent with | some c => (s.getCtx c.cid).src | none => 0) + agent * 2 ^ 32
    | _ => (Config.agentName kind agent).toNat
  who + (Config.agentKind kind).toNat * 2 ^ 60

/-- The records of the watchpoints at the home of an access (18 R422): agent kind, agent, tenant, PA, and the granule's value,
`val` where it is not what stands in place. -/
def State.watchRecs (s : State) (pa n : Nat) (wr : Bool) (tid kind agent : Nat) (val : Option Word) : List FqRec :=
  let sp := pa / spaceSize
  if sp = 0 ∨ sp = 1 ∨ sp = 4 then
    let h := hubOf pa
    (List.range 16).filterMap fun i =>
      if hwpHits (NatMap.get 0 s.hwpa (16 * h + i)) (NatMap.get 0x0C000000 s.hwpc (16 * h + i)) pa n wr tid then
        some ⟨0, [wd (6 + tid * 2 ^ 32), wd pa, wd (s.agentSrc kind agent), val.getD (s.word64 (pa / 8 * 8)), 0, 0, 0, 0]⟩
      else none
  else []

/-- An access that a translation or a record makes of its own meets the watchpoints at its home. -/
def State.noteHome (s : State) (pa n : Nat) (wr : Bool) (tid kind agent : Nat) : State :=
  { s with watchQ := s.watchQ ++ s.watchRecs pa n wr tid kind agent none }

/-! ### Translation -/

/-- What an access does, for its permission check (01 R38). -/
inductive Access where
  | read
  | write
  | rmw
  | exec
  deriving DecidableEq, Repr

/-- What a translation gives: an address and the leaf's attribute bits, or a fault's cause and code (01 R38). -/
inductive Trans where
  | ok (pa : Nat) (leaf : Word)
  | fault (cause : BitVec 8) (code : BitVec 16)
  deriving DecidableEq, Repr

/-- NOTPRESENT, MALFORMED, NONCANON as PAGE_FAULT (01 R38). -/
def pageFault (code : Nat) : Trans := .fault 0x08 (BitVec.ofNat 16 code)

/-- READ, WRITE, EXEC, PEER as ACCESS (01 R38). -/
def accessFault (code : Nat) : Trans := .fault 0x09 (BitVec.ofNat 16 code)

/-- PEER of a leaf. -/
def leafPeer (l : Word) : Nat := bits l 56 8

/-- VER of a leaf. -/
def leafVer (l : Word) : Bool := l.getLsbD 9

/-- Whether a leaf is well formed for a page of `size` bytes (01 R24, R26, R10, R8). -/
def State.leafOk (s : State) (l : Word) (size : Nat) : Bool :=
  let pa := bits l 16 36 * 65536
  let spc := pa / spaceSize
  let off := pa % spaceSize
  let peer := leafPeer l != 0
  bits l 52 4 == 0 && bits l 12 4 == 0 && !l.getLsbD 5 && off % size == 0 &&
    (!leafVer l || spc == 0) && (!l.getLsbD 3 || (spc == 0 && !peer)) && (!l.getLsbD 10 || spc == 0 || spc == 4) &&
    (spc == 0 || spc == 1 || spc == 4) && (!peer || spc == 0 || spc == 1) &&
    (match spc with
     | 0 => decide (off + size ≤ (if peer then Config.cellarBytes else s.lumberBase))
     | 1 => decide (off + size ≤ Config.larderBytes)
     | _ => true)

/-- The address at which a function's host accesses leave the package: the host translates a virtual function's I/O virtual
address (01 R13, log 58). -/
def hostPa (tid pa : Nat) : Nat :=
  if tid = 0 ∨ pa / spaceSize ≠ 4 then pa
  else 4 * spaceSize + (Config.hostPage tid (pa % spaceSize / 4096) * 4096 + pa % 4096) % spaceSize

/-- A leaf's answer to an access: peer table, then permissions (01 R28, R38). -/
def State.leafCheck (s : State) (tid : Nat) (l : Word) (pa : Nat) (acc : Access) : Trans :=
  let pe := NatMap.get 0 (NatMap.get .reset s.tenants tid).peert (leafPeer l)
  if leafPeer l != 0 && (!pe.getLsbD 15 || bits pe 12 3 != 0) then accessFault 8
  else
    let go : Trans := .ok (if leafPeer l = 0 then hostPa tid pa else pa) l
    match acc with
    | .read => if l.getLsbD 1 then go else accessFault 4
    | .write => if l.getLsbD 2 then go else accessFault 5
    | .rmw => if !l.getLsbD 2 then accessFault 5 else if !l.getLsbD 1 then accessFault 4 else go
    | .exec => if l.getLsbD 3 then go else accessFault 6

/-- What a walk ends in. -/
inductive Walk where
  | leaf (entry : Nat) (size : Nat) (l : Word)
  | fault (code : Nat)
  deriving DecidableEq, Repr

/-- A walk from a table at a cellar address down the levels still to go: shift, index bits, leaf allowed (01 R22 to
R26). A poisoned entry is walked with the bits that are stored, for which the manual has no rule (log 79). -/
def State.walkFrom (s : State) (va : Nat) : List (Nat × Nat × Bool) → Nat → Walk
  | [], _ => .fault 2
  | (sh, n, ok) :: more, table =>
    let at_ := table + 8 * nbits va sh n
    let e := s.word64 at_
    if !e.getLsbD 0 then .fault 1
    else if e.getLsbD 4 then
      if ok && s.leafOk e (2 ^ sh) then .leaf at_ (2 ^ sh) e else .fault 2
    else if more.isEmpty then .fault 2
    else
      let next := bits e 12 40 * 4096
      if bits e 52 12 == 0 && bits e 1 11 == 0 && decide (next < s.lumberBase) then s.walkFrom va more next else .fault 2

/-- The levels of the page table (01 R22). -/
def walkLevels : List (Nat × Nat × Bool) := [(39, 13, false), (30, 9, true), (21, 9, true), (16, 5, true)]

/-- A walk of a tenant's tables. -/
def State.walk (s : State) (tid va : Nat) : Walk :=
  s.walkFrom va walkLevels (bits (NatMap.get .reset s.tenants tid).troot 16 36 * 65536)

/-- The physical address a leaf gives for an address in its page. -/
def leafPa (l : Word) (size va : Nat) : Nat := bits l 16 36 * 65536 + va % size

/-! ### Reports to the command processors -/

/-- The line that an address of a tenant lies in is one of those that `hit` names. -/
def State.inLine (s : State) (tid va : Nat) (hit : Nat → Bool) : Bool := match s.walk tid va with
  | .leaf _ size e => match s.leafCheck tid e (leafPa e size va) .read with
    | .ok p _ => hit (p / 128)
    | .fault _ _ => false
  | .fault _ => false

/-- Writes to lines that a command processor watches are reported to it: those of an enabled queue's tail word (16 R389), or of
the word that a WAITV waits for, which it then reads again (16 R402). -/
def State.reportIf (s : State) (hit : Nat → Bool) : State :=
  let again (tid : Nat) (c : Command) : Command :=
    if bits (c.words.headD 0) 0 8 == 2 && c.started && !c.done && c.prog == 1 && s.inLine tid (c.words.getD 3 0).toNat hit then
      { c with prog := 0 }
    else c
  { s with queues := s.queues.map fun x => (x.1, { x.2 with
      poll := x.2.poll || (x.2.en && s.inLine x.2.tid x.2.qtail.toNat hit)
      cmds := x.2.cmds.map (again x.2.tid) }) }

/-- A write to the line of a physical address. -/
def State.report (s : State) (pa : Nat) : State := s.reportIf fun n => n == pa / 128

/-- A and, for a write, D set in a page-table entry of tenant `tid` by an OR at the cellar controller (01 R36), seen by the
watchpoints there (18 R422). -/
def State.markEntry (s : State) (tid entry : Nat) (wr : Bool) : State :=
  let s := (s.visit entry true true).1
  let s := s.setByte entry (s.byte entry ||| 0x40#8 ||| (if wr then 0x80#8 else 0))
  (s.report entry).noteHome entry 8 true tid 2 (hubOf entry)

/-- Whether an access writes. -/
def Access.wr : Access → Bool
  | .write => true
  | .rmw => true
  | _ => false

/-- The near hub that serves the walks of a cluster (01 R36). -/
def walkHub (p : Nat) : Nat := Config.nearHub (p / 16) (if p % 16 < 8 then 0 else 1)

/-- Where a walk starts: at the lowest table that its hub's walk cache knows, else at the root; the command processors and
HD0 (`none`) start at the root (01 R36, log 61). -/
def State.walkStart (s : State) (clu : Option Nat) (tid va : Nat) : List (Nat × Nat × Bool) × Nat :=
  let known (sh : Nat) : Option Nat := match clu with
    | none => none
    | some p => ((NatMap.get [] s.walkCache (walkHub p)).find? fun e =>
        e.tid == tid && e.size == 2 ^ sh && e.va == va / 2 ^ sh * 2 ^ sh).map WalkEntry.table
  match known 21, known 30, known 39 with
  | some t, _, _ => (walkLevels.drop 3, t)
  | none, some t, _ => (walkLevels.drop 2, t)
  | none, none, some t => (walkLevels.drop 1, t)
  | none, none, none => (walkLevels, bits (NatMap.get .reset s.tenants tid).troot 16 36 * 65536)

/-- A walk as a cluster's hub makes it. -/
def State.walkVia (s : State) (clu : Option Nat) (tid va : Nat) : Walk :=
  let a := s.walkStart clu tid va
  s.walkFrom va a.1 a.2

/-- The entries a walk reads: each one's address, what it covers, and the table it names where it is no leaf and good. -/
def State.walkTrail (s : State) (va : Nat) : List (Nat × Nat × Bool) → Nat → List (Nat × Nat × Option Nat)
  | [], _ => []
  | (sh, n, _) :: more, table =>
    let at_ := table + 8 * nbits va sh n
    let e := s.word64 at_
    let next := bits e 12 40 * 4096
    if e.getLsbD 0 && !more.isEmpty && bits e 52 12 == 0 && bits e 1 11 == 0 && decide (next < s.lumberBase) then
      (at_, 2 ^ sh, some next) :: s.walkTrail va more next
    else [(at_, 2 ^ sh, none)]

/-- A walk-cache entry kept by a hub, the oldest of 512 giving way (01 R36, log 61). -/
def State.keepWalk (s : State) (hub : Nat) (e : WalkEntry) : State :=
  let l := (NatMap.get [] s.walkCache hub).filter fun x => !(x.tid == e.tid && x.va == e.va && x.size == e.size)
  { s with walkCache := NatMap.set [] s.walkCache hub (e :: l.take 511) }

/-- What a walk leaves beside its result: its entries read through the cellar cache, and those that name tables kept. -/
def State.walked (s : State) (clu : Option Nat) (tid va : Nat) : State :=
  let a := s.walkStart clu tid va
  (s.walkTrail va a.1 a.2).foldl (fun s x =>
    let s := ((s.visit x.1 false true).1).noteHome x.1 8 false tid 2 (hubOf x.1)
    match clu, x.2.2 with
    | some p, some t => s.keepWalk (walkHub p) ⟨tid, va / x.2.1 * x.2.1, x.2.1, t⟩
    | _, _ => s) s

/-- The set of a TLB that an entry falls in: its page number modulo 256 (01 R34, log 62). -/
def TlbEntry.set (e : TlbEntry) : Nat := e.va / max 1 e.size % 256

/-- A leaf installed in a TLB: it takes the place of the entry for its page, else, where its set is full, of the oldest of
the 8 there (01 R34, log 62). -/
def tlbInstall (l : List TlbEntry) (e : TlbEntry) : List TlbEntry :=
  let l := l.filter fun x => !(x.tid == e.tid && x.va == e.va && x.size == e.size)
  let mates := l.filter fun x => x.set == e.set
  e :: match mates.getLast? with
    | some old => if mates.length < 8 then l else l.erase old
    | none => l

/-- A walk that installs its leaf in the TLB of a cluster, setting A and, where it is for an allowed write, D, or gives its
fault (01 R36). The command processors and HD0 have no TLB (`none`). -/
def State.walkInstall (s : State) (clu : Option Nat) (tid va : Nat) (wr : Bool) : State × Except Nat (Nat × Nat × Word) :=
  let w := s.walkVia clu tid va
  let s := s.walked clu tid va
  match w with
  | .fault c => (s, .error c)
  | .leaf entry size l =>
    let l := l ||| 0x40#64 ||| (if wr then 0x80#64 else 0)
    let s := s.markEntry tid entry wr
    let base := va / size * size
    let s := match clu with
      | none => s
      | some p => s.setClu p { s.getClu p with tlb := tlbInstall (s.getClu p).tlb ⟨tid, base, size, l⟩ }
    (s, .ok (base, size, l))

/-- A TLB hit (01 R34). -/
def TlbEntry.hits (e : TlbEntry) (tid va : Nat) : Bool :=
  e.tid == tid && decide (e.va ≤ va) && decide (va < e.va + e.size)

/-- Word 8 of a launch's record. -/
def Launch.shape (l : Launch) : Word := l.words.getD 8 0

/-- VCNT + 1 (16 R394). -/
def vcount (w8 : Word) : Nat := bits w8 0 7 + 1

/-- CORES + 1. -/
def coreCount (w8 : Word) : Nat := bits w8 8 3 + 1

/-- The contexts a record starts, as (virtual cluster, core, context). -/
def startedPlaces (w8 : Word) : List (Nat × Nat × Nat) :=
  (List.range (vcount w8)).flatMap fun v => (List.range (coreCount w8)).flatMap fun c =>
    ((List.range 4).filter fun x => w8.getLsbD (12 + x)).map fun x => (v, c, x)

/-- Where a launch's save area holds the image of a byte of a virtual cluster's scratchpad: after the images of its contexts
(16 R395, 18 R415). -/
def Launch.padVa (l : Launch) (v w : Nat) : Nat :=
  (l.words.getD 6 0).toNat + (startedPlaces l.shape).length * 0x1A0000 + v * 0x1000000 + w

/-- Where a byte of a launch's save area lies, as its tenant's tables have it now (01 R13, R23, 16 R395). -/
def State.imageAt (s : State) (l : Launch) (va : Nat) : Option Nat :=
  if !(NatMap.get .reset s.tenants l.tid).en then none
  else match s.walk l.tid va with
    | .leaf _ size e => match s.leafCheck l.tid e (leafPa e size va) .rmw with
      | .ok pa _ => if leafPeer e = 0 then some pa else none
      | .fault _ _ => none
    | .fault _ => none

/-- The home of a byte of a virtual cluster's scratchpad: in its physical cluster while the launch runs; in its image while it
is saved, since commands that have started run on (10 R300, 16 R400, log 16). -/
def State.padAt (s : State) (l : Launch) (v w : Nat) : Option Nat := match l.st with
  | .running => l.map[v]?.map fun p => localPa p w
  | .saved _ => s.imageAt l (l.padVa v w)

/-- The launch window's answer (01 R29, R20), where the address lies in it. -/
def State.window (s : State) (l : Option Launch) (va : Nat) (acc : Access) : Option Trans :=
  match l with
  | none => none
  | some l =>
    let swb := (l.words.getD 5 0).toNat
    if swb ≠ 0 ∧ swb ≤ va ∧ va < swb + 0x80000000 then
      let v := (va - swb) / 0x1000000
      match l.map[v]? with
      | none => some (pageFault 1)
      | some p =>
        let w := va % 0x1000000
        if acc = .exec then some (accessFault 6)
        else if l.st ≠ .running then some (match s.padAt l v w with | some pa => .ok pa 0x17#64 | none => pageFault 1)
        else if (s.getClu p).atcap.getLsbD (w / 0x400000) then some (.ok (localPa p w) 0x17#64)
        else some (.fault 0x0A 7)
    else none

/-- A walk's leaf allows a writing access, so that D is to be set (01 R36). -/
def State.mayWrite (s : State) (clu : Option Nat) (tid va : Nat) (acc : Access) : Bool :=
  match s.walkVia clu tid va with
  | .leaf _ size l => match s.leafCheck tid l (leafPa l size va) acc with | .ok _ _ => true | .fault _ _ => false
  | .fault _ => false

/-- The translation of a tenant virtual address for a launch (its window first), through the TLB of a cluster where there
is one; a miss walks (01 R20 to R38). Nothing translates for a tenant that is not enabled (R23). -/
def State.translate (s : State) (clu : Option Nat) (tid : Nat) (l : Option Launch) (va : Nat) (acc : Access) :
    State × Trans :=
  if 2 ^ 52 ≤ va then (s, pageFault 3)
  else if !(NatMap.get .reset s.tenants tid).en then (s, pageFault 1)
  else
    match s.window l va acc with
    | some t => (s, t)
    | none =>
        let hit : Option TlbEntry := match clu with
          | none => none
          | some p => (s.getClu p).tlb.find? fun e => e.hits tid va && (!acc.wr || e.leaf.getLsbD 7 || !e.leaf.getLsbD 2)
        match hit with
        | some e => (s, s.leafCheck tid e.leaf (leafPa e.leaf e.size va) acc)
        | none =>
          match s.walkInstall clu tid va (acc.wr && s.mayWrite clu tid va acc) with
          | (s, .error c) => (s, pageFault c)
          | (s, .ok (_, size, l)) => (s, s.leafCheck tid l (leafPa l size va) acc)

/-- The translation of the focused context's own accesses. -/
def State.translateCtx (s : State) (va : Nat) (acc : Access) : State × Trans :=
  s.translate (some s.clusterId) (s.tidOf s.ctx) (s.launchOf s.ctx) va acc

/-! ### Fault-queue records -/

/-- The ring of a tenant's fault queue: its size in records (18 R417). -/
def Tenant.ringSize (t : Tenant) : Nat := 2 ^ (6 + min (bits t.fqlog 0 4) 10)

/-- A record written to its ring, if the ring can take it (18 R417, R418): the next slot must translate, to the cellar or host
memory, and must not be full. FQTAIL is released after the record; the vector is signalled when FQTAIL passes FQHEAD. -/
def State.ringWrite (s : State) (r : FqRec) : Option State :=
  let t := NatMap.get .reset s.tenants r.tid
  let used := (t.fqtail + 2 ^ 32 - t.fqhead.toNat % 2 ^ 32) % 2 ^ 32
  if t.fqbase = 0 ∨ t.ringSize ≤ used then none else
    let va := t.fqbase.toNat / 64 * 64 + 64 * (t.fqtail % t.ringSize)
    match s.translate none r.tid none va .write with
    | (s, .ok pa leaf) =>
      if leafPeer leaf ≠ 0 ∨ (pa / spaceSize ≠ 0 ∧ pa / spaceSize ≠ 4) then none else
      let s := (granules pa (r.words.flatMap fun w => valBytes w 8) false).foldl (fun s g =>
        ((s.store g true).report g.addr).noteHome g.addr 8 true r.tid 4 0) s
      let s := if pa / spaceSize = 4 then s.send (.cxlRequest r.tid pa true) else s
      let t := NatMap.get .reset s.tenants r.tid
      let s := { s with tenants := NatMap.set .reset s.tenants r.tid { t with fqtail := (t.fqtail + 1) % 2 ^ 32 } }
      some (if used = 0 then s.send (.msix r.tid 0) else s)
    | (_, .fault _ _) => none

/-- A record posted to a function's queue (18 R418): to the ring, behind the records that wait for it, else to HD0's overflow
store of 65,536 records; when that is full too, an informational record is dropped and LOST is set. -/
def State.postRec (s : State) (r : FqRec) (informs : Bool) : State :=
  let waits := s.fqOver.any fun x => x.tid == r.tid
  match (if waits then none else s.ringWrite r) with
  | some s => s
  | none =>
    if s.fqOver.length < 65536 ∨ informs = false then { s with fqOver := s.fqOver ++ [r] }
    else
      let t := NatMap.get .reset s.tenants r.tid
      { s with tenants := NatMap.set .reset s.tenants r.tid { t with lost := true } }

/-- A record about a tenant (18 R418); types 2 and 3 need service, the others inform. -/
def State.post (s : State) (tid : Nat) (type cause code addr src aux : Nat) (svc : List Word) : State :=
  let w0 := wd (type + cause * 256 + code * 65536 + tid * 2 ^ 32)
  s.postRec ⟨tid, [w0, wd addr, wd src, wd aux] ++ (svc ++ [0, 0, 0, 0]).take 4⟩ (type != 2 && type != 3)

/-- The records held for a tenant's ring are tried again, oldest first, until one does not fit (18 R418). -/
def State.retryPosts (s : State) (tid : Nat) : List FqRec → State
  | [] => s
  | r :: rs =>
    if r.tid != tid then s.retryPosts tid rs
    else match ({ s with fqOver := s.fqOver.erase r }).ringWrite r with
      | some s => s.retryPosts tid rs
      | none => s

/-- An access at its home meets the watchpoints there (18 R422): their records go to the physical function's queue. -/
def State.watchHome (s : State) (pa n : Nat) (wr : Bool) (tid kind agent : Nat) (val : Option Word := none) : State :=
  (s.watchRecs pa n wr tid kind agent val).foldl (fun s r => s.postRec r true) s

/-- The records of accesses that posting and translating make of their own are posted (18 R422). -/
def State.postWatched (s : State) : State :=
  s.watchQ.foldl (fun s r => s.postRec r true) { s with watchQ := [] }

/-! ### Taking a trap and returning from one -/

/-- Trap causes (18 R410). -/
def illegalOpcode : BitVec 8 := 0x01
/-- See `illegalOpcode`. -/
def illegalEncoding : BitVec 8 := 0x02
/-- See `illegalOpcode`. -/
def energyCause : BitVec 8 := 0x03
/-- See `illegalOpcode`. -/
def loopConflict : BitVec 8 := 0x04
/-- See `illegalOpcode`. -/
def mxBank : BitVec 8 := 0x05
/-- See `illegalOpcode`. -/
def mxOwn : BitVec 8 := 0x06
/-- See `illegalOpcode`. -/
def mxGrid : BitVec 8 := 0x07
/-- See `illegalOpcode`. -/
def scratchRange : BitVec 8 := 0x0A
/-- See `illegalOpcode`. -/
def alignCause : BitVec 8 := 0x0B
/-- See `illegalOpcode`. -/
def barrierOverrunCause : BitVec 8 := 0x0C
/-- See `illegalOpcode`. -/
def txNesting : BitVec 8 := 0x0D
/-- See `illegalOpcode`. -/
def bkptCause : BitVec 8 := 0x0E
/-- See `illegalOpcode`. -/
def swTrap : BitVec 8 := 0x0F
/-- See `illegalOpcode`. -/
def watchCause : BitVec 8 := 0x10
/-- See `illegalOpcode`. -/
def stepCause : BitVec 8 := 0x11
/-- See `illegalOpcode`. -/
def mchk : BitVec 8 := 0x12

/-- TCAUSE of a trap: DETAIL in 47:32, INH set, CAUSE in 7:0 (09 R260, R261). -/
def tcauseWord (cause : BitVec 8) (detail : BitVec 16) : Word :=
  wd (detail.toNat * 2 ^ 32 + 2 ^ 31 + cause.toNat)

/-- An address as TBUND and TNEXT hold it: bits 51:2 (09 R260). -/
def trapAddr (a : Nat) : Word := wd (a % 2 ^ 52 / 4 * 4)

/-- The iterations a loop runs: N, or one more than the iteration a LEXIT ended (07 R197, R198). -/
def Seq.rounds (q : Seq) : Nat := match q.exit with
  | some i => min q.n (i + 1)
  | none => q.n

/-- The loop ticks a loop runs (07 R196): none for N = 0. -/
def Seq.last (q : Seq) : Nat := if q.rounds = 0 then 0 else (q.rounds - 1) * q.ii + q.body.length

/-- The address by which the trap registers name a loop tick (09 R261): the lowest-numbered body bundle of its phase, or
the LOOP bundle; the bundle after the body when the loop has ended. -/
def Seq.tickAddr (q : Seq) (t : Nat) : Nat :=
  if q.last ≤ t then q.after
  else match q.body[t % q.ii]? with
    | some b => b.1
    | none => q.addr

/-- A loop that has run to its end leaves the sequencer; VWB.BASE has advanced with it (07 R196, R197). -/
def State.boundary (s : State) : State :=
  match s.ctx.seq with
  | none => s
  | some q =>
    if q.last ≤ q.tick then
      { s with ctx := { s.ctx with
          seq := none
          pc := q.after
          checked := false
          c := { s.ctx.c with vwb := wd ((q.base0 + q.rounds * q.vr) % 1024) } } }
    else s

/-- A failure of a launch, kept as its first FCODE (16 R392). -/
def State.failLaunch (s : State) (c : Context) (code : Nat) : State :=
  let lid := bits c.c.lid 0 16
  match NatMap.find? s.launches lid with
  | none => s
  | some l => { s with launches := NatMap.put s.launches lid { l with fail := if l.fail = 0 then code else l.fail } }

/-- A binding of a snapshot entry given up (03 R90). -/
def State.unbind (s : State) (handle : Nat) : State :=
  let idx := handle % 4096
  let e := NatMap.get .reset s.snaps idx
  if handle = 0 ∨ e.gen ≠ handle / 65536 % 65536 then s
  else
    let n := e.binds - 1
    let st := if e.st = .draining ∧ n = 0 then .free else e.st
    { s with snaps := NatMap.set .reset s.snaps idx { e with binds := n, st := st } }

/-- The handle a context has bound at HD0: by its latest SNAPSET on the way, else SNAP. -/
def Context.bound (c : Context) : Nat :=
  let last := c.q.landing.foldl (fun a l => match l.kind, l.answer with
    | .snapSet _, .value v true => some v.toNat
    | _, _ => a) none
  last.getD (c.c.snap &&& 0xFFFF0FFF).toNat

/-- A double trap (09 R262): the context stops for good, a CONTAINED error is logged, the launch fails with LOST. It is retired,
so its snapshot is bound no more (03 R91); a member of a lock-step group stays one, and the group waits (log 76). -/
def State.doubleTrap (s : State) : State :=
  let s := s.logError (coreBank s.cur) 2 0x000A false 0 0 (some (s.originOf s.cur))
  let s := (s.failLaunch s.ctx 7).unbind s.ctx.bound
  let s := s.modC fun c => { c with snap := 0 }
  { s with ctx := { s.ctx with st := .retired, stop := true, freezes := [], pend := [] } }

/-- A freeze that waits for the context's accesses. -/
def Freeze.waits : Freeze → Bool
  | .vjoin _ => true
  | .fence _ _ => true
  | .fencep _ _ => true
  | .retire => true
  | .dormancy => true
  | _ => false

/-- Taking a trap (09 R261, R262): TCAUSE, TBUND, TNEXT; results in flight to the capture buffer; holds and sequencer
saved and cleared, a loop that has ended being over; the program goes on at TVEC, whose header must have T (R244); while
stores issued before remain the context is frozen. With INH set it is a double trap. -/
def State.takeTrap (s : State) (cause : BitVec 8) (detail : BitVec 16) (tbund tnext va : Nat) : State :=
  if s.inh then s.doubleTrap else
    let s := s.boundary
    let c := s.ctx
    let posts : Bool := cause == 0x08 || cause == 0x09 || cause == 0x0A
    let s1 := if posts then
        s.post (s.tidOf c) 1 cause.toNat detail.toNat va c.src (bits c.c.lid 0 16) [] else s
    let c := s1.ctx
    let a := s1.core.array
    let held : Bool := a.owner == some s1.cur && c.holds.any fun h => h.slot.env.pos == 5#5
    { s1 with
      core := { s1.core with array := { a with pass := if held then none else a.pass } }
      ctx := { c with
        pc := (c.c.tvec.toNat % 2 ^ 52) / 4 * 4
        checked := true
        c := { c.c with
          tcause := tcauseWord cause detail
          tbund := trapAddr tbund
          tnext := trapAddr tnext }
        q := { c.q with
          results := []
          capture := c.q.capture ++ c.q.results }
        holds := []
        seq := none
        noWatch := false
        fetched := []
        streamed := []
        saved := some ⟨c.holds, c.seq, trapAddr tnext, c.freezes.filter Freeze.waits, if held then a.pass else none⟩
        freezes := (c.freezes.filter fun f => !f.waits) ++ if c.q.sq.isEmpty then [] else [.trapDrain] } }

/-- A trap raised before the bundle being issued (09 R261): TNEXT equals TBUND, and the issue is marked with it so that no
slot of the bundle takes effect. -/
def State.trapBefore (s : State) (cause : BitVec 8) (detail : BitVec 16) (va : Nat) : State :=
  let s1 := s.takeTrap cause detail s.issue.addr s.issue.addr va
  { s1 with issue := { s1.issue with trap := some (cause, detail, va) } }

/-- MCHK for consumed poison (02 R78): logged CONTAINED in the bank of the core, then raised precisely; DETAIL is the
bank. -/
def State.trapMchk (s : State) : State :=
  let b := coreBank s.cur
  (s.logError b 2 0x0008 false 0 0 (some (s.originOf s.cur))).trapBefore mchk (BitVec.ofNat 16 b) 0

/-! ### Results and landings -/

/-- A result owed to a register by the focused context. -/
def State.owe (s : State) (r : Result) : State := s.modQ fun q => { q with results := q.results ++ [r] }

/-- The key of a vector lane. -/
def vkey (g r l : Nat) : Nat := (g * 1024 + r) * 16 + l

/-- The lanes of a set written into a table of lanes. -/
def setLanes {α : Type} [DecidableEq α] (d : α) (m : NatMap α) (key : Nat) (lanes : BitVec 16) (f : Nat → α) :
    NatMap α :=
  (List.range 16).foldl (fun m l => if lanes.getLsbD l then NatMap.set d m (key + l) (f l) else m) m

/-- A register's place in the list of those that hold poison (02 R77). -/
def deadSet (l : List Dst) (d : Dst) (bad : Bool) : List Dst := (l.filter (· != d)) ++ if bad then [d] else []

/-- A result written to its register: writes to s0, k0 and m0 are discarded (02 R44). Only the given lanes of a vector
register or mask are written. -/
def Regs.write (r : Regs) (dst : Dst) (val : BitVec 512) (poison lanes : BitVec 16) : Regs :=
  match dst with
  | .sreg n =>
    if n = 0 then r else
      { r with s := NatMap.set 0 r.s n (val.setWidth 64)
               spoison := NatMap.set false r.spoison n (poison.getLsbD 0) }
  | .kreg n => if n = 0 then r else
      { r with k := NatMap.set false r.k n (val.getLsbD 0), dead := deadSet r.dead dst (poison.getLsbD 0) }
  | .vreg g n =>
    { r with v := setLanes 0 r.v (vkey g n 0) lanes fun l => val.extractLsb' (32 * l) 32
             vpoison := setLanes false r.vpoison (vkey g n 0) lanes fun l => poison.getLsbD l }
  | .mreg g n =>
    if n = 0 then r else
      let old := NatMap.get 0 r.m (16 * g + n)
      { r with m := NatMap.set 0 r.m (16 * g + n) ((old &&& ~~~ lanes) ||| (val.setWidth 16 &&& lanes))
               dead := deadSet r.dead dst (poison != 0 || (r.dead.contains dst && lanes != 0xFFFF)) }
  | .iter j f =>
    let a := NatMap.get .reset r.a j
    let v64 : Word := val.setWidth 64
    let v32 : W32 := val.setWidth 32
    let a := match f with
      | 0 => { a with base := v64 }
      | 1 => { a with str0 := v32 }
      | 2 => { a with str1 := v32 }
      | 3 => { a with str2 := v32 }
      | 4 => { a with str3 := v32 }
      | _ => { a with dir := val.getLsbD 0 }
    { r with a := NatMap.set .reset r.a j a, dead := deadSet r.dead dst (poison.getLsbD 0) }

/-- One result landed. -/
def Result.land (x : Result) (r : Regs) : Regs := r.write x.dst x.val x.poison x.lanes

/-- A result that changes its register: not of s0, k0 or m0, and not one without a lane (02 R44, 07 R203). -/
def Result.writes (x : Result) : Bool := match x.dst with
  | .sreg n => n != 0
  | .kreg n => n != 0
  | .mreg _ n => n != 0 && x.lanes != 0
  | .vreg _ _ => x.lanes != 0
  | .iter _ _ => true

/-- A result written to its register of the focused context, which is noted as written (07 R203). -/
def State.writeR (s : State) (x : Result) : State :=
  let w := if s.ctx.written.contains x.dst || !x.writes then s.ctx.written else s.ctx.written ++ [x.dst]
  { s with ctx := { s.ctx with regs := x.land s.ctx.regs, written := w } }

/-- The results with no bundle left are written in issue order, so a later one prevails (02 R70, 07 R189); the others
stay. -/
def State.landDue (s : State) : State :=
  let due := s.ctx.q.results.filter fun x => x.left == 0
  let rest := s.ctx.q.results.filter fun x => x.left != 0
  (due.foldl State.writeR s).modQ fun q => { q with results := rest }

/-- The latch and SCKEY writes that are due, in the order they were made (13 R362). -/
def ArrayState.landLatches (a : ArrayState) (due : LatchWrite → Bool) : ArrayState :=
  (a.latches.filter due).foldl (fun a x => match x.tgt with
    | 0 => { a with la := NatMap.set 0x7F a.la x.idx (x.val.setWidth 8) }
    | 1 => { a with lb := NatMap.set 0x7F a.lb x.idx (x.val.setWidth 8) }
    | 2 => { a with xa := NatMap.set 0 a.xa x.idx (x.val.setWidth 8) }
    | _ => { a with sckey := x.val, apc := 0, pass := a.pass.map fun p => { p with cut := true } }) { a with latches := a.latches.filter fun x => !due x }

/-- A pass of the focused array ends: APC advances, unless no step of it took effect (13 R351, 04 R142, 08 R220), or unless an
SCKEY that has landed since its last step has set APC to 0 (13 R362). -/
def ArrayState.endPass (a : ArrayState) : ArrayState := match a.pass with
  | some p => { a with pass := none, apc := if p.ran && !p.cut then a.apc + 1 else a.apc }
  | none => a

/-- The iterations of a loop that have issued a word so far: one more than the highest that has (09 R264). -/
def Seq.begun (q : Seq) : Nat :=
  (List.range q.tick).foldl (fun m t => ((List.range q.body.length).zip q.body).foldl (fun m x =>
    let i := (t - x.1) / max 1 q.ii
    if x.1 ≤ t ∧ (t - x.1) % max 1 q.ii = 0 ∧ i < q.rounds ∧ x.2.2.2.2.isEmpty = false then max m (i + 1) else m) m) 0

/-- ERET's steps 2 to 5 (09 R264): INH cleared, holds and sequencer restored unless TNEXT was changed during an
interrupted loop, faulted loads reissued, captured stores returned to the queue, issue at TNEXT. What the handler issued and
has not done stands from now on before any later trap entry (R262). A freeze that the trap interrupted is dropped where the handler
changed TNEXT (log 20). -/
def State.eretFinish (s : State) : State :=
  let c := s.ctx
  let sv := c.saved.getD ⟨[], none, c.c.tnext, [], none⟩
  let abandoned : Bool := sv.seq.isSome && sv.tnext != c.c.tnext
  let vwb := match sv.seq with
    | some q =>
      if abandoned then
        wd ((q.base0 + q.begun * q.vr) % 1024)
      else c.c.vwb
    | none => c.c.vwb
  let a := s.core.array
  let a := if a.owner = some s.cur then a.endPass.landLatches fun x => x.handler else a
  let a : ArrayState := match sv.pass with
    | none => a
    | some p => if abandoned then ArrayState.endPass { a with pass := some p } else { a with pass := some p }
  let mine (e : StoreEntry) : StoreEntry := { e with
    handler := false
    kind := match e.kind with | .cmd k => .cmd { k with handler := false } | k => k }
  { s with
    core := { s.core with array := a }
    copies := s.copies.map fun x => if x.cid = s.cur then { x with handler := false } else x
    ctx := { c with
      pc := (c.c.tnext.toNat % 2 ^ 52) / 4 * 4
      checked := false
      pend := c.pend.map fun x => { x with handler := false }
      c := { c.c with tcause := setBits c.c.tcause 31 1 0, vwb := vwb }
      holds := if abandoned then [] else sv.holds
      seq := if abandoned then none else sv.seq
      saved := none
      icms := c.icms.filter fun x => !x.handler
      noWatch := c.c.tcause.extractLsb' 0 8 == watchCause
      freezes := (c.freezes.filter fun f => f != .eret) ++ if sv.tnext = c.c.tnext then sv.waits else []
      q := { c.q with
        sq := (c.q.csq ++ c.q.sq).map mine
        csq := []
        copyq := c.q.copyq.map fun x => { x with handler := false }
        lq := c.q.lq.map fun e => if e.hold then
            match e.kind with
            | .land id =>
              if c.q.landing.any (fun l => l.id == id && l.answer == .waiting) then { e with hold := false } else e
            | _ => e
          else e } } }

/-- Whether an operation of the handler still owes a landing (09 R264). -/
def Queues.handlerOwes (q : Queues) : Bool :=
  q.landing.any (fun l => l.handler) || q.lq.any (fun e => e.handler && e.kind == .fixed)

/-- ERET (09 R264): the handler's results are written now; while landings of its own remain, the context is frozen and
each is written as its data arrives; then it resumes. -/
def State.eret (s : State) : State :=
  let s := s.modQ fun q => { q with results := q.results.map fun r => { r with left := 0 } }
  let s := s.landDue
  if s.ctx.q.handlerOwes then
    let s := s.modQ fun q => { q with
      landing := q.landing.map fun l => if l.handler then { l with eager := true } else l
      lq := q.lq.map fun e => if e.handler && e.kind == .fixed then { e with left := 0 } else e }
    { s with ctx := { s.ctx with freezes := s.ctx.freezes ++ [.eret] } }
  else s.eretFinish

end Sys2Proof.Machine
end

