-- ==== Sys2Proof/Machine/Num.lean ====
section
/-! DEFINITION. Numbers (04): formats, exact values, rounding, clipping, integer conversion, block scales, and the Philox
generator. Operands are decoded to exact values, computed exactly, and narrowed once. -/

namespace Sys2Proof.Machine

/-! ### Exact values -/

/-- An exact value: NaN, an infinity, or (−1)^neg × m × 2^e. A zero keeps its sign. -/
inductive Fl where
  | nan
  | inf (neg : Bool)
  | fin (neg : Bool) (m : Nat) (e : Int)
  deriving DecidableEq, Repr

/-- +0. -/
def Fl.zero : Fl := .fin false 0 0

/-- Whether a value is a zero. -/
def Fl.isZero : Fl → Bool
  | .fin _ m _ => m == 0
  | _ => false

/-- Whether a value is finite. -/
def Fl.isFin : Fl → Bool
  | .fin _ _ _ => true
  | _ => false

/-- The sign of a value. -/
def Fl.neg? : Fl → Bool
  | .nan => false
  | .inf n => n
  | .fin n _ _ => n

/-- The value with its sign changed. -/
def Fl.negate : Fl → Fl
  | .nan => .nan
  | .inf n => .inf !n
  | .fin n m e => .fin (!n) m e

/-- An integer as an exact value. -/
def Fl.ofInt (i : Int) : Fl := .fin (decide (i < 0)) i.natAbs 0

/-- The finite value's numerator over 2^e for an exponent not above its own. -/
def Fl.scaled (x : Fl) (e0 : Int) : Int :=
  match x with
  | .fin n m e => let v : Int := (m <<< (e - e0).toNat : Nat); if n then -v else v
  | _ => 0

/-- The exponent of a finite value. -/
def Fl.expo : Fl → Int
  | .fin _ _ e => e
  | _ => 0

/-- The least exponent of the finite values of a list. -/
def minExpo (l : List Fl) : Int := l.foldl (fun a x => if x.isFin then min a x.expo else a) (l.headD .zero).expo

/-- An exact product (04 R125). -/
def Fl.mul (x y : Fl) : Fl :=
  match x, y with
  | .nan, _ => .nan
  | _, .nan => .nan
  | .inf a, .inf b => .inf (a != b)
  | .inf a, .fin b m _ => if m = 0 then .nan else .inf (a != b)
  | .fin a m _, .inf b => if m = 0 then .nan else .inf (a != b)
  | .fin a m e, .fin b n f => .fin (a != b) (m * n) (e + f)

/-- An exact sum (04 R125): any NaN, or infinities of both signs, give NaN; an exact zero of mixed signs is +0, or −0
where `rdn` says that rounding is downward; zeros of one sign keep it. -/
def flSum (rdn : Bool) (l : List Fl) : Fl :=
  let pos := l.any fun x => x == .inf false
  let neg := l.any fun x => x == .inf true
  if l.any (fun x => x == .nan) || (pos && neg) then .nan
  else if pos then .inf false
  else if neg then .inf true
  else
    let e0 := minExpo l
    let v : Int := l.foldl (fun a x => a + x.scaled e0) 0
    if v = 0 then
      let n := if l.all Fl.neg? && !l.isEmpty then true
        else if l.all (fun x => !x.neg?) then false
        else rdn
      .fin n 0 0
    else .fin (decide (v < 0)) v.natAbs e0

/-- Order of two values that are not NaN: −1, 0 or 1; −0 equals +0. -/
def Fl.cmp (x y : Fl) : Int :=
  match x, y with
  | .inf a, .inf b => if a = b then 0 else if a then -1 else 1
  | .inf a, _ => if a then -1 else 1
  | _, .inf b => if b then 1 else -1
  | x, y =>
    let e := min x.expo y.expo
    let d := x.scaled e - y.scaled e
    if d < 0 then -1 else if 0 < d then 1 else 0

/-! ### Formats -/

/-- A floating-point format (04 R119, R120). -/
structure Format where
  ebits : Nat
  mbits : Nat
  bias : Nat
  deriving DecidableEq, Repr

/-- The format of a code 0 to 6 (04 R124); code 7 and above never reach it. -/
def format (c : Nat) : Format :=
  match c with
  | 0 => ⟨8, 23, 127⟩
  | 1 => ⟨8, 7, 127⟩
  | 2 => ⟨5, 10, 15⟩
  | 3 => ⟨4, 3, 7⟩
  | 4 => ⟨5, 2, 15⟩
  | 5 => ⟨2, 1, 1⟩
  | _ => ⟨8, 12, 127⟩

/-- Width in bits of a format code's encoding (04 R119, R118). -/
def codeWidth (c : Nat) : Nat :=
  match c with
  | 0 => 32 | 1 => 16 | 2 => 16 | 3 => 8 | 4 => 8 | 5 => 4 | 6 => 21 | 7 => 32
  | 8 => 8 | 9 => 16 | 10 => 32 | 11 => 64 | 12 => 8 | 13 => 16 | 14 => 32 | _ => 64

/-- Whether a code names a floating-point format. -/
def isFloat (c : Nat) : Bool := decide (c ≤ 6)

/-- Whether an integer code is signed. -/
def isSigned (c : Nat) : Bool := decide (8 ≤ c) && decide (c ≤ 11)

/-- The sign bit's place. -/
def Format.sign (f : Format) : Nat := f.ebits + f.mbits

/-- The magnitude code of the largest finite value (04 R120). -/
def maxCode (c : Nat) : Nat :=
  let f := format c
  match c with
  | 3 => 0x7E
  | 5 => 7
  | _ => (2 ^ f.ebits - 1) * 2 ^ f.mbits - 1

/-- The canonical NaN (04 R120, R121); +0 for E2M1X (R128). -/
def canonNan (c : Nat) : Nat :=
  let f := format c
  match c with
  | 3 => 0x7F
  | 5 => 0
  | _ => (2 ^ f.ebits - 1) * 2 ^ f.mbits + 2 ^ (f.mbits - 1)

/-- The exact value of a floating-point encoding (04 R119, R120, R122, R123). E2M1X code 0b1000 is not decoded by it and reads as
zero; the block readers replace it first. -/
def decodeFloat (c v : Nat) : Fl :=
  let f := format c
  let m := v % 2 ^ f.mbits
  let e := (v >>> f.mbits) % 2 ^ f.ebits
  let n := (v >>> f.sign) % 2 == 1
  let top : Bool := e == 2 ^ f.ebits - 1
  if c = 3 ∧ e = 15 ∧ m = 7 then .nan
  else if top && c != 3 && c != 5 then (if m = 0 then .inf n else .nan)
  else if e = 0 then .fin n m (1 - (f.bias : Int) - f.mbits)
  else .fin n (m + 2 ^ f.mbits) ((e : Int) - f.bias - f.mbits)

/-- The largest finite value of a format. -/
def maxFinite (c : Nat) : Fl := decodeFloat c (maxCode c)

/-- The value of an encoding of any code (04 R146 Decode). -/
def decodeNum (c v : Nat) : Fl :=
  if isFloat c then decodeFloat c v
  else if isSigned c then .ofInt (sext (codeWidth c) v)
  else .ofInt (v % 2 ^ codeWidth c)

/-! ### Rounding -/

/-- A rounding: mode code of R127, and for SR the bit count and the random value. -/
structure Rnd where
  mode : Nat
  r : Nat
  q : Nat
  deriving DecidableEq, Repr

/-- RNE. -/
def rne : Rnd := ⟨0, 0, 0⟩

/-- Whether the discarded part rem / 2^k of a magnitude with whole part `n` rounds it up (04 R127, R131). -/
def Rnd.up (rd : Rnd) (neg : Bool) (n rem k : Nat) : Bool :=
  match rd.mode with
  | 0 => decide (2 ^ k < 2 * rem) || (2 * rem == 2 ^ k && n % 2 == 1)
  | 1 => false
  | 2 => neg && rem != 0
  | 3 => !neg && rem != 0
  | 4 => decide (2 ^ k ≤ 2 * rem)
  | _ => decide (2 ^ rd.r ≤ rem * 2 ^ rd.r / 2 ^ k + rd.q)

/-- A magnitude m × 2^e rounded to a multiple of 2^q. -/
def roundTo (rd : Rnd) (neg : Bool) (m : Nat) (e q : Int) : Nat :=
  if q ≤ e then m <<< (e - q).toNat
  else
    let k := (q - e).toNat
    let n := m >>> k
    if rd.up neg n (m % 2 ^ k) k then n + 1 else n

/-- The sign put on a magnitude code; a zero of E2M1X is code 0 (04 R128). -/
def withSign (c : Nat) (neg : Bool) (mag : Nat) : Nat :=
  if neg && !(c == 5 && mag == 0) then mag + 2 ^ (format c).sign else mag

/-- ±∞ in a format under clip mode NONE (04 R128). -/
def infCode (c : Nat) (neg : Bool) : Nat :=
  match c with
  | 3 => canonNan 3
  | 5 => withSign 5 neg 7
  | _ => withSign c neg (maxCode c + 1)

/-- Round(x, fmt, rm, cm) for a floating-point format, after Clip (04 R128, R129, R131). -/
def roundFloat (c : Nat) (rd : Rnd) (cm : Nat) (x : Fl) : Nat :=
  let f := format c
  match x with
  | .nan => canonNan c
  | .inf n => if cm = 0 then infCode c n else withSign c n (maxCode c)
  | .fin n m e =>
    if m = 0 then withSign c n 0 else
      let qmin : Int := 1 - (f.bias : Int) - f.mbits
      let q := max qmin (e + (Nat.log2 m : Nat) - f.mbits)
      let k := roundTo rd n m e q
      let mag := (q - qmin).toNat * 2 ^ f.mbits + k
      if mag ≤ maxCode c then withSign c n mag
      else if rd.mode = 1 ∨ (rd.mode = 2 ∧ n = false) ∨ (rd.mode = 3 ∧ n = true) then withSign c n (maxCode c)
      else if cm = 0 then infCode c n else withSign c n (maxCode c)

/-- The FP32 bound of SYM, where it is one (04 R129): a NaN or infinite bound makes SYM act as SAT. -/
def symBound (c : Nat) : Option Fl := match decodeFloat 0 c with | .fin _ m e => some (.fin false m e) | _ => none

/-- Clip(x, cm, c) towards format `fmt` (04 R129). -/
def clip (fmt cm bound : Nat) (x : Fl) : Fl :=
  let sat : Fl := match x with
    | .inf n => if isFloat fmt then (match maxFinite fmt with | .fin _ m e => .fin n m e | y => y) else x
    | _ => x
  match cm with
  | 0 => x
  | 1 => sat
  | _ =>
    match symBound bound with
    | none => sat
    | some b =>
      match x with
      | .nan => .nan
      | .inf n => if n then b.negate else b
      | .fin n m e => if (Fl.fin false m e).cmp b = 1 then (if n then b.negate else b) else x

/-- The range of an integer code. -/
def intRange (c : Nat) : Int × Int :=
  let w := codeWidth c
  if isSigned c then (-(2 ^ (w - 1)), 2 ^ (w - 1) - 1) else (0, 2 ^ w - 1)

/-- An integer narrowed to a code's width, as its encoding. -/
def intCode (c : Nat) (v : Int) : Nat := (v % (2 : Int) ^ codeWidth c).toNat

/-- An integer limited to a code's range. -/
def saturate (c : Nat) (v : Int) : Int := max (intRange c).1 (min (intRange c).2 v)

/-- A value rounded to an integer (04 R130). -/
def roundInt (rd : Rnd) : Fl → Int
  | .fin n m e => let k := roundTo rd n m e 0; if n then -k else k
  | _ => 0

/-- Round to an integer type: rounded, then saturated; NaN gives 0, ±∞ the end of the range (04 R130). -/
def roundToInt (c : Nat) (rd : Rnd) (x : Fl) : Nat :=
  match x with
  | .nan => 0
  | .inf n => intCode c (if n then (intRange c).1 else (intRange c).2)
  | x => intCode c (saturate c (roundInt rd x))

/-- Round to any code, with the clip before it (04 R128 to R130, R133). Clip mode SYM does not limit a conversion between
integer types; there SAT and SYM saturate and NONE wraps, which the callers choose. -/
def roundNum (c : Nat) (rd : Rnd) (cm bound : Nat) (x : Fl) : Nat :=
  if isFloat c then roundFloat c rd cm (clip c cm bound x) else roundToInt c rd (clip c (if cm = 1 then 0 else cm) bound x)

/-- A rational p / q as a value that rounds as the rational does: its quotient to 2^−k with a sticky bit. -/
def ratio (neg : Bool) (p q : Nat) (k : Nat) : Fl :=
  let n := p <<< k
  .fin neg (2 * (n / q) + (if n % q = 0 then 0 else 1)) (-(k : Int) - 1)

/-- The integer square root by bits: `r` with r² ≤ n < (r + 1)² when n < 4^fuel. -/
def isqrt (n : Nat) : Nat → Nat → Nat
  | 0, r => r
  | b + 1, r => if (r + 2 ^ b) * (r + 2 ^ b) ≤ n then isqrt n b (r + 2 ^ b) else isqrt n b r

/-- The square root of a finite value that is not negative, as a value that rounds as the root does. -/
def flSqrt (m : Nat) (e : Int) : Fl :=
  let odd := e % 2 != 0
  let m := if odd then 2 * m else m
  let e := if odd then e - 1 else e
  let n := m <<< 80
  let r := isqrt n (Nat.log2 n / 2 + 1) 0
  .fin false (2 * r + (if r * r = n then 0 else 1)) (e / 2 - 41)

/-- The exact quotient of two finite values as a value that rounds to FP32 as the quotient does. -/
def flDiv (x y : Fl) : Fl :=
  match x, y with
  | .nan, _ => .nan
  | _, .nan => .nan
  | .inf _, .inf _ => .nan
  | .inf a, .fin b _ _ => .inf (a != b)
  | .fin a _ _, .inf b => .fin (a != b) 0 0
  | .fin a m e, .fin b n f =>
    if n = 0 then (if m = 0 then .nan else .inf (a != b))
    else match ratio (a != b) m n 400 with
      | .fin s k g => .fin s k (g + (e - f))
      | z => z

/-! ### FP32 -/

/-- FP32 of a pattern. -/
def f32 (v : W32) : Fl := decodeFloat 0 v.toNat

/-- FP32 rounding to a pattern under clip mode NONE. -/
def toF32 (rd : Rnd) (x : Fl) : W32 := BitVec.ofNat 32 (roundFloat 0 rd 0 x)

/-- BF16 rounding to a pattern under RNE. -/
def toBf16 (x : Fl) : BitVec 16 := BitVec.ofNat 16 (roundFloat 1 rne 0 x)

/-- FMin and FMax on encodings (04 R126): one NaN gives the other operand, two give the canonical NaN, −0 lies below
+0. -/
def fminmax (c : Nat) (mx : Bool) (a b : Nat) : Nat :=
  let x := decodeFloat c a
  let y := decodeFloat c b
  match x, y with
  | .nan, .nan => canonNan c
  | .nan, _ => b
  | _, .nan => a
  | x, y =>
    let o := x.cmp y
    let aLess : Bool := if o = 0 then x.neg? else decide (o < 0)
    if mx then (if aLess then b else a) else (if aLess then a else b)

/-- The floating-point conditions (09 R275): EQ, NE, LT, LE, GT, GE, UN, ORD. -/
def fcond (k : Nat) (x y : Fl) : Bool :=
  if x == .nan || y == .nan then k == 1 || k == 6
  else
    let o := x.cmp y
    match k with
    | 0 => o == 0
    | 1 => o != 0
    | 2 => decide (o < 0)
    | 3 => decide (o ≤ 0)
    | 4 => decide (0 < o)
    | 5 => decide (0 ≤ o)
    | 6 => false
    | _ => true

/-! ### Block scales -/

/-- 2^(b − 127) of a scale byte, NaN for 0xFF (04 R134). -/
def scaleVal (b : Byte) : Fl := if b = 0xFF then .nan else .fin false 1 ((b.toNat : Int) - 127)

/-- BlockVal (04 R134). -/
def blockVal (code fmt : Nat) (sb xb : Byte) : Fl :=
  (if fmt = 5 ∧ code % 16 = 8 then decodeFloat 3 xb.toNat else decodeFloat fmt code).mul (scaleVal sb)

/-! ### Random numbers -/

/-- One round of Philox-4x32-10 on counter words and keys (04 R140). -/
def philoxRound : Nat → W32 → W32 → W32 → W32 → W32 → W32 → W32 × W32 × W32 × W32
  | 0, x0, x1, x2, x3, _, _ => (x0, x1, x2, x3)
  | n + 1, x0, x1, x2, x3, y0, y1 =>
    let p0 : Word := 0xD2511F53#64 * x0.setWidth 64
    let p1 : Word := 0xCD9E8D57#64 * x2.setWidth 64
    philoxRound n (p1.extractLsb' 32 32 ^^^ x1 ^^^ y0) (p1.extractLsb' 0 32) (p0.extractLsb' 32 32 ^^^ x3 ^^^ y1)
      (p0.extractLsb' 0 32) (y0 + 0x9E3779B9#32) (y1 + 0xBB67AE85#32)

/-- Word `i` of Philox(key, ctr) (04 R140). -/
def philox (key : Word) (ctr : BitVec 128) (i : Nat) : W32 :=
  let r := philoxRound 10 (ctr.extractLsb' 0 32) (ctr.extractLsb' 32 32) (ctr.extractLsb' 64 32) (ctr.extractLsb' 96 32)
    (key.extractLsb' 0 32) (key.extractLsb' 32 32)
  match i % 4 with
  | 0 => r.1
  | 1 => r.2.1
  | 2 => r.2.2.1
  | _ => r.2.2.2

/-- Draw(key, ctr, i, r) (04 R140). -/
def drawBits (key : Word) (ctr : BitVec 128) (i r : Nat) : Nat := (philox key ctr i).toNat % 2 ^ r

/-- A counter: its tag in bits 127:120 and its fields (04 R141). -/
def counter (tag fields : Nat) : BitVec 128 := BitVec.ofNat 128 (tag * 2 ^ 120 + fields)

/-- The tag-0x01 counter of a lane; `hi` is bit 71 (04 R141). -/
def laneCounter (rctr : Word) (g l hi : Nat) : BitVec 128 :=
  counter 1 (rctr.toNat + (16 * g + l) * 2 ^ 64 + hi * 2 ^ 71)

/-! ### Elementary functions, for the bounds of 11 R323 and 13 R370

Values are integers in units of 2^-560. Each series is cut where its rest is below 2^-540, far below an ulp of FP32 and
below the distance of any value of these functions from a bound's end. -/

/-- Fraction bits. -/
def fixBits : Nat := 560

/-- One. -/
def fixOne : Int := 2 ^ fixBits

/-- A product. -/
def fixMul (a b : Int) : Int := a * b / fixOne

/-- A quotient. -/
def fixDiv (a b : Int) : Int := a * fixOne / b

/-- A finite FP32 value; exact. -/
def fixOf (x : Fl) : Int := x.scaled (-(fixBits : Int))

/-- atanh z for |z| ≤ 1/3. -/
def fixAtanh (z : Int) : Int :=
  let z2 := fixMul z z
  fixMul z ((List.range 180).foldl (fun a i => fixOne / (2 * (180 - i : Nat) - 1) + fixMul z2 a) 0)

/-- ln 2. -/
def fixLn2 : Int := 2 * fixAtanh (fixOne / 3)

/-- atan (1/q). -/
def fixAtanInv (q : Nat) : Int :=
  (List.range 130).foldl (fun a i => fixOne / (2 * (130 - i : Nat) - 1) - a / (q * q)) 0 / q

/-- π, by Machin's sum. -/
def fixPi : Int := 16 * fixAtanInv 5 - 4 * fixAtanInv 239

/-- e^r for 0 ≤ r < 1. -/
def fixExp1 (r : Int) : Int := (List.range 120).foldl (fun a i => fixOne + fixMul r a / (120 - i : Nat)) fixOne

/-- A value times 2^n. -/
def fixShift (a : Int) (n : Int) : Int := if 0 ≤ n then a * 2 ^ n.toNat else a / 2 ^ (-n).toNat

/-- e^y for |y| ≤ 300. -/
def fixExp (y : Int) : Int :=
  let n := y / fixLn2
  fixShift (fixExp1 (y - n * fixLn2)) n

/-- sin r for 0 ≤ r < 2. -/
def fixSin (r : Int) : Int :=
  let r2 := fixMul r r
  fixMul r ((List.range 70).foldl (fun a i =>
    let k : Nat := 70 - i
    fixOne - fixMul r2 a / (2 * k * (2 * k + 1))) fixOne)

/-- cos r for 0 ≤ r < 2. -/
def fixCos (r : Int) : Int :=
  let r2 := fixMul r r
  (List.range 70).foldl (fun a i =>
    let k : Nat := 70 - i
    fixOne - fixMul r2 a / (2 * k * (2 * k - 1))) fixOne

/-- sin or cos of a value, reduced by π/2. -/
def fixTrig (cosine : Bool) (x : Int) : Int :=
  let h := fixPi / 2
  let n := x / h
  let r := x - n * h
  match (n + if cosine then 1 else 0) % 4 with
  | 0 => fixSin r
  | 1 => fixCos r
  | 2 => -fixSin r
  | _ => -fixCos r

/-- 1/(1 + e^−x); where x lies beyond ±300, a value within 2^-400 on the right side of its limit. -/
def fixSigm (x : Int) : Int :=
  if 300 * fixOne ≤ x then fixOne - 1
  else if x ≤ -300 * fixOne then 1
  else if 0 ≤ x then fixDiv fixOne (fixOne + fixExp (-x))
  else
    let e := fixExp x
    fixDiv e (fixOne + e)

/-- The functions of 11 R323 by opcode, and SILU's derivative (13 R370) as number 0: their value at a finite x. -/
def fixFn (fn : Nat) (v : Fl) : Int :=
  let x := fixOf v
  match fn with
  | 0x0C =>
    if x ≤ -500 * fixOne then 0
    else
      let n := x / fixOne
      fixShift (fixExp1 (fixMul (x - n * fixOne) fixLn2)) n
  | 0x0D => match v with
    | .fin _ m e =>
      let l := Nat.log2 m
      let y : Int := fixShift (m * fixOne) (-(l : Int))
      ((l : Int) + e) * fixOne + fixDiv (2 * fixAtanh (fixDiv (y - fixOne) (y + fixOne))) fixLn2
    | _ => 0
  | 0x0E => fixTrig false x
  | 0x0F => fixTrig true x
  | 0x10 =>
    let a : Int := if 100 * fixOne ≤ x.natAbs then fixOne - 1
      else
        let e := fixExp (2 * x.natAbs)
        fixDiv (e - fixOne) (e + fixOne)
    if x < 0 then -a else a
  | 0x11 => fixSigm x
  | 0x12 => if 300 * fixOne ≤ x then x - 1 else if x ≤ -300 * fixOne then -1 else fixMul x (fixSigm x)
  | _ =>
    if 300 * fixOne ≤ x then fixOne + 1
    else if x ≤ -300 * fixOne then -1
    else
      let s := fixSigm x
      fixMul s (fixOne + fixMul x (fixOne - s))

/-- What a function's FP32 error may be (11 R323, 13 R370). -/
def fixBound (fn : Nat) (x a : Int) : Int :=
  let lg : Int := (Nat.log2 a.natAbs : Int) - fixBits
  let ulp : Int := fixShift fixOne (max (lg - 23) (-149))
  let floor (b : Nat) : Int := fixShift fixOne (-(b : Int))
  match fn with
  | 0x0D => if fixOne ≤ 2 * x ∧ x ≤ 2 * fixOne then floor 22 else 2 * ulp
  | 0x0E => max (2 * ulp) (floor 24)
  | 0x0F => max (2 * ulp) (floor 24)
  | 0x12 => 3 * ulp
  | 0 => 3 * ulp
  | _ => 2 * ulp

/-- A function's FP32 value at a finite x: the free value where it keeps the bound, else the nearest value (logs 10, 12). -/
def boundedFn (fn : Nat) (v : Fl) (free : W32) : W32 :=
  let a := fixFn fn v
  let ok := match f32 free with
    | .fin n m e => decide ((fixOf (.fin n m e) - a).natAbs ≤ (fixBound fn (fixOf v) a).natAbs)
    | _ => false
  if ok then free else toF32 rne (.fin (decide (a < 0)) a.natAbs (-(fixBits : Int)))

end Sys2Proof.Machine
end

