-- ==== Sys2Proof/Machine/Operands.lean ====
section
/-! DEFINITION. Every operand form: scalar, predicate, iterator, vector and mask registers as a word names them,
immediates and displacements, effective addresses, rounding and clip modes, and results. -/

namespace Sys2Proof.Machine

/-- The outcomes of a step. -/
abbrev Out := Host.Outcome State Fault Refusal

/-! ### Scalars and predicates -/

/-- The physical register a scalar name stands for: names s48 to s(47 + SR) rotate in a loop iteration (07 R197). -/
def State.sname (s : State) (n : Nat) : Nat :=
  match s.ctx.seq, s.issue.iter with
  | some q, some i => if 48 ≤ n ∧ n < 48 + q.sr then 48 + (n - 48 + i) % q.sr else n
  | _, _ => n

/-- A scalar register at issue; s0 reads 0 (02 R43). -/
def State.sreg (s : State) (n : Nat) : Word := if n = 0 then 0 else NatMap.get 0 s.ctx.regs.s (s.sname n)

/-- A scalar register holds poison (02 R77). -/
def State.spois (s : State) (n : Nat) : Bool := n != 0 && NatMap.get false s.ctx.regs.spoison (s.sname n)

/-- A predicate at issue; k0 reads 1 (02 R43). -/
def State.kreg (s : State) (n : Nat) : Bool := n == 0 || NatMap.get false s.ctx.regs.k n

/-- The word's predicate (08 R220). -/
def State.pred (s : State) : Bool := s.kreg s.env.pred.toNat

/-- A word of a scalar class: with a false predicate it takes no effect at all (08 R220). -/
def State.scalar (s : State) (f : State → State) : Out := .next (if s.pred then f s else s)

/-- A word that consumes scalar registers: a poisoned one raises MCHK before anything else (02 R78, 18 R411). -/
def State.consume (s : State) (l : List Nat) (f : State → State) : State := if l.any s.spois then s.trapMchk else f s

/-- A scalar result at its latency. -/
def State.oweS (s : State) (d : Nat) (v : Word) (poison : Bool) (lat : Nat) (exact : Bool) : State :=
  s.owe ⟨.sreg (s.sname d), v.setWidth 512, 1, if poison then 1 else 0, lat, exact⟩

/-- A predicate result at latency 1. -/
def State.oweK (s : State) (d : Nat) (b : Bool) (exact : Bool) : State :=
  s.owe ⟨.kreg d, if b then 1 else 0, 1, 0, 1, exact⟩

/-! ### Immediates -/

/-- A w-bit immediate field, extended by IMX where the word has it (08 R225). -/
def State.imm (s : State) {w : Nat} (f : BitVec w) : Int :=
  match s.env.pfx.imx with
  | some h => sext (w + 26) (h.toNat * 2 ^ w + f.toNat)
  | none => sext w f.toNat

/-- An integer as a 64-bit word, modulo 2^64. -/
def wordOf (i : Int) : Word := BitVec.ofInt 64 i

/-! ### Iterators and addresses -/

/-- An iterator. -/
def State.iter (s : State) (j : Nat) : Iter := NatMap.get .reset s.ctx.regs.a j

/-- The digits of an iteration number over the level counts, innermost first (07 R199). -/
def digits : List Nat → Nat → List Nat
  | [], _ => []
  | n :: ns, i => (if n = 0 then 0 else i % n) :: digits ns (if n = 0 then 0 else i / n)

/-- Level indices and level counts of a word: all 0 outside loops (07 R199); where the manual gives no count the count is 1
(log 63). -/
def State.levels (s : State) : List (Nat × Nat) :=
  match s.ctx.seq, s.issue.iter with
  | some q, some i => (digits q.ns i).zip q.ns
  | _, _ => [(0, 1), (0, 1), (0, 1), (0, 1)]

/-- The iterator address of a memory operand (07 R199). -/
def State.iterAddr (s : State) (j : Nat) : Word :=
  let a := s.iter j
  let strs := [a.str0, a.str1, a.str2, a.str3]
  (s.levels.zip strs).foldl (fun acc x =>
    let idx : Nat := if a.dir then x.1.2 - 1 - x.1.1 else x.1.1
    acc + wordOf ((idx : Int) * x.2.toInt)) a.base

/-- A 7-bit BASE field: s0 to s63, then a0 to a15 (08 R222). -/
def State.base7 (s : State) (b : Nat) : Word := if b < 64 then s.sreg b else s.iterAddr (b - 64)

/-- A 6-bit BASE field: s0 to s47, then a0 to a15 (08 R222). -/
def State.base6 (s : State) (b : Nat) : Word := if b < 48 then s.sreg b else s.iterAddr (b - 48)

/-- The scalar register a BASE field consumes, if it is one. -/
def baseRegs (limit b : Nat) : List Nat := if b < limit then [b] else []

/-- An effective address: base plus displacement modulo 2^64 (10 R280). -/
def ea (base : Word) (disp : Int) : Nat := (base + wordOf disp).toNat

/-! ### Vectors and masks -/

/-- The lane group of a class V word's slot. -/
def State.group (s : State) : Nat := s.env.pos.toNat - 9

/-- VWB.BASE as a word's names see it (02 R46, 07 R197). -/
def State.vbase (s : State) : Nat :=
  match s.ctx.seq, s.issue.iter with
  | some q, some i => (q.base0 + i * q.vr) % 1024
  | some q, none => q.base0
  | none, _ => bits s.ctx.c.vwb 0 10

/-- The absolute register of a window name (02 R46). -/
def State.vwin (s : State) (n : Nat) : Nat := (s.vbase + n) % 1024

/-- A lane of a vector register at issue. -/
def State.vlane (s : State) (g r l : Nat) : W32 := NatMap.get 0 s.ctx.regs.v (vkey g r l)

/-- A lane is poisoned. -/
def State.vpois (s : State) (g r l : Nat) : Bool := NatMap.get false s.ctx.regs.vpoison (vkey g r l)

/-- A mask at issue; m0 reads all ones (02 R43). -/
def State.mreg (s : State) (g n : Nat) : BitVec 16 := if n = 0 then 0xFFFF else NatMap.get 0 s.ctx.regs.m (16 * g + n)

/-- The lanes a class V word enables (11 R316). -/
def State.lanes (s : State) : BitVec 16 := s.mreg s.group s.env.pred.toNat

/-- Element `e` of a lane, `w` bits wide (11 R315). -/
def elem (w : Nat) (v : W32) (e : Nat) : Nat := nbits v.toNat (w * e) w

/-- A lane made of its elements. -/
def ofElems (w : Nat) (f : Nat → Nat) : W32 :=
  BitVec.ofNat 32 ((List.range (32 / w)).foldl (fun a e => a + (f e % 2 ^ w) * 2 ^ (w * e)) 0)

/-- A register made of its lanes. -/
def ofLanes (f : Nat → W32) : BitVec 512 :=
  (List.range 16).foldr (fun l a => (a <<< 32) ||| (f l).setWidth 512) 0

/-- A vector result at its latency: only enabled lanes are written (08 R220). -/
def State.oweV (s : State) (g r : Nat) (val : BitVec 512) (lanes poison : BitVec 16) (lat : Nat) : State :=
  s.owe ⟨.vreg g r, val, lanes, poison, lat, false⟩

/-- A mask result at latency 1. -/
def State.oweM (s : State) (g n : Nat) (v lanes : BitVec 16) (exact : Bool) : State :=
  s.owe ⟨.mreg g n, v.setWidth 512, lanes, 0, 1, exact⟩

/-- The lanes of a set as numbers. -/
def laneList (m : BitVec 16) : List Nat := (List.range 16).filter fun l => m.getLsbD l

/-- A class V word that consumes registers in its enabled lanes: a poisoned lane raises MCHK (11 R319). -/
def State.consumeV (s : State) (regs : List Nat) (lanes : BitVec 16) (f : State → State) : State :=
  if (laneList lanes).any fun l => regs.any fun r => s.vpois s.group r l then s.trapMchk else f s

/-- The lane groups a GM field names, in order (10 R288). -/
def groups (gm : Nat) : List Nat := (List.range 8).filter fun g => nbits gm g 1 == 1

/-! ### FMT, rounding and clipping -/

/-- AFMT, BFMT, OFMT (07 R211). -/
def fmtA (f : Word) : Nat := bits f 0 4
/-- See `fmtA`. -/
def fmtB (f : Word) : Nat := bits f 4 4
/-- See `fmtA`. -/
def fmtO (f : Word) : Nat := bits f 8 4
/-- ACCM: narrow accumulate. -/
def fmtNarrow (f : Word) : Bool := f.getLsbD 12
/-- RM. -/
def fmtRm (f : Word) : Nat := bits f 13 3
/-- CM. -/
def fmtCm (f : Word) : Nat := bits f 16 2
/-- SRB. -/
def fmtSrb (f : Word) : Nat := bits f 18 5

/-- The rounding mode code and random-bit count of a word: its RND prefix, code 6 standing for FMT, else FMT (11 R318,
08 R225). -/
def roundMode (p : Pfx) (fmt : Word) : Nat × Nat :=
  match p.rnd with
  | some (c, r) => if c = 6 then (fmtRm fmt, fmtSrb fmt) else (c.toNat, r.toNat)
  | none => (fmtRm fmt, fmtSrb fmt)

/-- The rounding of a scalar operation: SR acts as RNE (09 R274). -/
def State.scalarRnd (s : State) : Rnd :=
  let m := (roundMode s.env.pfx s.ctx.c.fmt).1
  ⟨if m = 5 then 0 else m, 0, 0⟩

/-- The rounding of element `e` of a lane in a class V operation (11 R318). -/
def State.vecRnd (s : State) (g l e : Nat) : Rnd :=
  let m := roundMode s.env.pfx s.ctx.c.fmt
  if m.1 = 5 then ⟨5, m.2, drawBits s.ctx.c.rkey (laneCounter s.ctx.c.rctr g l 0) e m.2⟩ else ⟨m.1, 0, 0⟩

/-- Whether a class V word that rounds draws: SR in force and a lane enabled (11 R318). -/
def State.vecDraws (s : State) : Bool := (roundMode s.env.pfx s.ctx.c.fmt).1 == 5 && s.lanes != 0

/-- A word that draws under RKEY marks its bundle (04 R142). -/
def State.markDraw (s : State) (b : Bool) : State := { s with issue := { s.issue with drew := s.issue.drew || b } }

/-- Clip mode and FP32 bound of a word: its SAT prefix, else FMT.CM, where SYM acts as SAT (11 R318, 09 R276, 08 R225). -/
def clipMode (p : Pfx) (fmt : Word) : Nat × Nat :=
  match p.sat with
  | some (m, cb) => (m.toNat, cb.toNat * 128)
  | none => (if fmtCm fmt = 2 then 1 else fmtCm fmt, 0)

/-- The clip mode and bound of the word at hand. -/
def State.clipOf (s : State) : Nat × Nat := clipMode s.env.pfx s.ctx.c.fmt

/-- Whether a SAT prefix asks an integer operation to saturate (09 R269). -/
def State.satInt (s : State) : Bool := match s.env.pfx.sat with | some (m, _) => m != 0 | none => false

/-- An exact integer result narrowed to a code: saturated under SAT or SYM, else wrapped (09 R269, 11 R322). -/
def State.narrow (s : State) (c : Nat) (v : Int) : Nat := intCode c (if s.satInt then saturate c v else v)

/-! ### Local addresses -/

/-- A local access of `n` bytes at a computed address raises SCRATCH_RANGE: bits above 23 set, past the window, or in an
absent bank group (01 R15, R17). -/
def State.localBad (s : State) (a n : Nat) : Bool :=
  if 0x1000000 ≤ a ∨ 0x1000000 < a + n then true
  else (List.range ((a + n - 1) / 0x400000 - a / 0x400000 + 1)).any fun i =>
    !s.clu.atcap.getLsbD (a / 0x400000 + i)

/-- An address names the local window of a long instruction: bits 63:24 all zero (10 R280). -/
def isLocal (a : Nat) : Bool := decide (a < 0x1000000)

/-- DETAIL of ALIGN: the slot position (18 R410). -/
def State.alignDetail (s : State) : BitVec 16 := BitVec.ofNat 16 s.env.pos.toNat

/-- A core watchpoint matches bytes `a` to `a + n − 1` for a kind of access: 1 loads, 2 stores, 3 fetch (18 R420, R421). -/
def State.watches (s : State) (kind a n : Nat) : Option Nat :=
  if s.ctx.noWatch then none else
    (List.range 4).find? fun w =>
      let c := NatMap.get wpcReset s.ctx.c.wpc w
      let len := 2 ^ max 3 (min 30 (bits c 26 6))
      let base := (NatMap.get 0 s.ctx.c.wpa w).toNat / len * len
      c.getLsbD 0 && c.getLsbD kind && (!s.inh || c.getLsbD 7) && decide (base < a + n) && decide (a < base + len)

/-- The checks of a memory word's ranges in R411's order within a slot: ALIGN, then SCRATCH_RANGE and NONCANON, then
WATCH; a range that ends beyond 2^52 is not canonical (01 R39). Each range is its address, its bytes, its alignment, whether it must be local, and the watch kind. -/
def State.checkMem (s : State) (l : List (Nat × Nat × Nat × Bool × Nat)) (f : State → State) : State :=
  if l.any fun x => x.1 % x.2.2.1 != 0 then s.trapBefore alignCause s.alignDetail 0
  else match l.find? fun x => if x.2.2.2.1 || isLocal x.1 then s.localBad x.1 x.2.1 else decide (2 ^ 52 < x.1 + x.2.1) with
    | some x =>
      if x.2.2.2.1 || isLocal x.1 then s.trapBefore scratchRange 0 x.1 else s.trapBefore 0x08 3 (max x.1 (2 ^ 52))
    | none =>
      match l.findSome? fun x => s.watches x.2.2.2.2 x.1 x.2.1 with
      | some w => s.trapBefore watchCause (BitVec.ofNat 16 (w + 16 * s.env.pos.toNat)) 0
      | none => f s

/-- The latency of a local load: steppings A0 and B0 (07 R213); in interlocked compatibility mode that of the stepping the
code is scheduled for, the interlock covering the difference (19 R433). -/
def State.lat (s : State) (a0 b0 : Nat) : Nat :=
  match s.ctx.icm with
  | some b => if b then b0 else a0
  | none => if s.stepping then b0 else a0

end Sys2Proof.Machine
end

