-- ==== Sys2Proof/Machine/Flags.lean ====
section
/-! DEFINITION. Conditions, the control registers by number, and their writes taking effect (08 R224, 09 R249, R260,
R266, 07 R202, R211). -/

namespace Sys2Proof.Machine

/-- The integer conditions of CMP and CMPI (08 R224). -/
def icond (c : Nat) (a b : Word) : Bool :=
  match c with
  | 0 => a == b
  | 1 => a != b
  | 2 => a.slt b
  | 3 => a.sle b
  | 4 => b.slt a
  | 5 => b.sle a
  | 6 => a.ult b
  | 7 => a.ule b
  | 8 => b.ult a
  | _ => b.ule a

/-- The conditions of VICMP on exact integers (11 R326): EQ, NE, LT, LE, GT, GE. -/
def icondInt (c : Nat) (a b : Int) : Bool :=
  match c with
  | 0 => a == b
  | 1 => a != b
  | 2 => decide (a < b)
  | 3 => decide (a ≤ b)
  | 4 => decide (b < a)
  | _ => decide (b ≤ a)

/-! ### Lock-step groups -/

/-- The contexts that are members of a context's group (07 R191): same tenant and group number, IN set. -/
def State.memberIds (s : State) (tid grp : Nat) : List Nat :=
  let all := s.cur :: s.ctxs.map Prod.fst
  all.filter fun id =>
    let c := s.getCtx id
    c.c.gid.getLsbD 9 && bits c.c.gid 0 8 == grp && s.tidOf c == tid

/-- The ring distance of two compute dies. -/
def ringDist (a b : Nat) : Nat := min ((a + 8 - b) % 8) ((b + 8 - a) % 8)

/-- Two compute dies have a near hub in common (00 R2). -/
def shareHub (a b : Nat) : Bool := (List.range 2).any fun i => (List.range 2).any fun j =>
  Config.nearHub a i == Config.nearHub b j

/-- The fewest die-to-die segments between two compute dies (01 R32). -/
def dieSegments (a b : Nat) : Nat :=
  if a = b then 0
  else if ringDist a b = 1 then 1
  else if ringDist a b = 2 || shareHub a b then 2
  else if ringDist a b = 3 || shareHub ((a + 1) % 8) b || shareHub ((a + 7) % 8) b then 3
  else 4

/-- GSK as it is in force: at least 10 ticks for each segment to the member on the lowest core number (07 R193, 09
R254). -/
def State.gskValue (s : State) : Word :=
  let g := s.ctx.c.gid
  let own := bits s.ctx.c.gsk 0 6
  if g.getLsbD 9 then
    let low := (s.memberIds (s.tidOf s.ctx) (bits g 0 8)).foldl (fun a id => min a (id / 4)) s.coreId
    wd (max own (10 * dieSegments (s.coreId / 128) (low / 128)))
  else wd own

/-! ### Control registers -/

/-- OPS of the cluster (07 R209). -/
def Oper.word (o : Oper) : Word :=
  wd (o.cur + o.tgt * 16 + (if o.settling then 512 else 0) + (o.queued.getD 0) * 1024 +
    (if o.queued.isSome then 8192 else 0))

/-- RAMPn of a cluster, the table of R208 where it was never written. -/
def ClusterState.rampOf (c : ClusterState) (n : Nat) : Word :=
  NatMap.get (wd (Config.rampReset n * 65536 + Config.rampReset n)) c.ramp n

/-- The value in force of a control register (09 R266). -/
def State.creg (s : State) (n : Nat) : Word :=
  let c := s.ctx.c
  match n with
  | 0x00 => c.vcc | 0x01 => c.fmt | 0x02 => c.bal | 0x03 => c.wal | 0x04 => c.flg | 0x05 => c.snap | 0x06 => c.txs
  | 0x07 => wd s.vbase
  | 0x08 => c.rkey | 0x09 => c.rctr | 0x0A => c.tcause | 0x0B => c.tbund | 0x0C => c.tnext | 0x0D => c.tvec
  | 0x0E => c.gid
  | 0x0F => s.gskValue
  | 0x10 => c.ecnt | 0x11 => c.htc | 0x12 => c.lid
  | 0x20 => s.clu.oper.word
  | 0x21 => s.clu.ceil
  | 0x22 => s.clu.atcap
  | 0x23 => s.clu.fillc
  | 0x28 => s.clu.rampOf 0 | 0x29 => s.clu.rampOf 1 | 0x2A => s.clu.rampOf 2 | 0x2B => s.clu.rampOf 3
  | 0x2C => s.clu.rampOf 4 | 0x2D => s.clu.rampOf 5 | 0x2E => s.clu.rampOf 6 | 0x2F => s.clu.rampOf 7
  | 0x40 => NatMap.get 0 c.wpa 0 | 0x41 => NatMap.get 0 c.wpa 1
  | 0x42 => NatMap.get 0 c.wpa 2 | 0x43 => NatMap.get 0 c.wpa 3
  | 0x44 => NatMap.get wpcReset c.wpc 0 | 0x45 => NatMap.get wpcReset c.wpc 1
  | 0x46 => NatMap.get wpcReset c.wpc 2 | 0x47 => NatMap.get wpcReset c.wpc 3
  | _ => 0

/-- The bits of a WPC register that software writes (18 R420). -/
def wpcMask : Word := 0xFC00008F

/-- A control-register write taking effect: only its RW fields change; a read-only register ignores it (09 R266). -/
def CRegs.put (c : CRegs) (n : Nat) (v : Word) : CRegs :=
  match n with
  | 0x01 => { c with fmt := v &&& 0x7FFFFF }
  | 0x02 => { c with bal := v &&& 0x3FF }
  | 0x03 => { c with wal := v &&& 0x1FFF }
  | 0x04 => { c with flg := v &&& 0xFFFFFFFF }
  | 0x07 => { c with vwb := v &&& 0x3FF }
  | 0x08 => { c with rkey := v }
  | 0x09 => { c with rctr := v }
  | 0x0C => { c with tnext := v &&& 0xFFFFFFFFFFFFC }
  | 0x0D => { c with tvec := v &&& 0xFFFFFFFFFFFFC }
  | 0x0F => { c with gsk := v &&& 0x3F }
  | 0x40 => { c with wpa := NatMap.set 0 c.wpa 0 v }
  | 0x41 => { c with wpa := NatMap.set 0 c.wpa 1 v }
  | 0x42 => { c with wpa := NatMap.set 0 c.wpa 2 v }
  | 0x43 => { c with wpa := NatMap.set 0 c.wpa 3 v }
  | 0x44 => { c with wpc := NatMap.set wpcReset c.wpc 0 (v &&& wpcMask) }
  | 0x45 => { c with wpc := NatMap.set wpcReset c.wpc 1 (v &&& wpcMask) }
  | 0x46 => { c with wpc := NatMap.set wpcReset c.wpc 2 (v &&& wpcMask) }
  | 0x47 => { c with wpc := NatMap.set wpcReset c.wpc 3 (v &&& wpcMask) }
  | _ => c

/-- The bundles between a CWR and its effect: 4 for FMT, BAL and WAL, else 1 (09 R266). -/
def settingDelay (n : Nat) : Nat := if n = 1 ∨ n = 2 ∨ n = 3 then 4 else 1

/-- A control-register write waiting for its bundle. -/
def State.set (s : State) (n : Nat) (v : Word) : State :=
  { s with ctx := { s.ctx with settings := s.ctx.settings ++ [⟨n, v, settingDelay n⟩] } }

/-- The waiting writes that are due take effect in issue order (07 R202): those whose register `p` names. -/
def State.settle (s : State) (p : Nat → Bool) : State :=
  let due := s.ctx.settings.filter fun x => x.left == 0 && p x.creg
  let rest := s.ctx.settings.filter fun x => !(x.left == 0 && p x.creg)
  { s with ctx := { s.ctx with settings := rest, c := due.foldl (fun c x => c.put x.creg x.val) s.ctx.c } }

/-- Whether a value may be written to FMT (07 R211): no reserved bit, and the field values of `fmtOk`. -/
def fmtWordOk (v : Word) : Bool :=
  let code (n : Nat) : Bool := n != 7
  decide (v.toNat < 2 ^ 23) && code (fmtA v) && code (fmtB v) && code (fmtO v) && decide (fmtRm v ≤ 5) && fmtCm v != 3

/-- A flag bit of a context's FLG set, by a barrier flip or FLGSET (09 R249, R265). -/
def Context.setFlag (c : Context) (f : Nat) : Context :=
  { c with c := { c.c with flg := c.c.flg ||| (1#64 <<< f) } }

/-! ### Issue order of READY contexts -/

/-- A context becomes READY as the youngest of its core (07 R187). -/
def State.makeReady (s : State) (id : Nat) : State :=
  let k := s.getCore (id / 4)
  let s := s.setCore (id / 4) { k with nextReady := k.nextReady + 1 }
  s.modCtx id fun c => { c with st := .ready, readyAt := k.nextReady }

/-- The contexts of a core that may issue: only the lock-step member where there is one (07 R191). -/
def State.issuable (s : State) (core : Nat) : List Nat :=
  let l := (List.range 4).map (fun x => 4 * core + x)
  match l.find? fun id => (s.getCtx id).c.gid.getLsbD 9 with
  | some id => [id]
  | none => l

/-- The READY context of a core that became READY first (07 R187). -/
def State.oldestReady (s : State) (core : Nat) : Option Nat :=
  let l := s.issuable core
  (l.filter fun id => (s.getCtx id).st == .ready).foldl (fun a id => match a with
    | none => some id
    | some b => if (s.getCtx id).readyAt < (s.getCtx b).readyAt then some id else some b) none

/-- The core of the focused context selects the oldest READY context, which becomes the focused one (07 R187). -/
def State.switch (s : State) : State :=
  match s.oldestReady s.coreId with
  | none => s
  | some id => (s.modCtx id fun c => { c with st := .issuing }).focus id

/-- A context that cannot go on leaves its core to the oldest READY one, unless it is a lock-step member (07 R186, R187,
R191). -/
def State.leave (s : State) : State :=
  if s.ctx.st == .issuing || s.ctx.c.gid.getLsbD 9 then s else s.switch

/-- A core whose issuing context has left selects the oldest READY context, if there is one; its clock was gated, so it
issues from the next tick on (07 R187, 14 R383). -/
def State.wakeCore (s : State) (core : Nat) : State :=
  let l := (List.range 4).map (fun x => 4 * core + x)
  if l.any fun id => (s.getCtx id).st == .issuing then s
  else match s.oldestReady core with
    | none => s
    | some id =>
      let k := s.getCore core
      (s.setCore core { k with ticks := k.ticks ++ [((s.getClu (core / 8)).tick, 0)] }).modCtx id fun c =>
        { c with st := .issuing }

/-- The WAIT of a context whose flag is set completes (09 R249): it becomes READY, or, as a lock-step member, goes on. -/
def State.waitOver (s : State) (id : Nat) : State :=
  let c := s.getCtx id
  match c.st with
  | .waiting f clr _ =>
    if c.c.flg.getLsbD f then
      let s := s.setCtx id (if clr then { c with c := { c.c with flg := c.c.flg &&& ~~~ (1#64 <<< f) } } else c)
      if c.c.gid.getLsbD 9 then s.modCtx id fun c => { c with st := .issuing }
      else (s.makeReady id).wakeCore (id / 4)
    else s
  | _ => s

/-! ### The cluster's ticks (07 R204 to R210, 14 R384) -/

/-- The filler core `i` receives of a deficit (14 R384). -/
def fillerShare (d i : Nat) : Nat :=
  let q := d / 32 * 4
  if i < (d - 8 * q) / 4 then q + 4 else q

/-- The deficit of a step, rounded up to a multiple of 4 wu: what filler makes up (07 R207, 14 R384). -/
def ClusterState.deficit (c : ClusterState) : Nat :=
  (c.slew.prev - bits (c.rampOf c.oper.cur) 16 16 - c.slew.p + 3) / 4 * 4

/-- The filler of a step's last tick, over the cluster's eight cores (07 R207). -/
def ClusterState.filler (c : ClusterState) : Nat := ((List.range 8).map (fillerShare c.deficit)).foldl (· + ·) 0

/-- The end of a step: filler is issued and counted, and the step's weight stands as the last one's (07 R205, R207). -/
def ClusterState.endStep (c : ClusterState) : ClusterState :=
  { c with fillc := c.fillc + wd c.filler, slew := ⟨0, c.slew.p + c.filler⟩ }

/-- The adjacent step from the point in force toward a target begins: it runs at the lower of its two frequencies (07
R208). -/
def Oper.begin (o : Oper) (tick tgt : Nat) (byMgmt : Bool) : Oper :=
  if o.cur = tgt then { o with tgt := tgt, settling := false, byMgmt := false, step := tgt }
  else
    let next := if o.cur < tgt then o.cur + 1 else o.cur - 1
    let low := min o.cur next
    { o with cur := low, tgt := tgt, settling := true, byMgmt := byMgmt, step := next
             due := tick + Config.settleTicks low }

/-- What follows at a point that has been reached: the next adjacent step toward the target; at the target the transition
ends, and a target that OPSET queued begins, unless the die is held at OP0. -/
def Oper.onward (o : Oper) (tick : Nat) : Oper :=
  if o.cur = o.tgt then
    let o := o.begin tick o.tgt false
    match o.queued, o.back with
    | some q, none => { o with queued := none }.begin tick q false
    | _, _ => o
  else o.begin tick o.tgt o.byMgmt

/-- The adjacent step in progress has settled; a management target that waits takes over at the point reached. -/
def Oper.settled (o : Oper) (tick : Nat) : Oper :=
  let o := { o with cur := o.step }
  match o.mgmt with
  | some t => { o with mgmt := none, tgt := t, byMgmt := true }.onward tick
  | none => o.onward tick

/-- One tick of a cluster passes: steps are 4 ticks (07 R205), a CEIL write applies (07 R204), requests that lost a bank are
made again (02 R53), and a settling that has lasted its ticks ends (07 R208). -/
def ClusterState.pass (c : ClusterState) : ClusterState :=
  let c := if c.tick % 4 = 3 then c.endStep else c
  let c := { c with tick := c.tick + 1, denied := [], ceil := c.ceilNew.getD c.ceil, ceilNew := none }
  if c.oper.settling && decide (c.oper.due ≤ c.tick) then { c with oper := c.oper.settled c.tick } else c

/-- A core has issued in its cluster's present tick, or its clock was gated when the tick began. -/
def State.issuedIn (s : State) (core : Nat) : Bool := (s.getCore core).ticks.any fun x => x.1 == (s.getClu (core / 8)).tick

/-- The focused core has issued in its cluster's present tick. -/
def State.issuedNow (s : State) : Bool := s.core.ticks.any fun x => x.1 == s.clu.tick

end Sys2Proof.Machine
end

