-- ==== Sys2Proof/Machine/Scalar.lean ====
section
/-! DEFINITION. The meanings of class S: scalar arithmetic, compares, floating point, iterators and the random draw (09
R267 to R278). Each reads its operands at issue and owes its result at the latency of 07 R213. -/

namespace Sys2Proof.Machine

/-! ### Shared shapes -/

/-- A two-source operation that consumes both. -/
def State.alu2 (s : State) (d a b : BitVec 6) (lat : Nat) (f : Word → Word → Word) : Out :=
  s.scalar fun s => s.consume [a.toNat, b.toNat] fun s =>
    s.oweS d.toNat (f (s.sreg a.toNat) (s.sreg b.toNat)) false lat false

/-- A one-source operation that consumes it. -/
def State.alu1 (s : State) (d a : BitVec 6) (f : Word → Word) : Out :=
  s.scalar fun s => s.consume [a.toNat] fun s => s.oweS d.toNat (f (s.sreg a.toNat)) false 1 false

/-- An exact signed result: saturated to i64 under SAT or SYM, else wrapped (09 R269). -/
def satI64 (sat : Bool) (v : Int) : Word := wordOf (if sat then saturate 11 v else v)

/-- Number of leading zero bits, 64 for 0. -/
def clz64 (a : Word) : Nat := if a = 0 then 64 else 63 - Nat.log2 a.toNat

/-- Number of trailing zero bits, 64 for 0. -/
def ctz64 (a : Word) : Nat := ((List.range 64).find? fun i => a.getLsbD i).getD 64

/-- Number of set bits. -/
def popCount {w : Nat} (a : BitVec w) : Nat := ((List.range w).filter fun i => a.getLsbD i).length

/-- DIV (09 R268). -/
def divS (a b : Word) : Word := if b = 0 then wordOf (-1) else wordOf (a.toInt.tdiv b.toInt)

/-- REM (09 R268). -/
def remS (a b : Word) : Word := if b = 0 then a else wordOf (a.toInt.tmod b.toInt)

/-- DIVN (09 R268). -/
def divU (a b : Word) : Word := if b = 0 then wordOf (-1) else wd (a.toNat / b.toNat)

/-- REMN (09 R268). -/
def remU (a b : Word) : Word := if b = 0 then a else wd (a.toNat % b.toNat)

/-! ### Integer operations (09 R267 to R269) -/

/-- ADD. -/
def execAdd (d a b : BitVec 6) (s : State) : Out :=
  s.alu2 d a b 1 fun x y => satI64 s.satInt (x.toInt + y.toInt)

/-- SUB. -/
def execSub (d a b : BitVec 6) (s : State) : Out :=
  s.alu2 d a b 1 fun x y => satI64 s.satInt (x.toInt - y.toInt)

/-- MUL. -/
def execMul (d a b : BitVec 6) (s : State) : Out :=
  s.alu2 d a b 3 fun x y => satI64 s.satInt (x.toInt * y.toInt)

/-- MULH. -/
def execMulh (d a b : BitVec 6) (s : State) : Out :=
  s.alu2 d a b 3 fun x y => wordOf (x.toInt * y.toInt / 2 ^ 64)

/-- MULHN. -/
def execMulhn (d a b : BitVec 6) (s : State) : Out :=
  s.alu2 d a b 3 fun x y => wd (x.toNat * y.toNat / 2 ^ 64)

/-- DIV. -/
def execDiv (d a b : BitVec 6) (s : State) : Out := s.alu2 d a b 20 divS

/-- DIVN. -/
def execDivn (d a b : BitVec 6) (s : State) : Out := s.alu2 d a b 20 divU

/-- REM. -/
def execRem (d a b : BitVec 6) (s : State) : Out := s.alu2 d a b 20 remS

/-- REMN. -/
def execRemn (d a b : BitVec 6) (s : State) : Out := s.alu2 d a b 20 remU

/-- AND. -/
def execAnd (d a b : BitVec 6) (s : State) : Out := s.alu2 d a b 1 fun x y => x &&& y

/-- OR. -/
def execOr (d a b : BitVec 6) (s : State) : Out := s.alu2 d a b 1 fun x y => x ||| y

/-- XOR. -/
def execXor (d a b : BitVec 6) (s : State) : Out := s.alu2 d a b 1 fun x y => x ^^^ y

/-- ANDN. -/
def execAndn (d a b : BitVec 6) (s : State) : Out := s.alu2 d a b 1 fun x y => x &&& ~~~ y

/-- SHL. -/
def execShl (d a b : BitVec 6) (s : State) : Out := s.alu2 d a b 1 fun x y => x <<< bits y 0 6

/-- SHR. -/
def execShr (d a b : BitVec 6) (s : State) : Out := s.alu2 d a b 1 fun x y => x >>> bits y 0 6

/-- SAR. -/
def execSar (d a b : BitVec 6) (s : State) : Out := s.alu2 d a b 1 fun x y => x.sshiftRight (bits y 0 6)

/-- ROL. -/
def execRol (d a b : BitVec 6) (s : State) : Out := s.alu2 d a b 1 fun x y => x.rotateLeft (bits y 0 6)

/-- MIN. -/
def execMin (d a b : BitVec 6) (s : State) : Out := s.alu2 d a b 1 fun x y => if y.slt x then y else x

/-- MAX. -/
def execMax (d a b : BitVec 6) (s : State) : Out := s.alu2 d a b 1 fun x y => if x.slt y then y else x

/-- MINN. -/
def execMinn (d a b : BitVec 6) (s : State) : Out := s.alu2 d a b 1 fun x y => if y.ult x then y else x

/-- MAXN. -/
def execMaxn (d a b : BitVec 6) (s : State) : Out := s.alu2 d a b 1 fun x y => if x.ult y then y else x

/-- CLZ. -/
def execClz (d a : BitVec 6) (s : State) : Out := s.alu1 d a fun x => wd (clz64 x)

/-- CTZ. -/
def execCtz (d a : BitVec 6) (s : State) : Out := s.alu1 d a fun x => wd (ctz64 x)

/-- POPC. -/
def execPopc (d a : BitVec 6) (s : State) : Out := s.alu1 d a fun x => wd (popCount x)

/-- MOV: a plain copy, so poison passes (02 R78). -/
def execMov (d a : BitVec 6) (s : State) : Out :=
  s.scalar fun s => s.oweS d.toNat (s.sreg a.toNat) (s.spois a.toNat) 1 false

/-! ### Immediates and addresses (09 R270) -/

/-- ADDI, 32-bit form: 7-bit immediate, 33 with IMX. -/
def execAddi (d a : BitVec 6) (i : BitVec 7) (s : State) : Out :=
  s.alu1 d a fun x => satI64 s.satInt (x.toInt + s.imm i)

/-- ADDI, 64-bit form: 39-bit immediate. -/
def execAddi64 (d a : BitVec 6) (i : BitVec 39) (s : State) : Out :=
  s.alu1 d a fun x => satI64 s.satInt (x.toInt + i.toInt)

/-- MOVI, 32-bit form: 13-bit immediate, 39 with IMX. -/
def execMovi (d : BitVec 6) (i : BitVec 13) (s : State) : Out :=
  s.scalar fun s => s.oweS d.toNat (wordOf (s.imm i)) false 1 false

/-- MOVI, 64-bit form: 45-bit immediate. -/
def execMovi64 (d : BitVec 6) (i : BitVec 45) (s : State) : Out :=
  s.scalar fun s => s.oweS d.toNat (wordOf i.toInt) false 1 false

/-- ADDX, 32-bit form: b shifted by 3 or 6. -/
def execAddx (d a b : BitVec 6) (x : BitVec 1) (s : State) : Out :=
  s.alu2 d a b 1 fun p q => p + (q <<< (if x = 1 then 6 else 3 : Nat))

/-- ADDX, 64-bit form: b, or its sign-extended low word, shifted by SH. -/
def execAddx64 (d a b h : BitVec 6) (x : BitVec 1) (s : State) : Out :=
  s.alu2 d a b 1 fun p q => p + ((if x = 1 then (q.setWidth 32).signExtend 64 else q) <<< h.toNat)

/-! ### Bit fields and selection (09 R271, R272) -/

/-- The low `n` bits. -/
def lowBits (v : Word) (n : Nat) : Word := wd (v.toNat % 2 ^ n)

/-- BFX. -/
def execBfx (d a o l : BitVec 6) (s : State) : Out :=
  s.alu1 d a fun x => lowBits (x >>> o.toNat) (l.toNat + 1)

/-- BFXS. -/
def execBfxs (d a o l : BitVec 6) (s : State) : Out :=
  s.alu1 d a fun x => wordOf (sext (l.toNat + 1) (x >>> o.toNat).toNat)

/-- BFI: d is also a source. -/
def execBfi (d a o l : BitVec 6) (s : State) : Out :=
  s.scalar fun s => s.consume [a.toNat, d.toNat] fun s =>
    let mask : Word := wd (2 ^ (l.toNat + 1) - 1) <<< o.toNat
    s.oweS d.toNat ((s.sreg d.toNat &&& ~~~ mask) ||| ((s.sreg a.toNat <<< o.toNat) &&& mask)) false 1 false

/-- SEL: only the selected operand's poison passes. -/
def execSel (d a b : BitVec 6) (k : BitVec 4) (s : State) : Out :=
  s.scalar fun s =>
    let r := if s.kreg k.toNat then a.toNat else b.toNat
    s.oweS d.toNat (s.sreg r) (s.spois r) 1 false

/-! ### Compares (09 R273, R275) -/

/-- A compare of two registers into a predicate. -/
def State.compare (s : State) (a b : BitVec 6) (kd : Nat) (f : Word → Word → Bool) : Out :=
  s.scalar fun s => s.consume [a.toNat, b.toNat] fun s =>
    s.oweK kd (f (s.sreg a.toNat) (s.sreg b.toNat)) true

/-- CMP, 32-bit form. -/
def execCmp (c : BitVec 4) (a b : BitVec 6) (k : BitVec 3) (s : State) : Out :=
  s.compare a b k.toNat (icond c.toNat)

/-- CMP, 64-bit form. -/
def execCmp64 (c : BitVec 4) (a b : BitVec 6) (k : BitVec 4) (s : State) : Out :=
  s.compare a b k.toNat (icond c.toNat)

/-- A compare of a register with an immediate into a predicate. -/
def State.compareImm (s : State) (a : BitVec 6) (kd c : Nat) (i : Int) : Out :=
  s.scalar fun s => s.consume [a.toNat] fun s => s.oweK kd (icond c (s.sreg a.toNat) (wordOf i)) true

/-- CMPI, 32-bit form: 6-bit immediate, extended by IMX. -/
def execCmpi (c : BitVec 4) (a : BitVec 6) (k : BitVec 3) (i : BitVec 6) (s : State) : Out :=
  s.compareImm a k.toNat c.toNat (s.imm i)

/-- CMPI, 64-bit form: 37-bit immediate. -/
def execCmpi64 (c : BitVec 4) (a : BitVec 6) (k : BitVec 4) (i : BitVec 37) (s : State) : Out :=
  s.compareImm a k.toNat c.toNat i.toInt

/-- FP32 in bits 31:0 of a register. -/
def low32 (v : Word) : Fl := decodeFloat 0 (bits v 0 32)

/-- FCMP, 32-bit form. -/
def execFcmp (c : BitVec 4) (a b : BitVec 6) (k : BitVec 3) (s : State) : Out :=
  s.compare a b k.toNat fun x y => fcond c.toNat (low32 x) (low32 y)

/-- FCMP, 64-bit form. -/
def execFcmp64 (c : BitVec 4) (a b : BitVec 6) (k : BitVec 4) (s : State) : Out :=
  s.compare a b k.toNat fun x y => fcond c.toNat (low32 x) (low32 y)

/-! ### Floating point (09 R274, R276) -/

/-- An exact value rounded once to FP32, in bits 31:0. -/
def roundWord (rd : Rnd) (x : Fl) : Word := wd (roundFloat 0 rd 0 x)

/-- FADD. -/
def execFadd (d a b : BitVec 6) (s : State) : Out :=
  s.alu2 d a b 3 fun x y => roundWord s.scalarRnd (flSum (s.scalarRnd.mode == 2) [low32 x, low32 y])

/-- FSUB. -/
def execFsub (d a b : BitVec 6) (s : State) : Out :=
  s.alu2 d a b 3 fun x y => roundWord s.scalarRnd (flSum (s.scalarRnd.mode == 2) [low32 x, (low32 y).negate])

/-- FMUL. -/
def execFmul (d a b : BitVec 6) (s : State) : Out :=
  s.alu2 d a b 3 fun x y => roundWord s.scalarRnd ((low32 x).mul (low32 y))

/-- FFMA: one rounding of the exact a × b + c. -/
def execFfma (d a b c : BitVec 6) (s : State) : Out :=
  s.scalar fun s => s.consume [a.toNat, b.toNat, c.toNat] fun s =>
    let x := (low32 (s.sreg a.toNat)).mul (low32 (s.sreg b.toNat))
    s.oweS d.toNat (roundWord s.scalarRnd (flSum (s.scalarRnd.mode == 2) [x, low32 (s.sreg c.toNat)])) false 4 false

/-- FMIN. -/
def execFmin (d a b : BitVec 6) (s : State) : Out :=
  s.alu2 d a b 3 fun x y => wd (fminmax 0 false (bits x 0 32) (bits y 0 32))

/-- FMAX. -/
def execFmax (d a b : BitVec 6) (s : State) : Out :=
  s.alu2 d a b 3 fun x y => wd (fminmax 0 true (bits x 0 32) (bits y 0 32))

/-- The value CVTF writes: integers to integers wrap unless SAT or SYM is in force; an integer result saturates (04 R130,
08 R225); a signed result is sign-extended. -/
def cvtfValue (sf df : Nat) (rd : Rnd) (cl : Nat × Nat) (v : Word) : Word :=
  let x := decodeNum sf (v.toNat % 2 ^ codeWidth sf)
  if isFloat df then wd (roundFloat df rd cl.1 (clip df cl.1 cl.2 x))
  else
    let n := if !isFloat sf && cl.1 == 0 then intCode df (roundInt rne x) else roundToInt df rd x
    if isSigned df then wordOf (sext (codeWidth df) n) else wd n

/-- CVTF. -/
def execCvtf (d a : BitVec 6) (sf df : BitVec 4) (s : State) : Out :=
  s.scalar fun s => s.consume [a.toNat] fun s =>
    s.oweS d.toNat (cvtfValue sf.toNat df.toNat s.scalarRnd s.clipOf (s.sreg a.toNat)) false 3 false

/-! ### Iterators and the random draw (09 R277, R278) -/

/-- AIRD: BASE whole, a stride sign-extended, or DIR. -/
def execAird (d : BitVec 6) (j : BitVec 4) (f : BitVec 3) (s : State) : Out :=
  s.scalar fun s =>
    let a := s.iter j.toNat
    let v : Word := match f.toNat with
      | 0 => a.base
      | 1 => a.str0.signExtend 64
      | 2 => a.str1.signExtend 64
      | 3 => a.str2.signExtend 64
      | 4 => a.str3.signExtend 64
      | _ => if a.dir then 1 else 0
    s.oweS d.toNat v false 1 false

/-- AIWR: the write applies from the next bundle. A field an address is formed from consumes its value (02 R78). -/
def execAiwr (r : BitVec 6) (j : BitVec 4) (f : BitVec 3) (s : State) : Out :=
  s.scalar fun s => s.consume [r.toNat] fun s =>
    s.owe ⟨.iter j.toNat f.toNat, (s.sreg r.toNat).setWidth 512, 1, 0, 1, true⟩

/-- RNG: words 1:0 of the tag-0x02 draw; RCTR advances at the end of the bundle. -/
def execRng (d : BitVec 6) (s : State) : Out :=
  s.scalar fun s =>
    let c := counter 2 s.ctx.c.rctr.toNat
    let v : Word := (philox s.ctx.c.rkey c 1 ++ philox s.ctx.c.rkey c 0)
    (s.oweS d.toNat v false 4 false).markDraw true

end Sys2Proof.Machine
end

