-- ==== Sys2Proof/Machine/Vector.lean ====
section
/-! DEFINITION. The meanings of classes V and Q: lane-group arithmetic, compares, permutations, reductions, conversions,
sparsity and block scales, and predicate logic (11 R315 to R345). -/

namespace Sys2Proof.Machine

/-! ### Shared shapes -/

/-- What a class V word measures (07 R203): 4 + (w − 4) × a / E wu, in 1/64 wu. -/
def State.measV (s : State) (wgt act els : Nat) : State :=
  { s with issue := { s.issue with meas := some (256 + (wgt - 4) * 64 * act / els) } }

/-- An element of a register of the slot's lane group, of a format code's width. -/
def State.velem (s : State) (c r l e : Nat) : Nat := elem (codeWidth c) (s.vlane s.group r l) e

/-- An element's value is zero; −0 is zero. -/
def isZeroCode (c v : Nat) : Bool := if isFloat c then v % 2 ^ (codeWidth c - 1) == 0 else v == 0

/-- The active elements (11 R321): the lane is enabled and every source element is nonzero. -/
def State.active (s : State) (c : Nat) (srcs : List Nat) : Nat :=
  ((laneList s.lanes).map fun l => ((List.range (32 / codeWidth c)).filter fun e =>
    srcs.all fun r => !isZeroCode c (s.velem c r l e)).length).sum

/-- An elementwise operation on code `c` (11 R322): `f` gives the result element from lane, element and sources. -/
def State.vmap (s : State) (d : Nat) (srcs : List Nat) (c wgt lat : Nat) (draws : Bool)
    (f : Nat → Nat → List Nat → Nat) : Out :=
  .next (s.consumeV srcs s.lanes fun s =>
    let w := codeWidth c
    let val := ofLanes fun l => if s.lanes.getLsbD l then
        ofElems w fun e => f l e (srcs.map fun r => s.velem c r l e)
      else 0
    ((s.oweV s.group d val s.lanes 0 lat).markDraw draws).measV wgt (s.active c srcs) (512 / w))

/-- An exact value rounded for element `e` of lane `l` with the modes in force (11 R318). -/
def State.vround (s : State) (c l e : Nat) (x : Fl) : Nat :=
  roundFloat c (s.vecRnd s.group l e) s.clipOf.1 (clip c s.clipOf.1 s.clipOf.2 x)

/-- The word rounds downward. -/
def State.vdown (s : State) : Bool := (roundMode s.env.pfx s.ctx.c.fmt).1 == 2

/-- A floating-point elementwise operation with one rounding. -/
def State.vfloat (s : State) (d : Nat) (srcs : List Nat) (c wgt lat : Nat) (f : List Fl → Fl) : Out :=
  s.vmap d srcs c wgt lat s.vecDraws fun l e v => s.vround c l e (f (v.map (decodeFloat c)))

/-- An integer elementwise operation: wrapped, or saturated under a SAT prefix. -/
def State.vint (s : State) (d : Nat) (srcs : List Nat) (c wgt lat : Nat) (f : List Int → Int) : Out :=
  s.vmap d srcs c wgt lat false fun _ _ v =>
    s.narrow c (f (v.map fun x => if isSigned c then sext (codeWidth c) x else x))

/-- A whole-lane operation (11 R325). -/
def State.vlanes (s : State) (d : Nat) (srcs : List Nat) (f : List W32 → W32) : Out :=
  s.vmap d srcs 10 8 1 false fun _ _ v => (f (v.map (BitVec.ofNat 32))).toNat

/-- The float code of a 1-bit ET (11 R317). -/
def etF (et : BitVec 1) : Nat := et.toNat

/-- The integer code of a 1-bit ET. -/
def etI (et : BitVec 1) : Nat := 10 - et.toNat

/-- The element width code of a 1-bit ET: 32 or 16 bits. -/
def etW (et : BitVec 1) : Nat := 10 - et.toNat

/-- First operand. -/
def op0 {α : Type} [Inhabited α] (l : List α) : α := l.headD default

/-- Second operand. -/
def op1 {α : Type} [Inhabited α] (l : List α) : α := l.getD 1 default

/-- Third operand. -/
def op2 {α : Type} [Inhabited α] (l : List α) : α := l.getD 2 default

/-- First float operand. -/
def fl0 (l : List Fl) : Fl := l.headD .nan

/-- Second float operand. -/
def fl1 (l : List Fl) : Fl := l.getD 1 .nan

/-- Third float operand. -/
def fl2 (l : List Fl) : Fl := l.getD 2 .nan

/-! ### Floating-point arithmetic (11 R322) -/

/-- VADD on bound registers. -/
def State.vadd (s : State) (d a b c : Nat) : Out := s.vfloat d [a, b] c 24 3 fun v => flSum s.vdown [fl0 v, fl1 v]

/-- VADD, 32-bit form. -/
def execVadd (d a b : BitVec 6) (et : BitVec 1) (s : State) : Out :=
  s.vadd (s.vwin d.toNat) (s.vwin a.toNat) (s.vwin b.toNat) (etF et)

/-- VADD, 64-bit form. -/
def execVadd64 (d a b : BitVec 10) (e4 : BitVec 4) (s : State) : Out := s.vadd d.toNat a.toNat b.toNat e4.toNat

/-- VSUB on bound registers. -/
def State.vsub (s : State) (d a b c : Nat) : Out :=
  s.vfloat d [a, b] c 24 3 fun v => flSum s.vdown [fl0 v, (fl1 v).negate]

/-- VSUB, 32-bit form. -/
def execVsub (d a b : BitVec 6) (et : BitVec 1) (s : State) : Out :=
  s.vsub (s.vwin d.toNat) (s.vwin a.toNat) (s.vwin b.toNat) (etF et)

/-- VSUB, 64-bit form. -/
def execVsub64 (d a b : BitVec 10) (e4 : BitVec 4) (s : State) : Out := s.vsub d.toNat a.toNat b.toNat e4.toNat

/-- VMUL on bound registers. -/
def State.vmul (s : State) (d a b c : Nat) : Out := s.vfloat d [a, b] c 24 3 fun v => (fl0 v).mul (fl1 v)

/-- VMUL, 32-bit form. -/
def execVmul (d a b : BitVec 6) (et : BitVec 1) (s : State) : Out :=
  s.vmul (s.vwin d.toNat) (s.vwin a.toNat) (s.vwin b.toNat) (etF et)

/-- VMUL, 64-bit form. -/
def execVmul64 (d a b : BitVec 10) (e4 : BitVec 4) (s : State) : Out := s.vmul d.toNat a.toNat b.toNat e4.toNat

/-- VFMA: one rounding of the exact a × b + c. -/
def execVfma (d a b c : BitVec 10) (e4 : BitVec 4) (s : State) : Out :=
  s.vfloat d.toNat [a.toNat, b.toNat, c.toNat] e4.toNat 32 4 fun v => flSum s.vdown [(fl0 v).mul (fl1 v), fl2 v]

/-- VFMS: one rounding of the exact a × b − c. -/
def execVfms (d a b c : BitVec 10) (e4 : BitVec 4) (s : State) : Out :=
  s.vfloat d.toNat [a.toNat, b.toNat, c.toNat] e4.toNat 32 4 fun v =>
    flSum s.vdown [(fl0 v).mul (fl1 v), (fl2 v).negate]

/-- VMIN and VMAX on bound registers: no rounding. -/
def State.vminmax (s : State) (mx : Bool) (d a b c : Nat) : Out :=
  s.vmap d [a, b] c 24 3 false fun _ _ v => fminmax c mx (op0 v) (op1 v)

/-- VMIN, 32-bit form. -/
def execVmin (d a b : BitVec 6) (et : BitVec 1) (s : State) : Out :=
  s.vminmax false (s.vwin d.toNat) (s.vwin a.toNat) (s.vwin b.toNat) (etF et)

/-- VMIN, 64-bit form. -/
def execVmin64 (d a b : BitVec 10) (e4 : BitVec 4) (s : State) : Out :=
  s.vminmax false d.toNat a.toNat b.toNat e4.toNat

/-- VMAX, 32-bit form. -/
def execVmax (d a b : BitVec 6) (et : BitVec 1) (s : State) : Out :=
  s.vminmax true (s.vwin d.toNat) (s.vwin a.toNat) (s.vwin b.toNat) (etF et)

/-- VMAX, 64-bit form. -/
def execVmax64 (d a b : BitVec 10) (e4 : BitVec 4) (s : State) : Out :=
  s.vminmax true d.toNat a.toNat b.toNat e4.toNat

/-- The magnitude of an encoding, or its negation; NaN gives the canonical NaN. -/
def signOp (c : Nat) (neg : Bool) (v : Nat) : Nat :=
  if decodeFloat c v = .nan then canonNan c
  else
    let mag := v % 2 ^ (format c).sign
    if neg && v < 2 ^ (format c).sign then mag + 2 ^ (format c).sign else mag

/-- VABS and VNEG on bound registers. -/
def State.vsign (s : State) (neg : Bool) (d a c : Nat) : Out :=
  s.vmap d [a] c 24 3 false fun _ _ v => signOp c neg (op0 v)

/-- VABS, 32-bit form. -/
def execVabs (d a : BitVec 6) (et : BitVec 1) (s : State) : Out :=
  s.vsign false (s.vwin d.toNat) (s.vwin a.toNat) (etF et)

/-- VABS, 64-bit form. -/
def execVabs64 (d a : BitVec 10) (e4 : BitVec 4) (s : State) : Out := s.vsign false d.toNat a.toNat e4.toNat

/-- VNEG, 32-bit form. -/
def execVneg (d a : BitVec 6) (et : BitVec 1) (s : State) : Out :=
  s.vsign true (s.vwin d.toNat) (s.vwin a.toNat) (etF et)

/-- VNEG, 64-bit form. -/
def execVneg64 (d a : BitVec 10) (e4 : BitVec 4) (s : State) : Out := s.vsign true d.toNat a.toNat e4.toNat

/-! ### Special functions (11 R323, R324) -/

/-- ±1 as FP32. -/
def one32 (neg : Bool) : W32 := if neg then 0xBF800000 else 0x3F800000

/-- ±∞ as FP32. -/
def inf32 (neg : Bool) : W32 := if neg then 0xFF800000 else 0x7F800000

/-- ±0 as FP32. -/
def zero32 (neg : Bool) : W32 := if neg then 0x80000000 else 0

/-- The canonical NaN of FP32. -/
def nan32 : W32 := 0x7FC00000

/-- floor(log2 m × 2^e) of a nonzero magnitude. -/
def flLog (m : Nat) (e : Int) : Int := (Nat.log2 m : Nat) + e

/-- The exponent of an ulp of FP32 at a value in [2^k, 2^(k+1)). -/
def ulpExp (k : Int) : Int := max (-149) (k - 23)

/-- A candidate within 1 ulp of 1/x, x = ±m × 2^e (11 R323). -/
def rcpOk (n : Bool) (m : Nat) (e : Int) (cand : W32) : Bool :=
  match f32 cand with
  | .fin cn k f =>
    let l := flLog m e
    let lg := if m = 2 ^ Nat.log2 m then -l else -l - 1
    let x : Fl := .fin false m e
    let dif := flSum false [(Fl.fin (cn != n) k f).mul x, .fin true 1 0]
    let err : Fl := match dif with | .fin _ a b => .fin false a b | y => y
    decide (Fl.cmp err ((Fl.fin false 1 (ulpExp lg)).mul x) ≤ (0 : Int))
  | _ => false

/-- A candidate within 1 ulp of x^(−1/2), x = m × 2^e (11 R323). -/
def rsqOk (m : Nat) (e : Int) (cand : W32) : Bool :=
  match f32 cand with
  | .fin false k f =>
    let x : Fl := .fin false m e
    let k0 := (-(flLog m e)).fdiv 2
    let lg := if ((Fl.fin false 1 (2 * k0)).mul x).cmp (.fin false 1 0) ≤ 0 then k0 else k0 - 1
    let u : Fl := .fin false 1 (ulpExp lg)
    let c : Fl := .fin false k f
    let lo := flSum false [c, u.negate]
    let hi := flSum false [c, u]
    (lo.neg? || decide (((lo.mul lo).mul x).cmp (.fin false 1 0) ≤ 0)) &&
      decide (0 ≤ ((hi.mul hi).mul x).cmp (.fin false 1 0))
  | _ => false

/-- 1/√x rounded to nearest. -/
def rsqNear (m : Nat) (e : Int) : W32 :=
  match flSqrt (m <<< 200) (e - 200) with
  | .fin _ k f => toF32 rne (flDiv (.fin false 1 0) (.fin false k f))
  | _ => nan32

/-- A special function of an FP32 pattern: the exact results of R324; VSQRT correctly rounded; else the free value where it
keeps R323's bound, or the nearest value (log 10). -/
def special (fn : Nat) (v : W32) : W32 :=
  let free := Config.specialFp32 fn v
  match f32 v with
  | .nan => nan32
  | .inf n =>
    match fn with
    | 0x09 => zero32 n
    | 0x0A => if n then nan32 else zero32 false
    | 0x0B => if n then nan32 else inf32 false
    | 0x0C => if n then zero32 false else inf32 false
    | 0x0D => if n then nan32 else inf32 false
    | 0x0E => nan32
    | 0x0F => nan32
    | 0x10 => one32 n
    | 0x11 => if n then zero32 false else one32 false
    | _ => if n then zero32 true else inf32 false
  | .fin n 0 _ =>
    match fn with
    | 0x09 => inf32 n
    | 0x0A => inf32 n
    | 0x0B => zero32 n
    | 0x0C => one32 false
    | 0x0D => inf32 true
    | 0x0E => zero32 n
    | 0x0F => one32 false
    | 0x10 => zero32 n
    | 0x11 => 0x3F000000
    | _ => zero32 n
  | .fin n m e =>
    match fn with
    | 0x09 =>
      if ((maxFinite 0).mul (.fin false m e)).cmp (.fin false 1 0) < 0 then inf32 n
      else if rcpOk n m e free then free else toF32 rne (flDiv (.fin false 1 0) (.fin n m e))
    | 0x0A => if n then nan32 else if rsqOk m e free then free else rsqNear m e
    | 0x0B => if n then nan32 else toF32 rne (flSqrt m e)
    | 0x0C => if !n && (Fl.fin false m e).cmp (.fin false 128 0) ≥ 0 then inf32 false else boundedFn fn (.fin n m e) free
    | 0x0D => if n then nan32 else if v = 0x3F800000 then zero32 false else boundedFn fn (.fin n m e) free
    | _ => boundedFn fn (.fin n m e) free

/-- A special function on an element: FP32 as it is; BF16 and FP16 by the FP32 result rounded once under RNE. -/
def specialElem (fn c v : Nat) : Nat :=
  let x := decodeFloat c v
  if c = 0 then (special fn (BitVec.ofNat 32 v)).toNat
  else roundFloat c rne 0 (f32 (special fn (toF32 rne x)))

/-- A special function on bound registers. -/
def State.vspecial (s : State) (fn wgt lat d a c : Nat) : Out :=
  s.vmap d [a] c wgt lat false fun _ _ v => specialElem fn c (op0 v)

/-- VRCP, 32-bit form. -/
def execVrcp (d a : BitVec 6) (et : BitVec 1) (s : State) : Out :=
  s.vspecial 0x09 40 8 (s.vwin d.toNat) (s.vwin a.toNat) (etF et)

/-- VRCP, 64-bit form. -/
def execVrcp64 (d a : BitVec 10) (e4 : BitVec 4) (s : State) : Out := s.vspecial 0x09 40 8 d.toNat a.toNat e4.toNat

/-- VRSQ, 32-bit form. -/
def execVrsq (d a : BitVec 6) (et : BitVec 1) (s : State) : Out :=
  s.vspecial 0x0A 40 8 (s.vwin d.toNat) (s.vwin a.toNat) (etF et)

/-- VRSQ, 64-bit form. -/
def execVrsq64 (d a : BitVec 10) (e4 : BitVec 4) (s : State) : Out := s.vspecial 0x0A 40 8 d.toNat a.toNat e4.toNat

/-- VSQRT, 32-bit form. -/
def execVsqrt (d a : BitVec 6) (et : BitVec 1) (s : State) : Out :=
  s.vspecial 0x0B 40 8 (s.vwin d.toNat) (s.vwin a.toNat) (etF et)

/-- VSQRT, 64-bit form. -/
def execVsqrt64 (d a : BitVec 10) (e4 : BitVec 4) (s : State) : Out := s.vspecial 0x0B 40 8 d.toNat a.toNat e4.toNat

/-- VEXP2, 32-bit form. -/
def execVexp2 (d a : BitVec 6) (et : BitVec 1) (s : State) : Out :=
  s.vspecial 0x0C 40 8 (s.vwin d.toNat) (s.vwin a.toNat) (etF et)

/-- VEXP2, 64-bit form. -/
def execVexp264 (d a : BitVec 10) (e4 : BitVec 4) (s : State) : Out := s.vspecial 0x0C 40 8 d.toNat a.toNat e4.toNat

/-- VLOG2, 32-bit form. -/
def execVlog2 (d a : BitVec 6) (et : BitVec 1) (s : State) : Out :=
  s.vspecial 0x0D 40 8 (s.vwin d.toNat) (s.vwin a.toNat) (etF et)

/-- VLOG2, 64-bit form. -/
def execVlog264 (d a : BitVec 10) (e4 : BitVec 4) (s : State) : Out := s.vspecial 0x0D 40 8 d.toNat a.toNat e4.toNat

/-- VSIN, 32-bit form. -/
def execVsin (d a : BitVec 6) (et : BitVec 1) (s : State) : Out :=
  s.vspecial 0x0E 48 10 (s.vwin d.toNat) (s.vwin a.toNat) (etF et)

/-- VSIN, 64-bit form. -/
def execVsin64 (d a : BitVec 10) (e4 : BitVec 4) (s : State) : Out := s.vspecial 0x0E 48 10 d.toNat a.toNat e4.toNat

/-- VCOS, 32-bit form. -/
def execVcos (d a : BitVec 6) (et : BitVec 1) (s : State) : Out :=
  s.vspecial 0x0F 48 10 (s.vwin d.toNat) (s.vwin a.toNat) (etF et)

/-- VCOS, 64-bit form. -/
def execVcos64 (d a : BitVec 10) (e4 : BitVec 4) (s : State) : Out := s.vspecial 0x0F 48 10 d.toNat a.toNat e4.toNat

/-- VTANH, 32-bit form. -/
def execVtanh (d a : BitVec 6) (et : BitVec 1) (s : State) : Out :=
  s.vspecial 0x10 48 10 (s.vwin d.toNat) (s.vwin a.toNat) (etF et)

/-- VTANH, 64-bit form. -/
def execVtanh64 (d a : BitVec 10) (e4 : BitVec 4) (s : State) : Out := s.vspecial 0x10 48 10 d.toNat a.toNat e4.toNat

/-- VSIGM, 32-bit form. -/
def execVsigm (d a : BitVec 6) (et : BitVec 1) (s : State) : Out :=
  s.vspecial 0x11 48 10 (s.vwin d.toNat) (s.vwin a.toNat) (etF et)

/-- VSIGM, 64-bit form. -/
def execVsigm64 (d a : BitVec 10) (e4 : BitVec 4) (s : State) : Out := s.vspecial 0x11 48 10 d.toNat a.toNat e4.toNat

/-- VSILU, 32-bit form. -/
def execVsilu (d a : BitVec 6) (et : BitVec 1) (s : State) : Out :=
  s.vspecial 0x12 48 10 (s.vwin d.toNat) (s.vwin a.toNat) (etF et)

/-- VSILU, 64-bit form. -/
def execVsilu64 (d a : BitVec 10) (e4 : BitVec 4) (s : State) : Out := s.vspecial 0x12 48 10 d.toNat a.toNat e4.toNat

/-! ### Whole lanes and shifts (11 R325) -/

/-- VAND, 32-bit form. -/
def execVand (d a b : BitVec 6) (s : State) : Out :=
  s.vlanes (s.vwin d.toNat) [s.vwin a.toNat, s.vwin b.toNat] fun v => op0 v &&& op1 v

/-- VAND, 64-bit form. -/
def execVand64 (d a b : BitVec 10) (s : State) : Out :=
  s.vlanes d.toNat [a.toNat, b.toNat] fun v => op0 v &&& op1 v

/-- VOR, 32-bit form. -/
def execVor (d a b : BitVec 6) (s : State) : Out :=
  s.vlanes (s.vwin d.toNat) [s.vwin a.toNat, s.vwin b.toNat] fun v => op0 v ||| op1 v

/-- VOR, 64-bit form. -/
def execVor64 (d a b : BitVec 10) (s : State) : Out :=
  s.vlanes d.toNat [a.toNat, b.toNat] fun v => op0 v ||| op1 v

/-- VXOR, 32-bit form. -/
def execVxor (d a b : BitVec 6) (s : State) : Out :=
  s.vlanes (s.vwin d.toNat) [s.vwin a.toNat, s.vwin b.toNat] fun v => op0 v ^^^ op1 v

/-- VXOR, 64-bit form. -/
def execVxor64 (d a b : BitVec 10) (s : State) : Out :=
  s.vlanes d.toNat [a.toNat, b.toNat] fun v => op0 v ^^^ op1 v

/-- VNOT, 32-bit form. -/
def execVnot (d a : BitVec 6) (s : State) : Out :=
  s.vlanes (s.vwin d.toNat) [s.vwin a.toNat] fun v => ~~~ op0 v

/-- VNOT, 64-bit form. -/
def execVnot64 (d a : BitVec 10) (s : State) : Out := s.vlanes d.toNat [a.toNat] fun v => ~~~ op0 v

/-- An element shift: 0 left, 1 right logical, 2 right arithmetic; the count is modulo the width. -/
def shiftElem (k c a b : Nat) : Nat :=
  let w := codeWidth c
  let n := b % w
  match k with
  | 0 => (a <<< n) % 2 ^ w
  | 1 => a >>> n
  | _ => ((sext w a / (2 : Int) ^ n) % (2 : Int) ^ w).toNat

/-- A shift on bound registers. -/
def State.vshift (s : State) (k d a b c : Nat) : Out :=
  s.vmap d [a, b] c 8 1 false fun _ _ v => shiftElem k c (op0 v) (op1 v)

/-- VSHL, 32-bit form. -/
def execVshl (d a b : BitVec 6) (et : BitVec 1) (s : State) : Out :=
  s.vshift 0 (s.vwin d.toNat) (s.vwin a.toNat) (s.vwin b.toNat) (etI et)

/-- VSHL, 64-bit form. -/
def execVshl64 (d a b : BitVec 10) (e4 : BitVec 4) (s : State) : Out := s.vshift 0 d.toNat a.toNat b.toNat e4.toNat

/-- VSHR, 32-bit form. -/
def execVshr (d a b : BitVec 6) (et : BitVec 1) (s : State) : Out :=
  s.vshift 1 (s.vwin d.toNat) (s.vwin a.toNat) (s.vwin b.toNat) (etI et)

/-- VSHR, 64-bit form. -/
def execVshr64 (d a b : BitVec 10) (e4 : BitVec 4) (s : State) : Out := s.vshift 1 d.toNat a.toNat b.toNat e4.toNat

/-- VSAR, 32-bit form. -/
def execVsar (d a b : BitVec 6) (et : BitVec 1) (s : State) : Out :=
  s.vshift 2 (s.vwin d.toNat) (s.vwin a.toNat) (s.vwin b.toNat) (etI et)

/-- VSAR, 64-bit form. -/
def execVsar64 (d a b : BitVec 10) (e4 : BitVec 4) (s : State) : Out := s.vshift 2 d.toNat a.toNat b.toNat e4.toNat

/-! ### Integer arithmetic (11 R322) -/

/-- VIADD on bound registers. -/
def State.viadd (s : State) (d a b c : Nat) : Out := s.vint d [a, b] c 12 1 fun v => op0 v + op1 v

/-- VIADD, 32-bit form. -/
def execViadd (d a b : BitVec 6) (et : BitVec 1) (s : State) : Out :=
  s.viadd (s.vwin d.toNat) (s.vwin a.toNat) (s.vwin b.toNat) (etI et)

/-- VIADD, 64-bit form. -/
def execViadd64 (d a b : BitVec 10) (e4 : BitVec 4) (s : State) : Out := s.viadd d.toNat a.toNat b.toNat e4.toNat

/-- VISUB on bound registers. -/
def State.visub (s : State) (d a b c : Nat) : Out := s.vint d [a, b] c 12 1 fun v => op0 v - op1 v

/-- VISUB, 32-bit form. -/
def execVisub (d a b : BitVec 6) (et : BitVec 1) (s : State) : Out :=
  s.visub (s.vwin d.toNat) (s.vwin a.toNat) (s.vwin b.toNat) (etI et)

/-- VISUB, 64-bit form. -/
def execVisub64 (d a b : BitVec 10) (e4 : BitVec 4) (s : State) : Out := s.visub d.toNat a.toNat b.toNat e4.toNat

/-- VIMUL on bound registers. -/
def State.vimul (s : State) (d a b c : Nat) : Out := s.vint d [a, b] c 24 3 fun v => op0 v * op1 v

/-- VIMUL, 32-bit form. -/
def execVimul (d a b : BitVec 6) (et : BitVec 1) (s : State) : Out :=
  s.vimul (s.vwin d.toNat) (s.vwin a.toNat) (s.vwin b.toNat) (etI et)

/-- VIMUL, 64-bit form. -/
def execVimul64 (d a b : BitVec 10) (e4 : BitVec 4) (s : State) : Out := s.vimul d.toNat a.toNat b.toNat e4.toNat

/-- VIMIN on bound registers. -/
def State.vimin (s : State) (d a b c : Nat) : Out := s.vint d [a, b] c 12 1 fun v => min (op0 v) (op1 v)

/-- VIMIN, 32-bit form. -/
def execVimin (d a b : BitVec 6) (et : BitVec 1) (s : State) : Out :=
  s.vimin (s.vwin d.toNat) (s.vwin a.toNat) (s.vwin b.toNat) (etI et)

/-- VIMIN, 64-bit form. -/
def execVimin64 (d a b : BitVec 10) (e4 : BitVec 4) (s : State) : Out := s.vimin d.toNat a.toNat b.toNat e4.toNat

/-- VIMAX on bound registers. -/
def State.vimax (s : State) (d a b c : Nat) : Out := s.vint d [a, b] c 12 1 fun v => max (op0 v) (op1 v)

/-- VIMAX, 32-bit form. -/
def execVimax (d a b : BitVec 6) (et : BitVec 1) (s : State) : Out :=
  s.vimax (s.vwin d.toNat) (s.vwin a.toNat) (s.vwin b.toNat) (etI et)

/-- VIMAX, 64-bit form. -/
def execVimax64 (d a b : BitVec 10) (e4 : BitVec 4) (s : State) : Out := s.vimax d.toNat a.toNat b.toNat e4.toNat

/-! ### Compares and selection (11 R326, R327) -/

/-- A compare of element `part` of each enabled lane into mask `md`. Only the elements it reads can be active (R321, log 21). -/
def State.vcompare (s : State) (md a b c part : Nat) (f : Nat → Nat → Bool) : Out :=
  .next (s.consumeV [a, b] s.lanes fun s =>
    let v : BitVec 16 := (laneList s.lanes).foldl (fun m l =>
      if f (s.velem c a l part) (s.velem c b l part) then m ||| (1#16 <<< l) else m) 0
    let act := ((laneList s.lanes).filter fun l =>
      !isZeroCode c (s.velem c a l part) && !isZeroCode c (s.velem c b l part)).length
    (s.oweM s.group md v s.lanes true).measV 8 act (512 / codeWidth c))

/-- The float condition on encodings. -/
def fcondCode (cc c x y : Nat) : Bool := fcond cc (decodeFloat c x) (decodeFloat c y)

/-- The integer condition on encodings. -/
def icondCode (cc c x y : Nat) : Bool :=
  if isSigned c then icondInt cc (sext (codeWidth c) x) (sext (codeWidth c) y) else icondInt cc x y

/-- VCMP, 32-bit form: FP32 elements. -/
def execVcmp (m : BitVec 4) (a b : BitVec 6) (c : BitVec 3) (s : State) : Out :=
  s.vcompare m.toNat (s.vwin a.toNat) (s.vwin b.toNat) 0 0 (fcondCode c.toNat 0)

/-- VCMP, 64-bit form. -/
def execVcmp64 (m : BitVec 4) (c : BitVec 3) (a b : BitVec 10) (e4 : BitVec 4) (p : BitVec 3) (s : State) : Out :=
  s.vcompare m.toNat a.toNat b.toNat e4.toNat p.toNat (fcondCode c.toNat e4.toNat)

/-- VICMP, 32-bit form: i32 elements. -/
def execVicmp (m : BitVec 4) (a b : BitVec 6) (c : BitVec 3) (s : State) : Out :=
  s.vcompare m.toNat (s.vwin a.toNat) (s.vwin b.toNat) 10 0 (icondCode c.toNat 10)

/-- VICMP, 64-bit form. -/
def execVicmp64 (m : BitVec 4) (c : BitVec 3) (a b : BitVec 10) (e4 : BitVec 4) (p : BitVec 3) (s : State) : Out :=
  s.vcompare m.toNat a.toNat b.toNat e4.toNat p.toNat (icondCode c.toNat e4.toNat)

/-- A plain copy of lanes, poison with them: `src` names the group and register each lane comes from (11 R319). Of VSEL only the lane
it selects counts as a source element (R321, log 21). -/
def State.vcopy (s : State) (d wgt lat : Nat) (full : Bool) (src : Nat → Nat × Nat) : Out :=
  let from_ (l : Nat) : W32 := s.vlane (src l).1 (src l).2 l
  let val := ofLanes from_
  let poison : BitVec 16 := (laneList s.lanes).foldl
    (fun m l => if s.vpois (src l).1 (src l).2 l then m ||| (1#16 <<< l) else m) 0
  let act := if full then 16 else ((laneList s.lanes).filter fun l => from_ l != 0).length
  .next ((s.oweV s.group d val s.lanes poison lat).measV wgt act 16)

/-- VSEL. Of a lane the register it selects alone is read as a source (R203, R321, log 21). -/
def execVsel (d a b : BitVec 10) (m : BitVec 4) (s : State) : Out :=
  s.vcopy d.toNat 8 1 false fun l => (s.group, if (s.mreg s.group m.toNat).getLsbD l then a.toNat else b.toNat)

/-- VMOV, 32-bit form. -/
def execVmov (d a : BitVec 6) (s : State) : Out :=
  s.vcopy (s.vwin d.toNat) 8 1 false fun _ => (s.group, s.vwin a.toNat)

/-- VMOV, 64-bit form. -/
def execVmov64 (d a : BitVec 10) (s : State) : Out := s.vcopy d.toNat 8 1 false fun _ => (s.group, a.toNat)

/-- VXCP, 32-bit form (11 R331). -/
def execVxcp (d a : BitVec 6) (g : BitVec 3) (s : State) : Out :=
  s.vcopy (s.vwin d.toNat) 32 6 true fun _ => (g.toNat, s.vwin a.toNat)

/-- VXCP, 64-bit form. -/
def execVxcp64 (d a : BitVec 10) (g : BitVec 3) (s : State) : Out :=
  s.vcopy d.toNat 32 6 true fun _ => (g.toNat, a.toNat)

/-- A lane of one value in every element of width code W (11 R328). -/
def splat (w : BitVec 2) (v : Nat) : W32 := ofElems (32 / 2 ^ w.toNat) fun _ => v

/-- VSPLAT, 32-bit form: from a scalar register, poison with it. -/
def execVsplat (d r : BitVec 6) (w : BitVec 2) (s : State) : Out :=
  let v := splat w (s.sreg r.toNat).toNat
  .next ((s.oweV s.group (s.vwin d.toNat) (ofLanes fun _ => v) s.lanes
    (if s.spois r.toNat then s.lanes else 0) 1).measV 8 1 1)

/-- VSPLAT, 64-bit form: from an immediate. -/
def execVsplat64 (d : BitVec 10) (i : BitVec 32) (w : BitVec 2) (s : State) : Out :=
  .next ((s.oweV s.group d.toNat (ofLanes fun _ => splat w i.toNat) s.lanes 0 1).measV 8 1 1)

/-- A scalar register consumed by a class V word that enables any lane. -/
def State.consumeVS (s : State) (r : Nat) (f : State → State) : State :=
  if s.lanes != 0 then s.consume [r] f else f s

/-- VIOTA (11 R329). -/
def execViota (d r : BitVec 6) (t : BitVec 4) (w : BitVec 2) (g : BitVec 1) (s : State) : Out :=
  .next (s.consumeVS r.toNat fun s =>
    let n := 32 / 2 ^ w.toNat
    let v := ofLanes fun l => ofElems n fun e =>
      (s.sreg r.toNat).toNat + t.toNat * (32 / n * l + e + (if g = 1 then s.group * (512 / n) else 0))
    (s.oweV s.group (s.vwin d.toNat) v s.lanes 0 1).measV 8 1 1)

/-! ### Permutation and compaction (11 R330, R334) -/

/-- Element `j` of a register of the group: its lane and place. -/
def State.gelem (s : State) (w r j : Nat) : Nat := elem w (s.vlane s.group r (j / (32 / w))) (j % (32 / w))

/-- The lanes of a register that hold a source chosen per element with poison. -/
def poisonLanes (w : Nat) (f : Nat → Bool) : BitVec 16 :=
  (List.range 16).foldl (fun m l =>
    if (List.range (32 / w)).any fun e => f (32 / w * l + e) then m ||| (1#16 <<< l) else m) 0

/-- VPERM on bound registers: the index operand is consumed, the data operand's poison passes. -/
def State.vperm (s : State) (d a b w : Nat) : Out :=
  .next (s.consumeV [b] s.lanes fun s =>
    let idx (j : Nat) : Nat := s.gelem w b j % (512 / w)
    let val := ofLanes fun l => ofElems w fun e => s.gelem w a (idx (32 / w * l + e))
    let poison := poisonLanes w fun j => s.vpois s.group a (idx j / (32 / w))
    (s.oweV s.group d val s.lanes (poison &&& s.lanes) 2).measV 16 1 1)

/-- VPERM, 32-bit form. -/
def execVperm (d a b : BitVec 6) (et : BitVec 1) (s : State) : Out :=
  s.vperm (s.vwin d.toNat) (s.vwin a.toNat) (s.vwin b.toNat) (codeWidth (etW et))

/-- VPERM, 64-bit form. -/
def execVperm64 (d a b : BitVec 10) (e4 : BitVec 4) (s : State) : Out :=
  s.vperm d.toNat a.toNat b.toNat (codeWidth e4.toNat)

/-- The element numbers of the enabled lanes, rising. -/
def State.selected (s : State) (w : Nat) : List Nat :=
  (List.range (512 / w)).filter fun j => s.lanes.getLsbD (j / (32 / w))

/-- A result made of elements, each from a source element, zero, or kept (`srcOf` gives the source element; `zero` fills
the others, else they keep their values), with the lanes it touches and the count into a scalar. -/
def State.vplace (s : State) (d a sd w : Nat) (zero : Bool) (n : Nat) (srcOf : Nat → Option Nat) : Out :=
  let el (j : Nat) : Nat := match srcOf j with
    | some k => s.gelem w a k
    | none => if zero then 0 else s.gelem w d j
  let val := ofLanes fun l => ofElems w fun e => el (32 / w * l + e)
  let per := 32 / w
  let touched : BitVec 16 := (List.range 16).foldl (fun m l =>
    if zero || (List.range per).any fun e => (srcOf (per * l + e)).isSome then m ||| (1#16 <<< l) else m) 0
  let poison := poisonLanes w fun j => match srcOf j with
    | some k => s.vpois s.group a (k / per)
    | none => !zero && s.vpois s.group d (j / per)
  .next (((s.oweV s.group d val touched (poison &&& touched) 3).oweS sd (wd n) false 3 false).measV 16 1 1)

/-- VCOMPRESS on bound registers. -/
def State.vcompress (s : State) (d a sd w : Nat) (zero : Bool) : Out :=
  let sel := s.selected w
  s.vplace d a sd w zero sel.length fun j => sel[j]?

/-- VCOMPRESS, 32-bit form. -/
def execVcompress (d a r : BitVec 6) (z : BitVec 1) (s : State) : Out :=
  s.vcompress (s.vwin d.toNat) (s.vwin a.toNat) r.toNat 32 (z == 1)

/-- VCOMPRESS, 64-bit form. -/
def execVcompress64 (d a : BitVec 10) (r : BitVec 6) (z : BitVec 1) (e4 : BitVec 4) (s : State) : Out :=
  s.vcompress d.toNat a.toNat r.toNat (codeWidth e4.toNat) (z == 1)

/-- VEXPAND on bound registers. -/
def State.vexpand (s : State) (d a sd w : Nat) (zero : Bool) : Out :=
  let sel := s.selected w
  s.vplace d a sd w zero sel.length fun j => sel.idxOf? j

/-- VEXPAND, 32-bit form. -/
def execVexpand (d a r : BitVec 6) (z : BitVec 1) (s : State) : Out :=
  s.vexpand (s.vwin d.toNat) (s.vwin a.toNat) r.toNat 32 (z == 1)

/-- VEXPAND, 64-bit form. -/
def execVexpand64 (d a : BitVec 10) (r : BitVec 6) (z : BitVec 1) (e4 : BitVec 4) (s : State) : Out :=
  s.vexpand d.toNat a.toNat r.toNat (codeWidth e4.toNat) (z == 1)

/-! ### Reductions and scans (11 R332, R333) -/

/-- A value put into element 0 of `d`, the rest of its lane kept. -/
def State.oweFirst (s : State) (d w v lat wgt : Nat) : State :=
  let old := s.vlane s.group d 0
  let lane : W32 := ofElems w fun e => if e = 0 then v else elem w old e
  (s.oweV s.group d (lane.setWidth 512) 1 (if w < 32 && s.vpois s.group d 0 then 1 else 0) lat).measV wgt 1 1

/-- The elements of the enabled lanes. -/
def State.velems (s : State) (c a : Nat) : List Nat :=
  let w := codeWidth c
  (s.selected w).map (s.gelem w a)

/-- An integer element's value. -/
def intVal (c v : Nat) : Int := if isSigned c then sext (codeWidth c) v else v

/-- The code a WIDE sum is written in: FP32, i32 or n32. -/
def wideCode (c : Nat) : Nat := if isFloat c then 0 else if isSigned c then 10 else 14

/-- VREDADD on bound registers. -/
def State.vredadd (s : State) (d a c : Nat) (wide : Bool) : Out :=
  .next (s.consumeV [a] s.lanes fun s =>
    let o := if wide then wideCode c else c
    let els := s.velems c a
    let v := if isFloat c then
        (if els.isEmpty then 0 else s.vround o 0 0 (flSum s.vdown (els.map (decodeFloat c))))
      else s.narrow o ((els.map (intVal c)).sum)
    (s.oweFirst d (codeWidth o) v 6 24).markDraw (isFloat c && s.vecDraws))

/-- The code of a reduction or scan in its 32-bit form: K chooses float or signed integer (11 R317). -/
def kCode (k et : BitVec 1) : Nat := if k = 0 then etF et else etI et

/-- VREDADD, 32-bit form. -/
def execVredadd (d a : BitVec 6) (k et : BitVec 1) (s : State) : Out :=
  s.vredadd (s.vwin d.toNat) (s.vwin a.toNat) (kCode k et) false

/-- VREDADD, 64-bit form. -/
def execVredadd64 (d a : BitVec 10) (e4 : BitVec 4) (w : BitVec 1) (s : State) : Out :=
  s.vredadd d.toNat a.toNat e4.toNat (w == 1)

/-- An encoding with a NaN made canonical (04 R121). -/
def canon (c v : Nat) : Nat := if isFloat c && decodeFloat c v == .nan then canonNan c else v

/-- The maximum or minimum of encodings; the empty set gives the other end of the range. -/
def extreme (c : Nat) (mx : Bool) (l : List Nat) : Nat :=
  if isFloat c then
    match l with
    | [] => infCode c mx
    | v :: vs => canon c (vs.foldl (fminmax c mx) v)
  else
    let start := if mx then (intRange c).1 else (intRange c).2
    intCode c (l.foldl (fun a v => if mx then max a (intVal c v) else min a (intVal c v)) start)

/-- VREDMAX and VREDMIN on bound registers. -/
def State.vredext (s : State) (mx : Bool) (d a c : Nat) : Out :=
  .next (s.consumeV [a] s.lanes fun s => s.oweFirst d (codeWidth c) (extreme c mx (s.velems c a)) 4 16)

/-- VREDMAX, 32-bit form. -/
def execVredmax (d a : BitVec 6) (k et : BitVec 1) (s : State) : Out :=
  s.vredext true (s.vwin d.toNat) (s.vwin a.toNat) (kCode k et)

/-- VREDMAX, 64-bit form. -/
def execVredmax64 (d a : BitVec 10) (e4 : BitVec 4) (s : State) : Out := s.vredext true d.toNat a.toNat e4.toNat

/-- VREDMIN, 32-bit form. -/
def execVredmin (d a : BitVec 6) (k et : BitVec 1) (s : State) : Out :=
  s.vredext false (s.vwin d.toNat) (s.vwin a.toNat) (kCode k et)

/-- VREDMIN, 64-bit form. -/
def execVredmin64 (d a : BitVec 10) (e4 : BitVec 4) (s : State) : Out := s.vredext false d.toNat a.toNat e4.toNat

/-- VSCAN on bound registers: each prefix from its exact sum. -/
def State.vscan (s : State) (d a c : Nat) (ex : Bool) : Out :=
  .next (s.consumeV [a] s.lanes fun s =>
    let w := codeWidth c
    let pre (j : Nat) : List Nat :=
      ((s.selected w).filter fun i => if ex then decide (i < j) else decide (i ≤ j)).map (s.gelem w a)
    let el (l e : Nat) : Nat :=
      let p := pre (32 / w * l + e)
      if isFloat c then (if p.isEmpty then 0 else s.vround c l e (flSum s.vdown (p.map (decodeFloat c))))
      else s.narrow c ((p.map (intVal c)).sum)
    let val := ofLanes fun l => if s.lanes.getLsbD l then ofElems w (el l) else 0
    ((s.oweV s.group d val s.lanes 0 6).measV 32 1 1).markDraw (isFloat c && s.vecDraws))

/-- VSCAN, 32-bit form. -/
def execVscan (d a : BitVec 6) (k et : BitVec 1) (s : State) : Out :=
  s.vscan (s.vwin d.toNat) (s.vwin a.toNat) (kCode k et) false

/-- VSCAN, 64-bit form. -/
def execVscan64 (d a : BitVec 10) (e4 : BitVec 4) (x : BitVec 1) (s : State) : Out :=
  s.vscan d.toNat a.toNat e4.toNat (x == 1)

/-! ### Conversion (11 R335 to R339) -/

/-- Scv of an element (04 R133): decode, times m × 2^E exactly, clip, one rounding. Between integers with clip mode NONE
the integer wraps. -/
def scv (sf df : Nat) (rd : Rnd) (cl : Nat × Nat) (mult : Fl) (v : Nat) : Nat :=
  let x := (decodeNum sf v).mul mult
  if isFloat df then roundFloat df rd cl.1 (clip df cl.1 cl.2 x)
  else if !isFloat sf && cl.1 == 0 && x.isFin then intCode df (roundInt rd x)
  else roundNum df rd cl.1 cl.2 x

/-- VCVT (11 R335). -/
def execVcvt (d a : BitVec 10) (sf df : BitVec 4) (p : BitVec 3) (m : BitVec 6) (x : BitVec 8) (s : State) : Out :=
  .next (s.consumeVS m.toNat fun s => s.consumeV [a.toNat] s.lanes fun s =>
    let ws := codeWidth sf.toNat
    let wd' := codeWidth df.toNat
    let ps := 32 / ws
    let pd := 32 / wd'
    let e0 := x.toInt
    let mult := (if m = 0 then Fl.fin false 1 0 else low32 (s.sreg m.toNat)).mul (.fin false 1 e0)
    let srcOf (k : Nat) : Option Nat :=
      if pd ≤ ps then some (p.toNat * pd + k % pd)
      else if p.toNat * ps ≤ k ∧ k < p.toNat * ps + ps then some (k - p.toNat * ps) else none
    let lane (l : Nat) : W32 :=
      let old := s.vlane s.group d.toNat l
      ofElems wd' fun k => match srcOf k with
        | some e => scv sf.toNat df.toNat (s.vecRnd s.group l e) s.clipOf mult (s.velem sf.toNat a.toNat l e)
        | none => elem wd' old k
    let val := ofLanes fun l => if s.lanes.getLsbD l then lane l else 0
    let poison : BitVec 16 := if ps < pd then
        (laneList s.lanes).foldl (fun q l => if s.vpois s.group d.toNat l then q ||| (1#16 <<< l) else q) 0
      else 0
    let used := if pd ≤ ps then (List.range pd).map (p.toNat * pd + ·) else List.range ps
    let act := ((laneList s.lanes).map fun l =>
      (used.filter fun e => !isZeroCode sf.toNat (s.velem sf.toNat a.toNat l e)).length).sum
    ((s.oweV s.group d.toNat val s.lanes poison 4).markDraw s.vecDraws).measV 24 act (512 / ws))

/-- VRND (11 R336): always stochastic with R bits; then encoded exactly in SF. -/
def execVrnd (d a : BitVec 10) (sf tf : BitVec 4) (r : BitVec 5) (s : State) : Out :=
  s.vmap d.toNat [a.toNat] sf.toNat 20 3 (s.lanes != 0) fun l e v =>
    let q := drawBits s.ctx.c.rkey (laneCounter s.ctx.c.rctr s.group l 0) e r.toNat
    let x := clip tf.toNat s.clipOf.1 s.clipOf.2 (decodeFloat sf.toNat (op0 v))
    roundFloat sf.toNat rne 0 (decodeFloat tf.toNat (roundFloat tf.toNat ⟨5, r.toNat, q⟩ s.clipOf.1 x))

/-- VRNG (11 R337): the word, or the FP32 value (w0 >> 8) × 2^−24. -/
def execVrng (d : BitVec 6) (k : BitVec 2) (s : State) : Out :=
  let val := ofLanes fun l => if s.lanes.getLsbD l then
      let w0 := philox s.ctx.c.rkey (laneCounter s.ctx.c.rctr s.group l 0) 0
      if k = 0 then w0 else toF32 rne (.fin false (w0.toNat / 256) (-24))
    else 0
  .next (((s.oweV s.group (s.vwin d.toNat) val s.lanes 0 4).markDraw (s.lanes != 0)).measV 32 1 1)

/-- VPACK (11 R338): wraps unless a SAT prefix or FMT.CM asks for saturation; a SAT prefix of mode NONE stands before FMT.CM, and wraps
(08 R225, 04 R130, log 21). -/
def execVpack (d a b : BitVec 10) (sf : BitVec 4) (s : State) : Out :=
  .next (s.consumeV [a.toNat, b.toNat] s.lanes fun s =>
    let c := sf.toNat
    let o := c - 1
    let per := 32 / codeWidth c
    let sat : Bool := s.clipOf.1 != 0
    let lane (l : Nat) : W32 := ofElems (codeWidth o) fun k =>
      let v := intVal c (if k < per then s.velem c a.toNat l k else s.velem c b.toNat l (k - per))
      intCode o (if sat then saturate o v else v)
    let val := ofLanes fun l => if s.lanes.getLsbD l then lane l else 0
    (s.oweV s.group d.toNat val s.lanes 0 2).measV 12 (s.active c [a.toNat, b.toNat]) (512 / codeWidth c))

/-- An element widened (11 R339). -/
def widen (sf df : Nat) (sb xb : Byte) (v : Nat) : Nat :=
  if sf = 3 ∨ sf = 4 ∨ sf = 5 then roundFloat 0 rne 1 (clip 0 1 0 (blockVal v sf sb xb))
  else if isFloat sf then roundFloat 0 rne 0 (decodeFloat sf v)
  else intCode df (intVal sf v)

/-- VUNPK (11 R339). -/
def execVunpk (d a : BitVec 10) (sf df : BitVec 4) (p : BitVec 3) (r : BitVec 6) (s : State) : Out :=
  .next ((if sf.toNat ∈ [3, 4, 5] then s.consumeVS r.toNat else fun f => f s) fun s =>
    s.consumeV [a.toNat] s.lanes fun s =>
      let v := s.sreg r.toNat
      let sb : Byte := if r = 0 then 0x7F else byteOf v 0
      let xb : Byte := if r = 0 then 0 else byteOf v 1
      let w := codeWidth df.toNat
      let pd := 32 / w
      let val := ofLanes fun l => if s.lanes.getLsbD l then
          ofElems w fun k => widen sf.toNat df.toNat sb xb (s.velem sf.toNat a.toNat l (p.toNat * pd + k))
        else 0
      let isX (v : Nat) : Bool := sf == 5 && v == 8
      let act := ((laneList s.lanes).map fun l => ((List.range pd).filter fun k =>
        let v := s.velem sf.toNat a.toNat l (p.toNat * pd + k)
        if isX v then !isZeroCode 3 xb.toNat else !isZeroCode sf.toNat v).length).sum
      (s.oweV s.group d.toNat val s.lanes 0 2).measV 12 act (512 / codeWidth sf.toNat))

/-! ### Sparsity and block scales (11 R340, R341) -/

/-- The first magnitude is larger than the second; NaN is larger than every number. -/
def magGt (x y : Fl) : Bool :=
  let ab : Fl → Fl | .fin _ m e => .fin false m e | .inf _ => .inf false | .nan => .nan
  match x, y with
  | .nan, .nan => false
  | .nan, _ => true
  | _, .nan => false
  | x, y => (ab x).cmp (ab y) == 1

/-- The row of largest magnitude among those of a list, the lowest row winning ties. -/
def largest (f : Nat → Fl) : List Nat → Nat → Nat
  | [], b => b
  | r :: rs, b => largest f rs (if magGt (f r) (f b) then r else b)

/-- The two kept rows of a column of four (11 R340). -/
def keepTwo (f : Nat → Fl) : Nat × Nat :=
  let p := largest f [1, 2, 3] 0
  let rest := [0, 1, 2, 3].filter (· != p)
  (p, largest f rest.tail (rest.headD 0))

/-- VSPCOMP (11 R340). -/
def execVspcomp (d a x : BitVec 10) (m sf : BitVec 4) (s : State) : Out :=
  .next (s.consumeV [a.toNat, a.toNat + 1, a.toNat + 2, a.toNat + 3] 0xFFFF fun s =>
    let c := sf.toNat
    let w := codeWidth c
    let cols := 512 / w
    let el (r j : Nat) : Nat := s.gelem w (a.toNat + r) j
    let keep (j : Nat) : Nat × Nat := keepTwo fun r => decodeFloat c (el r j)
    let pair (j : Nat) : Nat := let k := keep j; el k.1 j + el k.2 j * 2 ^ w
    let half (h : Nat) : BitVec 512 := ofLanes fun l => ofElems (2 * w) fun e =>
      pair (h * (cols / 2) + 32 / (2 * w) * l + e)
    let nib (j : Nat) : Nat := if j < cols then let k := keep j; k.1 + 4 * k.2 else 0
    let idx : BitVec 512 := ofLanes fun l => ofElems 4 fun e => nib (8 * l + e)
    let any := (List.range cols).any fun j => (List.range 4).any fun r => !isZeroCode c (el r j)
    let s := ((s.oweV s.group d.toNat (half 0) 0xFFFF 0 4).oweV s.group (d.toNat + 1) (half 1) 0xFFFF 0 4).oweV s.group
      x.toNat idx 0xFFFF 0 4
    (s.owe ⟨.mreg s.group m.toNat, if any then 1 else 0, 0xFFFF, 0, 4, false⟩).measV 24 1 1)

/-- 2^(127 − b). -/
def invScale (b : Nat) : Fl := .fin false 1 (127 - (b : Int))

/-- A value's magnitude. -/
def Fl.abs : Fl → Fl
  | .fin _ m e => .fin false m e
  | .inf _ => .inf false
  | .nan => .nan

/-- The block scale and X bytes for the element of largest magnitude (11 R341 MODE 1). -/
def blockScale (df : Nat) (m : Option Fl) : Nat × Nat :=
  match m with
  | none => (0x7F, 0)
  | some (.fin n k e) =>
    if k = 0 then (0x7F, 0) else
      let sb := ((List.range 255).find? fun b =>
        decide (((Fl.fin false k e).mul (invScale b)).cmp (maxFinite df) ≤ 0)).getD 254
      let xb := if df = 5 then roundFloat 3 rne 1 (clip 3 1 0 ((Fl.fin n k e).mul (invScale sb))) else 0
      (sb, xb)
  | some _ => (0xFF, 0x7F)

/-- An E2M1X code for a value, 0b1000 where X is nearer than every fixed value (11 R341 MODE 2). -/
def blockCode (sb xb : Nat) (x : Fl) : Nat :=
  let v := x.mul (invScale sb)
  let f := roundFloat 5 rne 1 (clip 5 1 0 v)
  let dist (y : Fl) : Fl := (flSum false [v, y.negate]).abs
  let dx := dist (decodeFloat 3 xb)
  let df := dist (decodeFloat 5 f)
  if dx != .nan && df != .nan && dx.cmp df == -1 then 8 else f

/-- VBLKSCL (11 R341). In MODE 0 a NaN is the canonical one (04 R121); in MODE 1 a NaN counts as the largest magnitude, as R340 has
it for VSPCOMP (log 21). -/
def execVblkscl (d a b : BitVec 10) (o : BitVec 2) (df : BitVec 4) (p : BitVec 3) (s : State) : Out :=
  let srcs := match o.toNat with
    | 0 => [a.toNat, d.toNat]
    | 1 => [a.toNat]
    | _ => [a.toNat, b.toNat]
  .next (s.consumeV srcs s.lanes fun s =>
    let la (r l : Nat) : W32 := s.vlane s.group r l
    let lane (l : Nat) : W32 := match o.toNat with
      | 0 =>
        let x := la a.toNat l
        let y := la d.toNat l
        BitVec.ofNat 32 (canon 0 (if f32 x == .nan || magGt (f32 x) (f32 y) then x else y).toNat)
      | 1 =>
        let best := (laneList s.lanes).foldl (fun acc k => match acc with
          | none => some (f32 (la a.toNat k))
          | some y => if magGt (f32 (la a.toNat k)) y then some (f32 (la a.toNat k)) else some y) none
        let r := blockScale df.toNat best
        BitVec.ofNat 32 (r.1 + 256 * r.2)
      | _ =>
        let k := la b.toNat l
        let code := blockCode (bits k 0 8) (bits k 8 8) (f32 (la a.toNat l))
        let old := la d.toNat l
        ofElems 4 fun e => if e = p.toNat then code else elem 4 old e
    let val := ofLanes fun l => if s.lanes.getLsbD l then lane l else 0
    let poison : BitVec 16 := if o.toNat = 2 then
        (laneList s.lanes).foldl (fun q l => if s.vpois s.group d.toNat l then q ||| (1#16 <<< l) else q) 0
      else 0
    (s.oweV s.group d.toNat val s.lanes poison 4).measV 24 1 1)

/-! ### Predicate logic (11 R342, R343) -/

/-- A Q3 operation on masks of a group or on predicates. -/
def State.logic (s : State) (d a b g : Nat) (k : BitVec 1) (f : BitVec 16 → BitVec 16 → BitVec 16) : Out :=
  s.scalar fun s =>
    if k = 0 then s.oweM g d (f (s.mreg g a) (s.mreg g b)) 0xFFFF false
    else
      let p (n : Nat) : BitVec 16 := if s.kreg n then 1 else 0
      s.oweK d ((f (p a) (p b)).getLsbD 0) false

/-- PAND. -/
def execPand (d a b : BitVec 4) (g : BitVec 3) (k : BitVec 1) (s : State) : Out :=
  s.logic d.toNat a.toNat b.toNat g.toNat k fun x y => x &&& y

/-- POR. -/
def execPor (d a b : BitVec 4) (g : BitVec 3) (k : BitVec 1) (s : State) : Out :=
  s.logic d.toNat a.toNat b.toNat g.toNat k fun x y => x ||| y

/-- PXOR. -/
def execPxor (d a b : BitVec 4) (g : BitVec 3) (k : BitVec 1) (s : State) : Out :=
  s.logic d.toNat a.toNat b.toNat g.toNat k fun x y => x ^^^ y

/-- PANDN. -/
def execPandn (d a b : BitVec 4) (g : BitVec 3) (k : BitVec 1) (s : State) : Out :=
  s.logic d.toNat a.toNat b.toNat g.toNat k fun x y => x &&& ~~~ y

/-- PNOT. -/
def execPnot (d a : BitVec 4) (g : BitVec 3) (k : BitVec 1) (s : State) : Out :=
  s.logic d.toNat a.toNat 0 g.toNat k fun x _ => ~~~ x

/-- PMOV. -/
def execPmov (d a : BitVec 4) (g : BitVec 3) (k : BitVec 1) (s : State) : Out :=
  s.logic d.toNat a.toNat 0 g.toNat k fun x _ => x

/-- PSETK: ANY, ALL or NONE of the bits of a mask. -/
def execPsetk (k a : BitVec 4) (g : BitVec 3) (c : BitVec 2) (s : State) : Out :=
  s.scalar fun s =>
    let m := s.mreg g.toNat a.toNat
    s.oweK k.toNat (match c.toNat with | 0 => m != 0 | 1 => m == 0xFFFF | _ => m == 0) false

/-- PCNT. -/
def execPcnt (d : BitVec 6) (a : BitVec 4) (g : BitVec 3) (s : State) : Out :=
  s.scalar fun s => s.oweS d.toNat (wd (popCount (s.mreg g.toNat a.toNat))) false 1 false

/-- PFIRST. -/
def execPfirst (d a : BitVec 4) (g : BitVec 3) (s : State) : Out :=
  s.scalar fun s =>
    let m := s.mreg g.toNat a.toNat
    s.oweM g.toNat d.toNat (m &&& (-m)) 0xFFFF false

/-- PKTOM: exact at latency 1, in each group named. -/
def execPktom (d a : BitVec 4) (g : BitVec 8) (s : State) : Out :=
  s.scalar fun s =>
    let v : BitVec 16 := if s.kreg a.toNat then 0xFFFF else 0
    (groups g.toNat).foldl (fun s k => s.oweM k d.toNat v 0xFFFF true) s

end Sys2Proof.Machine
end

