-- ==== Sys2Proof/Machine/Memory.lean ====
section
/-! DEFINITION. The meanings of classes L and T at issue: they check their addresses, and enter the load queue, the
landing buffer and the store queue (10 R280 to R298). The queues themselves act in Queues.lean. -/

namespace Sys2Proof.Machine

/-! ### Version sources (03 R93)

A version source is a number: 0 the newest committed version; 3 + 4 × S the newest at or below stamp S; 2 + 4 × TXID the
transaction view. -/

/-- The stamp source of a snapshot. -/
def srcStamp (stamp : Nat) : Nat := 3 + 4 * stamp

/-- The transaction-view source. -/
def srcTx (txid : Nat) : Nat := 2 + 4 * txid

/-- TXS.STATE of the context (03 R109). -/
def Context.txState (c : Context) : Nat := bits c.c.txs 2 2

/-- The bound snapshot's source; the newest version while SNAP is 0. -/
def State.boundSource (s : State) : Nat :=
  if s.ctx.c.snap &&& 0xFFFF0FFF = 0 then 0
  else srcStamp (NatMap.get .reset s.snaps (bits s.ctx.c.snap 0 12)).stamp

/-- The transaction view of the context: of its registered transaction; 16,384 stands for one whose TXBEGIN is still on its
way, so that the read waits for it (03 R93, R100). -/
def State.txSource (s : State) : Nat := srcTx (s.ctx.txid.getD 16384)

/-- The version source of a read of the word at hand (03 R93). -/
def State.verSource (s : State) : Nat :=
  let inTx := s.ctx.txState == 1
  let all := s.ctx.c.snap.getLsbD 63
  match s.env.pfx.snp with
  | none => if inTx then s.txSource else if all then s.boundSource else 0
  | some k =>
    match k.toNat with
    | 0 => s.boundSource
    | 1 => 0
    | _ => if inTx then s.txSource else if all then s.boundSource else 0

/-- The transaction a write of the word at hand belongs to (03 R101, R102): its number in the transaction table, or 16,384
for a transaction that was never registered or has not been yet. -/
def State.txOfWrite (s : State) : Option Nat := if s.ctx.txState = 1 then some (s.ctx.txid.getD 16384) else none

/-! ### Entering the queues -/

/-- The granules that byte ranges touch, each once, in order. -/
def granulesOf (l : List (Nat × Nat)) : List Nat :=
  (l.flatMap fun x => (List.range ((x.1 % 8 + x.2 + 7) / 8)).map fun i => x.1 / 8 * 8 + 8 * i).eraseDups

/-- A load enters the load queue (10 R282). -/
def State.pushLoad (s : State) (kind : LKind) (swz : Bool) (ranges : List (Nat × Nat)) (fmt : LFmt) (left : Nat)
    (acq : Option Nat) : State :=
  s.modQ fun q => { q with
    nextId := q.nextId + 1
    lq := q.lq ++ [{ id := q.nextId, kind := kind, swz := swz, need := granulesOf ranges, got := [], fmt := fmt,
                     left := left, snp := s.verSource, acq := acq, bundle := s.issue.addr, handler := s.inh,
                     hold := false }] }

/-- A fixed-latency load. -/
def State.fixedLoad (s : State) (swz : Bool) (ranges : List (Nat × Nat)) (fmt : LFmt) (left : Nat) (acq : Option Nat) :
    State := s.pushLoad .fixed swz ranges fmt left acq

/-- A landing-buffer entry whose arrival is `ad` bundles away (02 R67); its number is the next entry's. -/
def State.pushLanding (s : State) (kind : LandKind) (ad : Nat) : State :=
  s.modQ fun q => { q with
    landing := q.landing ++ [{ id := q.nextId, kind := kind, left := ad, answer := .waiting, bundle := s.issue.addr,
                               handler := s.inh, eager := false }] }

/-- A long load: a landing entry and a load-queue entry (10 R287). -/
def State.longLoad (s : State) (ranges : List (Nat × Nat)) (fmt : LFmt) (ad : Nat) (acq : Option Nat) : State :=
  (s.pushLanding (.load fmt) ad).pushLoad (.land s.ctx.q.nextId) false ranges fmt ad acq

/-- An entry enters the store queue. -/
def State.pushStore (s : State) (kind : SKind) (loc swz : Bool) : State :=
  s.modQ fun q => { q with
    nextId := q.nextId + 1
    sq := q.sq ++ [{ id := q.nextId, kind := kind, local_ := loc, swz := swz, tx := s.txOfWrite,
                     bundle := s.issue.addr, handler := s.inh, sent := .no }] }

/-- The scope of a word: its SCO prefix, else its field or default (08 R225). -/
def State.scopeOf (s : State) (field : Nat) : Nat := match s.env.pfx.sco with | some c => c.toNat | none => field

/-! ### Scalar loads (10 R284 to R287) -/

/-- A local scalar load at a computed address. -/
def State.scalarLoad (s : State) (d base sz : Nat) (sx : Bool) (disp : Int) (limit : Nat) (acq : Option Nat) : Out :=
  s.scalar fun s => s.consume (baseRegs limit base) fun s =>
    let addr := ea (if limit = 48 then s.base6 base else s.base7 base) disp
    s.checkMem [(addr, 2 ^ sz, 2 ^ sz, true, 1)] fun s =>
      s.fixedLoad false [(addr, 2 ^ sz)] (.scalar (s.sname d) sz sx addr) (s.lat 4 6) acq

/-- LD, 32-bit form: 8 bytes, LIN view, displacement in units of 8 B (08 R222). -/
def execLd (d b : BitVec 6) (i : BitVec 7) (s : State) : Out :=
  s.scalarLoad d.toNat b.toNat 3 false (8 * s.imm i) 48 none

/-- LD, 64-bit form. -/
def execLd64 (d : BitVec 10) (b : BitVec 7) (i : BitVec 26) (z : BitVec 2) (x : BitVec 1) (s : State) : Out :=
  s.scalarLoad d.toNat b.toNat z.toNat (x == 1) i.toInt 64 none

/-- LDACQ, local, 32-bit form: sys scope unless SCO says otherwise. -/
def execLdacq (d b : BitVec 6) (i : BitVec 7) (s : State) : Out :=
  s.scalarLoad d.toNat b.toNat 3 false (8 * s.imm i) 48 (some (s.scopeOf 5))

/-- LDACQ, local, 64-bit form. -/
def execLdacq64 (d : BitVec 10) (b : BitVec 7) (i : BitVec 26) (z : BitVec 2) (x : BitVec 1) (c : BitVec 3)
    (s : State) : Out :=
  s.scalarLoad d.toNat b.toNat z.toNat (x == 1) i.toInt 64 (some (s.scopeOf c.toNat))

/-- A long scalar load. -/
def State.scalarLong (s : State) (d base sz : Nat) (sx : Bool) (ad : Nat) (disp : Int) (acq : Option Nat) : Out :=
  s.scalar fun s => s.consume (baseRegs 64 base) fun s =>
    let addr := ea (s.base7 base) disp
    s.checkMem [(addr, 2 ^ sz, 2 ^ sz, false, 1)] fun s =>
      s.longLoad [(addr, 2 ^ sz)] (.scalar (s.sname d) sz sx addr) ad acq

/-- LDL. -/
def execLdl (d : BitVec 6) (b : BitVec 7) (z : BitVec 2) (x : BitVec 1) (a : BitVec 12) (i : BitVec 19)
    (s : State) : Out :=
  s.scalarLong d.toNat b.toNat z.toNat (x == 1) a.toNat i.toInt none

/-- LDACQ, long: LDL with ACQ. -/
def execLdacqLong (d : BitVec 6) (b : BitVec 7) (z : BitVec 2) (x : BitVec 1) (c : BitVec 3) (a : BitVec 12)
    (i : BitVec 19) (s : State) : Out :=
  s.scalarLong d.toNat b.toNat z.toNat (x == 1) a.toNat i.toInt (some (s.scopeOf c.toNat))

/-! ### Vector and tile loads (10 R288 to R293) -/

/-- The lines of the groups named, group g_j at `addr + 64 × j`, register `d`. -/
def groupLines (addr d : Nat) (gs : List Nat) : List (Nat × Nat × Nat) :=
  ((List.range gs.length).zip gs).map fun x => (addr + 64 * x.1, x.2, d)

/-- The checks of a line load or store: each line 64-byte aligned. -/
def lineChecks (mustLocal : Bool) (kind : Nat) (l : List Nat) : List (Nat × Nat × Nat × Bool × Nat) :=
  l.map fun a => (a, 64, 64, mustLocal, kind)

/-- A vector load of lines from the local window in the SWZ view. -/
def State.lineLoad (s : State) (l : List (Nat × Nat × Nat)) : State :=
  let addrs := (l.map fun x => x.1).eraseDups
  s.checkMem (lineChecks true 1 addrs) fun s =>
    s.fixedLoad true (addrs.map fun a => (a, 64)) (.lines l) (s.lat 4 6) none

/-- VLD, 32-bit form: lane group 0, window register, displacement in units of 64 B (08 R222). -/
def execVld (d b : BitVec 6) (i : BitVec 7) (s : State) : Out :=
  s.scalar fun s => s.consume (baseRegs 48 b.toNat) fun s =>
    s.lineLoad (groupLines (ea (s.base6 b.toNat) (64 * s.imm i)) (s.vwin d.toNat) [0])

/-- VLD, 64-bit form. -/
def execVld64 (d : BitVec 10) (b : BitVec 7) (i : BitVec 26) (g : BitVec 8) (s : State) : Out :=
  s.scalar fun s => s.consume (baseRegs 64 b.toNat) fun s =>
    s.lineLoad (groupLines (ea (s.base7 b.toNat) i.toInt) d.toNat (groups g.toNat))

/-- VLDB, 32-bit form. -/
def execVldb (d b : BitVec 6) (i : BitVec 7) (s : State) : Out :=
  s.scalar fun s => s.consume (baseRegs 48 b.toNat) fun s =>
    s.lineLoad [(ea (s.base6 b.toNat) (64 * s.imm i), 0, s.vwin d.toNat)]

/-- VLDB, 64-bit form: the one line to every named group. -/
def execVldb64 (d : BitVec 10) (b : BitVec 7) (i : BitVec 26) (g : BitVec 8) (s : State) : Out :=
  s.scalar fun s => s.consume (baseRegs 64 b.toNat) fun s =>
    s.lineLoad ((groups g.toNat).map fun k => (ea (s.base7 b.toNat) i.toInt, k, d.toNat))

/-- VLDL: displacement in units of 64 B. -/
def execVldl (d : BitVec 10) (b : BitVec 7) (g : BitVec 8) (a : BitVec 12) (i : BitVec 14) (s : State) : Out :=
  s.scalar fun s => s.consume (baseRegs 64 b.toNat) fun s =>
    let addr := ea (s.base7 b.toNat) (64 * i.toInt)
    let l := groupLines addr d.toNat (groups g.toNat)
    s.checkMem [(addr, 64 * l.length, 64, false, 1)] fun s => s.longLoad [(addr, 64 * l.length)] (.lines l) a.toNat none

/-- The enabled elements of a gather or scatter: address, group, lane (10 R291). -/
def State.elements (s : State) (base : Word) (x : Nat) (gs : List Nat) (sc m : Nat) : List (Nat × Nat × Nat) :=
  gs.flatMap fun g => (laneList (s.mreg g m)).map fun l =>
    ((base + wd ((s.vlane g x l).toNat <<< sc)).toNat, g, l)

/-- An index lane that is read holds poison. -/
def State.indexPoison (s : State) (x : Nat) (gs : List Nat) (m : Nat) : Bool :=
  gs.any fun g => (laneList (s.mreg g m)).any fun l => s.vpois g x l

/-- VLDX: gather of 32-bit elements; disabled lanes request nothing. -/
def execVldx (d x : BitVec 10) (b : BitVec 7) (g : BitVec 8) (c : BitVec 2) (m : BitVec 4) (s : State) : Out :=
  s.scalar fun s =>
    let gs := groups g.toNat
    if s.indexPoison x.toNat gs m.toNat then s.trapMchk else
    s.consume (baseRegs 64 b.toNat) fun s =>
      let els := s.elements (s.base7 b.toNat) x.toNat gs c.toNat m.toNat
      s.checkMem (els.map fun e => (e.1, 4, 4, true, 1)) fun s =>
        s.fixedLoad true (els.map fun e => (e.1, 4)) (.lanes (els.map fun e => (e.1, e.2.1, d.toNat, e.2.2)))
          (s.lat 8 10) none

/-- The lines of a tile: row `i` of group g_j at `addr + 64 × (i × stride + j)`, in row then group order. -/
def tileLines (addr d rows stride : Nat) (gs : List Nat) : List (Nat × Nat × Nat) :=
  (List.range rows).flatMap fun i => ((List.range gs.length).zip gs).map fun x =>
    (addr + 64 * (i * stride + x.1), x.2, d + i)

/-- The transposed units of a tile: line addresses, group, first register (10 R293). -/
def tileUnits (addr d rows stride ew : Nat) (gs : List Nat) : List (List Nat × Nat × Nat) :=
  ((List.range gs.length).zip gs).map fun x =>
    ((List.range rows).map fun i =>
      if ew ≤ 1 then addr + 64 * (i * stride + x.1) else addr + 64 * rows * x.1 + 64 * i, x.2, d)

/-- TLD, plain or transposed. -/
def execTld (d : BitVec 10) (b : BitVec 7) (g : BitVec 8) (t : BitVec 14) (r : BitVec 5) (x : BitVec 1) (w : BitVec 2)
    (s : State) : Out :=
  s.scalar fun s => s.consume (baseRegs 64 b.toNat) fun s =>
    let addr := (s.base7 b.toNat).toNat
    let rows := r.toNat + 1
    let gs := groups g.toNat
    if x = 0 then
      let l := tileLines addr d.toNat rows t.toNat gs
      s.lineLoad l
    else
      let u := tileUnits addr d.toNat rows t.toNat w.toNat gs
      let addrs := (u.flatMap fun k => k.1).eraseDups
      s.checkMem (lineChecks true 1 addrs) fun s =>
        s.fixedLoad true (addrs.map fun a => (a, 64)) (.trans w.toNat u) (s.lat 6 8) none

/-! ### Prefetch (10 R294) -/

/-- One line asked for: allocated where it translates, lies in this package's cellar and may be cached (02 R66). -/
def State.prefLine (s : State) (va : Nat) : State :=
  if isLocal va then s else
    match s.translateCtx va .read with
    | (s, .ok pa leaf) =>
      if pa / spaceSize = 0 ∧ leafPeer leaf = 0 ∧ leaf.getLsbD 8 = false then
        (s.visit pa false true).1
      else s
    | (s, .fault _ _) => s

/-- PREF. -/
def execPref (c b : BitVec 6) (i : BitVec 7) (s : State) : Out :=
  s.scalar fun s => s.consume (baseRegs 48 b.toNat) fun s =>
    let addr := ea (s.base6 b.toNat) (128 * s.imm i)
    (List.range (c.toNat + 1)).foldl (fun s n => s.prefLine (addr / 128 * 128 + 128 * n)) s

/-! ### Stores (10 R295 to R298) -/

/-- A scalar store. -/
def State.scalarStore (s : State) (d base sz : Nat) (disp : Int) (limit : Nat) (rel : Option Nat) : Out :=
  s.scalar fun s => s.consume (baseRegs limit base) fun s =>
    let addr := ea (if limit = 48 then s.base6 base else s.base7 base) disp
    s.checkMem [(addr, 2 ^ sz, 2 ^ sz, false, 2)] fun s =>
      s.pushStore (.store (granules addr (valBytes (s.sreg d) (2 ^ sz)) (s.spois d)) rel) (isLocal addr) false

/-- ST, 32-bit form: 8 bytes. -/
def execSt (d b : BitVec 6) (i : BitVec 7) (s : State) : Out := s.scalarStore d.toNat b.toNat 3 (8 * s.imm i) 48 none

/-- ST, 64-bit form. -/
def execSt64 (d : BitVec 10) (b : BitVec 7) (i : BitVec 26) (z : BitVec 2) (s : State) : Out :=
  s.scalarStore d.toNat b.toNat z.toNat i.toInt 64 none

/-- STREL, 32-bit form: sys scope unless SCO says otherwise. -/
def execStrel (d b : BitVec 6) (i : BitVec 7) (s : State) : Out :=
  s.scalarStore d.toNat b.toNat 3 (8 * s.imm i) 48 (some (s.scopeOf 5))

/-- STREL, 64-bit form. -/
def execStrel64 (d : BitVec 10) (b : BitVec 7) (i : BitVec 26) (z : BitVec 2) (c : BitVec 3) (s : State) : Out :=
  s.scalarStore d.toNat b.toNat z.toNat i.toInt 64 (some (s.scopeOf c.toNat))

/-- The granules of one vector register of a group at a line, lanes of a set only: a poisoned lane poisons its granule. -/
def State.lineGranules (s : State) (addr g r : Nat) (lanes : BitVec 16) : List Granule :=
  (List.range 8).filterMap fun k =>
    let lo := lanes.getLsbD (2 * k)
    let hi := lanes.getLsbD (2 * k + 1)
    if !lo && !hi then none
    else
      let pois := (lo && s.vpois g r (2 * k)) || (hi && s.vpois g r (2 * k + 1))
      let data := (s.vlane g r (2 * k + 1)) ++ (s.vlane g r (2 * k))
      some ⟨addr + 8 * k, (if lo then 0x0F#8 else 0) ||| (if hi then 0xF0#8 else 0), if pois then none else some data⟩

/-- A store of lines to the local window in the SWZ view. -/
def State.lineStore (s : State) (l : List (Nat × Nat × Nat)) : State :=
  s.checkMem (lineChecks true 2 ((l.map fun x => x.1).eraseDups)) fun s =>
    s.pushStore (.store (l.flatMap fun x => s.lineGranules x.1 x.2.1 x.2.2 0xFFFF) none) true true

/-- VST, 32-bit form: lane group 0, window register. -/
def execVst (d b : BitVec 6) (i : BitVec 7) (s : State) : Out :=
  s.scalar fun s => s.consume (baseRegs 48 b.toNat) fun s =>
    s.lineStore (groupLines (ea (s.base6 b.toNat) (64 * s.imm i)) (s.vwin d.toNat) [0])

/-- VST, 64-bit form. -/
def execVst64 (d : BitVec 10) (b : BitVec 7) (i : BitVec 26) (g : BitVec 8) (s : State) : Out :=
  s.scalar fun s => s.consume (baseRegs 64 b.toNat) fun s =>
    s.lineStore (groupLines (ea (s.base7 b.toNat) i.toInt) d.toNat (groups g.toNat))

/-- A masked store: the enabled 4-byte elements of register `d` of each group, group and line by the list. -/
def State.maskStore (s : State) (l : List (Nat × Nat × Nat)) (m : Nat) : State :=
  let lines := l.filter fun x => s.mreg x.2.1 m != 0
  if l.any fun x => x.1 % 64 != 0 then s.trapBefore alignCause s.alignDetail 0
  else
    let els := lines.flatMap fun x => (laneList (s.mreg x.2.1 m)).map fun k => (x.1 + 4 * k, 4, 4, true, 2)
    s.checkMem els fun s =>
      s.pushStore (.store (lines.flatMap fun x => s.lineGranules x.1 x.2.1 x.2.2 (s.mreg x.2.1 m)) none) true true

/-- VSTM, 32-bit form: group 0 under mask m1. -/
def execVstm (d b : BitVec 6) (i : BitVec 7) (s : State) : Out :=
  s.scalar fun s => s.consume (baseRegs 48 b.toNat) fun s =>
    s.maskStore [(ea (s.base6 b.toNat) (64 * s.imm i), 0, s.vwin d.toNat)] 1

/-- VSTM, 64-bit form: one group, or all eight with group g at addr + 64 × g. -/
def execVstm64 (d : BitVec 10) (b : BitVec 7) (i : BitVec 26) (m l : BitVec 4) (s : State) : Out :=
  s.scalar fun s => s.consume (baseRegs 64 b.toNat) fun s =>
    let addr := ea (s.base7 b.toNat) i.toInt
    s.maskStore (if l.toNat = 8 then groupLines addr d.toNat (List.range 8) else [(addr, l.toNat, d.toNat)]) m.toNat

/-- VSTX: scatter of 32-bit elements in group then lane order. -/
def execVstx (d x : BitVec 10) (b : BitVec 7) (g : BitVec 8) (c : BitVec 2) (m : BitVec 4) (s : State) : Out :=
  s.scalar fun s =>
    let gs := groups g.toNat
    if s.indexPoison x.toNat gs m.toNat then s.trapMchk else
    s.consume (baseRegs 64 b.toNat) fun s =>
      let els := s.elements (s.base7 b.toNat) x.toNat gs c.toNat m.toNat
      s.checkMem (els.map fun e => (e.1, 4, 4, true, 2)) fun s =>
        s.pushStore (.store (els.flatMap fun e =>
          granules e.1 (valBytes (s.vlane e.2.1 d.toNat e.2.2) 4) (s.vpois e.2.1 d.toNat e.2.2)) none) true true

/-- TST: lines in row then group order, the later of two on one line determining it. -/
def execTst (d : BitVec 10) (b : BitVec 7) (g : BitVec 8) (t : BitVec 14) (r : BitVec 5) (s : State) : Out :=
  s.scalar fun s => s.consume (baseRegs 64 b.toNat) fun s =>
    s.lineStore (tileLines (s.base7 b.toNat).toNat d.toNat (r.toNat + 1) t.toNat (groups g.toNat))

end Sys2Proof.Machine
end

