-- ==== Sys2Proof/Machine/Versions.lean ====
section
/-! DEFINITION. Versioned memory: lines, records, the low-water stamp and the collector, snapshots, transactions, the
commit clock, and the arithmetic of the home units (02 R61, R62, 03 R80 to R117). -/

namespace Sys2Proof.Machine

/-! ### Home-unit arithmetic (02 R61, R62) -/

/-- Bytes of an element type: F32, BF16, I32, I64. -/
def etySize (ety : Nat) : Nat := match ety with | 1 => 2 | 3 => 8 | _ => 4

/-- One element update. -/
def rmwElem (ety op a b : Nat) : Nat :=
  let w := 8 * etySize ety
  let fc := if ety = 0 then 0 else 1
  match op with
  | 0 =>
    if ety ≤ 1 then roundFloat fc rne 0 (flSum false [decodeFloat fc a, decodeFloat fc b]) else (a + b) % 2 ^ w
  | 1 => if ety ≤ 1 then fminmax fc false a b else if sext w b < sext w a then b else a
  | 2 => if ety ≤ 1 then fminmax fc true a b else if sext w a < sext w b then b else a
  | 3 => a &&& b
  | 4 => a ||| b
  | _ => a ^^^ b

/-! ### Atomicity with the host (05 R166) -/

/-- A device RMW of a page with SYSATOM takes the line of an address from the host: the message that asks for it is sent, and
until the host has read the line again it may not write it (log 69). -/
def State.recall (s : State) (pa : Nat) (m : Message) : State :=
  State.send { s with recalled := NatMap.set false s.recalled (pa / 64) true } m

/-! ### Line images (03 R80) -/

/-- Granules of a line put into its image; a partial write leaves a poisoned granule poisoned (log 14). -/
def applyGranules (img : BitVec 1024) (pois : BitVec 16) (ws : List Granule) : BitVec 1024 × BitVec 16 :=
  ws.foldl (fun acc g =>
    let k := g.addr % 128 / 8
    match g.data with
    | none => (acc.1, acc.2 ||| (1#16 <<< k))
    | some d =>
      let m : BitVec 1024 := (List.range 8).foldl (fun m i =>
        if g.mask.getLsbD i then m ||| (0xFF#1024 <<< (64 * k + 8 * i)) else m) 0
      ((acc.1 &&& ~~~ m) ||| ((d.setWidth 1024 <<< (64 * k)) &&& m),
       if g.mask == 0xFF then acc.2 &&& ~~~ (1#16 <<< k) else acc.2)) (img, pois)

/-- The in-place image of a line and its poisoned granules. -/
def State.lineImage (s : State) (line : Nat) : BitVec 1024 × BitVec 16 :=
  (ofBytes 1024 (s.bytes (128 * line) 128),
   (List.range 16).foldl (fun m k => if NatMap.get false s.memPoison (16 * line + k) then m ||| (1#16 <<< k) else m) 0)

/-- A line passes through its hub's cache (02 R65). -/
def State.visitLine (s : State) (line : Nat) (wr alloc : Bool) : State :=
  (List.range 16).foldl (fun s k => (s.visit (128 * line + 8 * k) wr alloc).1) s

/-- A line's image put in place. -/
def State.setImage (s : State) (line : Nat) (img : BitVec 1024) (pois : BitVec 16) : State :=
  let s := s.setBytes (128 * line) (valBytes img 128)
  let m := (List.range 16).foldl (fun m k => NatMap.set false m (16 * line + k) (pois.getLsbD k)) s.memPoison
  { s with memPoison := m }

/-- The directory entry of a line, or the one a settled line gets (03 R81). -/
def State.lineEntry (s : State) (line : Nat) : LineEntry := (NatMap.find? s.dir line).getD ⟨0, [], [], none, []⟩

/-- A directory entry put in its place. -/
def State.setLine (s : State) (line : Nat) (e : LineEntry) : State := { s with dir := NatMap.put s.dir line e }

/-- Visible(line, S) (03 R93): the newest committed version stamped at or below S. -/
def State.visible (s : State) (line stamp : Nat) : BitVec 1024 × BitVec 16 :=
  match NatMap.find? s.dir line with
  | none => s.lineImage line
  | some e =>
    if e.stamp ≤ stamp then s.lineImage line
    else match e.chain.find? fun r => decide (r.stamp ≤ stamp) with
      | some r => (r.data, r.poison)
      | none => s.lineImage line

/-- The transaction view of a line (03 R100). -/
def State.txView (s : State) (t line : Nat) : BitVec 1024 × BitVec 16 :=
  match NatMap.find? (s.lineEntry line).recs t with
  | some (.tentative d p) => (d, p)
  | _ => match NatMap.find? s.txs t with
    | some x => s.visible line x.stamp
    | none => s.lineImage line

/-- A granule read from a version source (03 R93); nothing where it is poisoned. -/
def State.verGranule (s : State) (src pa : Nat) : Option Word :=
  let line := pa / 128
  let pick (v : BitVec 1024 × BitVec 16) : Option Word :=
    let k := pa % 128 / 8
    if v.2.getLsbD k then none else some (v.1.extractLsb' (64 * k) 64)
  if src = 0 then s.granule pa
  else if src % 4 = 3 then pick (s.visible line (src / 4))
  else pick (s.txView (src / 4) line)

/-! ### Records as the lumber room holds them (03 R82) -/

/-- A record: KIND, STAMP, DTYPE, DOP, TXID, whether it ends its list, and what follows its header. -/
structure LumberRec where
  kind : Nat
  stamp : Nat
  dtype : Nat
  dop : Nat
  txid : Nat
  last : Bool
  body : List Byte

/-- The records of one line: its chain from the newest on, then its tentative and delta records. -/
def State.lineRecords (s : State) (e : LineEntry) : List LumberRec :=
  let snap (t : Nat) : Nat := ((NatMap.find? s.txs t).map Tx.stamp).getD 0
  let chain := ((List.range e.chain.length).zip e.chain).map fun x =>
    (⟨0, x.2.stamp, 0, 0, 0, x.1 + 1 == e.chain.length, valBytes x.2.data 128⟩ : LumberRec)
  let recs := ((List.range e.recs.length).zip e.recs).map fun x =>
    let last := x.1 + 1 == e.recs.length
    match x.2.2 with
    | .tentative d _ => (⟨1, snap x.2.1, 0, 0, x.2.1, last, valBytes d 128⟩ : LumberRec)
    | .delta ety op v m _ => ⟨2, snap x.2.1, ety, op, x.2.1, last, valBytes v 128 ++ valBytes m 16⟩
  chain ++ recs

/-- The lumber-room offset of byte `o` of hub `h`'s part, which is made of the granules it owns in rising order. -/
def lumberOffset (h o : Nat) : Nat := o / 4096 * 16384 + 4096 * h + o % 4096

/-- The bytes of a hub's records, one after another from byte `o` of its part on (log 65). -/
def lumberBytes (h : Nat) : Nat → List LumberRec → List Byte
  | _, [] => []
  | o, r :: rs =>
    let z := 16 + r.body.length
    let next := if r.last then 2 ^ 36 - 1 else lumberOffset h (o + z) / 16
    valBytes (wd (r.kind * 2 ^ 56 + r.stamp % 2 ^ 56)) 8 ++
      valBytes (wd (r.dtype * 2 ^ 54 + r.dop * 2 ^ 50 + r.txid % 2 ^ 14 * 2 ^ 36 + next)) 8 ++ r.body ++
      lumberBytes h (o + z) rs

/-- The records of a hub's lines as bytes of its part. -/
def State.hubLumber (s : State) (h : Nat) : List Byte :=
  lumberBytes h 0 ((s.dir.filter fun x => hubOf (128 * x.1) == h).flatMap fun x => s.lineRecords x.2)

/-- The byte of its hub's part that a lumber-room address is. -/
def State.lumberIndex (s : State) (pa : Nat) : Nat := (pa - s.lumberBase) / 16384 * 4096 + pa % 4096

/-! ### Lumber-room space (03 R99, R108, R115) -/

/-- A hub's record area in bytes: its quarter less the sixteenth for spilled entries. -/
def State.recordArea (s : State) : Nat := s.lrsz * 0x200000000 / 16 * 15

/-- Bytes of records of a hub in use. -/
def State.recordsUsed (s : State) (h : Nat) : Nat :=
  ((s.dir.filter fun x => hubOf (128 * x.1) == h).map fun x =>
    144 * x.2.chain.length + (x.2.recs.map fun r => match r.2 with | .tentative _ _ => 144 | _ => 160).sum).sum

/-- LRFREE of a hub. -/
def State.lrFree (s : State) (h : Nat) : Nat := s.recordArea - s.recordsUsed h

/-- The reserve of a hub: 1/256 of its part. -/
def State.lrReserve (s : State) : Nat := s.lrsz * 0x200000000 / 256

/-- COLST.PRESS kept true to the free space, with one CORRECTED event for each entry into the reserve. -/
def State.updatePress (s : State) (h : Nat) : State :=
  let w := NatMap.get 0 s.colst h
  let inside := decide (s.lrFree h < s.lrReserve)
  if inside == w.getLsbD 57 then s
  else
    let s := { s with colst := NatMap.set 0 s.colst h (setBits w 57 1 (if inside then 1 else 0)) }
    if inside then s.logError (32 + 6 * h + 3) 1 0x000E false 0 0 none else s

/-- The lines a transaction holds records of. -/
def State.writeSet (s : State) (t : Nat) : List Nat :=
  (s.dir.filter fun x => (NatMap.find? x.2.recs t).isSome).map Prod.fst

/-- The lines of a transaction that a hub owns. -/
def State.txLines (s : State) (t h : Nat) : List Nat := (s.writeSet t).filter fun l => hubOf (128 * l) == h

/-- Bytes a hub holds reserved for what prepared transactions are still to publish (03 R104, R108). -/
def State.reserved (s : State) (h : Nat) : Nat := (s.txs.map fun x => match x.2.st with
  | .active => 0
  | .committing _ yes _ => if yes.contains h then 144 * (s.txLines x.1 h).length else 0
  | .stamped _ _ _ => 144 * (s.txLines x.1 h).length).sum

/-- Whether a tentative or delta record of some bytes can be had outside the reserve. -/
def State.recordOk (s : State) (h n : Nat) : Bool := decide (s.lrReserve + n + s.reserved h ≤ s.lrFree h)

/-- Whether records of auto-commits or of a prepare can be had, the reserve included. -/
def State.recordOkReserve (s : State) (h n : Nat) : Bool := decide (n + s.reserved h ≤ s.lrFree h)

/-- How many directory entries a hub can still take (03 R115). -/
def State.entriesLeft (s : State) (h : Nat) : Nat :=
  s.dirRoom - (s.dir.filter fun x => hubOf (128 * x.1) == h).length

/-- A line has a directory entry, or its hub can take one. -/
def State.entryOk (s : State) (line : Nat) : Bool :=
  (NatMap.find? s.dir line).isSome || decide (0 < s.entriesLeft (hubOf (128 * line)))

/-! ### The clock and the low-water stamp (03 R83 to R86, R96) -/

/-- The last stamp of the clock (03 R85). -/
def clockEnd : Nat := 0xFFFFFFFFFFFFFF

/-- LW (03 R96). -/
def State.lowWater (s : State) : Nat :=
  let a := (s.snaps.filter fun x => x.2.st != .free).foldl (fun m x => min m x.2.stamp) s.pclk
  (s.txs.filter fun x => decide (x.1 < 16384)).foldl (fun m x => min m x.2.stamp) a

/-- The next stamp taken; the hubs report the clock's end coming near once (03 R85). -/
def State.takeStamp (s : State) : State :=
  let s := { s with cclk := s.cclk + 1 }
  if s.cclk = 0xFFFFFF00000001 then
    (List.range 4).foldl (fun s h => s.logError (32 + 6 * h + 3) 1 0x000F false 0 0 none) s
  else s

/-! ### Committed writes (03 R97, R110) -/

/-- The in-place version superseded at a stamp: it moves to a record unless its stamp is that stamp. -/
def State.supersede (s : State) (line stamp : Nat) : State :=
  let e := s.lineEntry line
  if e.stamp = stamp ∧ (NatMap.find? s.dir line).isSome then s
  else
    let img := s.lineImage line
    s.setLine line { e with stamp := stamp, chain := ⟨e.stamp, img.1, img.2⟩ :: e.chain }

/-- A plain write of a line at a stamp, through its hub's cache. -/
def State.commitLine (s : State) (line stamp : Nat) (ws : List Granule) (alloc : Bool) : State :=
  let s := (s.visitLine line true alloc).supersede line stamp
  ((ws.foldl (fun s g => s.store g alloc) s).report (128 * line)).updatePress (hubOf (128 * line))

/-- Whether a write may take a stamp on a line now: it is not locked and no stamped merge is outstanding. -/
def State.lineFree (s : State) (line : Nat) : Bool :=
  let e := s.lineEntry line
  e.lock.isNone && e.merge.all fun t => match NatMap.find? s.txs t with
      | some ⟨_, _, _, _, .stamped _ _ _⟩ => false
      | _ => true

/-- Every version in place has been reached by PCLK, so that a stamp taken now covers what any reader has seen (05 R163). -/
def State.clockSettled (s : State) : Bool := s.dir.all fun x => decide (x.2.stamp ≤ s.pclk)

/-! ### Transactions: state and records (03 R100 to R111) -/

/-- TXS with STATE, DOOM and CAUSE (03 R109). -/
def txsWord (w : Word) (st doom cause : Nat) : Word := setBits (setBits (setBits w 2 2 st) 1 1 doom) 4 4 cause

/-- TXS once its transaction is doomed: DOOM is a flag on ACTIVE (03 R109, R111). -/
def txsDoom (w : Word) (cause : Nat) : Word := setBits (if bits w 2 2 = 1 then setBits w 1 1 1 else w) 4 4 cause

/-- A transaction doomed: its first cause stands, and TXS of its context shows it (03 R103, R104). -/
def State.doom (s : State) (t cause : Nat) : State :=
  match NatMap.find? s.txs t with
  | none => s
  | some x =>
    if x.doom.isSome then s
    else
      let s := { s with txs := NatMap.put s.txs t { x with doom := some cause } }
      s.modCtx x.cid fun c => { c with c := { c.c with txs := txsDoom c.c.txs cause } }

/-- Room for one more record of a transaction: the write-set limit, then space outside the reserve (03 R103, R108). -/
def State.roomFor (s : State) (t line n : Nat) : Option Nat :=
  if (NatMap.find? (s.lineEntry line).recs t).isSome then none
  else if 65536 ≤ (s.writeSet t).length then some 3
  else if s.recordOk (hubOf (128 * line)) n && s.entryOk line then none else some 2

/-- A record of a transaction put in its place. -/
def State.setRec (s : State) (t line : Nat) (r : TRec) : State :=
  let e := s.lineEntry line
  (s.setLine line { e with recs := NatMap.put e.recs t r }).updatePress (hubOf (128 * line))

/-- The touched elements of a delta applied to an image (03 R104). -/
def applyDelta (ety op : Nat) (vals : BitVec 1024) (touched : BitVec 64) (img : BitVec 1024) : BitVec 1024 :=
  let n := etySize ety
  (List.range (128 / n)).foldl (fun img k =>
    if touched.getLsbD (n / 2 * k) then
      let v := rmwElem ety op (bits img (8 * n * k) (8 * n)) (bits vals (8 * n * k) (8 * n))
      (img &&& ~~~ ((BitVec.ofNat 1024 (2 ^ (8 * n) - 1)) <<< (8 * n * k))) ||| (BitVec.ofNat 1024 v <<< (8 * n * k))
    else img) img

/-- The tentative version a plain write starts from: the record as it is, a delta applied to the view, or the view. -/
def State.tentativeOf (s : State) (t line : Nat) : BitVec 1024 × BitVec 16 :=
  match NatMap.find? (s.lineEntry line).recs t with
  | some (.tentative d p) => (d, p)
  | some (.delta ety op v m _) => let i := s.txView t line; (applyDelta ety op v m i.1, i.2)
  | none => s.txView t line

/-- A plain write inside a transaction (03 R102); discarded when the transaction is doomed or becomes so (R103). The line in
place that it starts from is read through its hub's cache. -/
def State.txWrite (s : State) (t line : Nat) (ws : List Granule) : State :=
  match NatMap.find? s.txs t with
  | none => s
  | some x =>
    if x.doom.isSome then s
    else match s.roomFor t line 144 with
      | some c => s.doom t c
      | none =>
        let s := s.visitLine line false true
        let i := s.tentativeOf t line
        let n := applyGranules i.1 i.2 ws
        s.setRec t line (.tentative n.1 n.2)

/-- The granule that a CPACC element inside a transaction would be applied to is poisoned: that of its plain-written version, or
of the view that a delta of another kind becomes one of (02 R78, 03 R102). -/
def State.txPoison (s : State) (t pa ety op : Nat) : Bool :=
  match NatMap.find? s.txs t, NatMap.find? (s.lineEntry (pa / 128)).recs t with
  | some x, some (.tentative _ p) => x.doom.isNone && p.getLsbD (pa % 128 / 8)
  | some x, some (.delta e o _ _ _) =>
    x.doom.isNone && !(e == ety && o == op) && (s.txView t (pa / 128)).2.getLsbD (pa % 128 / 8)
  | _, _ => false

/-- A CPACC element inside a transaction (03 R102): combined into the delta, or applied to a plain-written line. `sys` says
whether its page has SYSATOM. -/
def State.txDelta (s : State) (t pa ety op val : Nat) (sys : Bool) : State :=
  let line := pa / 128
  let n := etySize ety
  let off := pa % 128
  let put (img : BitVec 1024) (v : Nat) : BitVec 1024 :=
    (img &&& ~~~ ((BitVec.ofNat 1024 (2 ^ (8 * n) - 1)) <<< (8 * off))) ||| (BitVec.ofNat 1024 v <<< (8 * off))
  let plain (s : State) : State :=
    let i := s.tentativeOf t line
    if i.2.getLsbD (off / 8) then s.setRec t line (.tentative i.1 i.2)
    else s.setRec t line (.tentative (put i.1 (rmwElem ety op (bits i.1 (8 * off) (8 * n)) val)) i.2)
  match NatMap.find? s.txs t with
  | none => s
  | some x =>
    if x.doom.isSome then s
    else match s.roomFor t line 160 with
      | some c => s.doom t c
      | none => match NatMap.find? (s.lineEntry line).recs t with
        | some (.tentative _ _) => plain s
        | some (.delta e o v m y) =>
          if e = ety ∧ o = op then
            let touched := m.getLsbD (off / 2)
            let v' := put v (if touched then rmwElem ety op (bits v (8 * off) (8 * n)) val else val)
            s.setRec t line (.delta ety op v' (m ||| (BitVec.ofNat 64 (2 ^ (n / 2) - 1) <<< (off / 2))) (y || sys))
          else plain s
        | none => s.setRec t line (.delta ety op (put 0 val) (BitVec.ofNat 64 (2 ^ (n / 2) - 1) <<< (off / 2)) sys)

/-- A transaction's locks, registrations and records given up (03 R104, R107, R110). -/
def State.dropRecords (s : State) (t : Nat) : State :=
  let s := { s with dir := s.dir.map fun x => (x.1, { x.2 with
    recs := NatMap.del x.2.recs t
    lock := if x.2.lock = some t then none else x.2.lock
    merge := x.2.merge.filter (· != t) }) }
  (List.range 4).foldl State.updatePress s

/-- An answer put into a landing entry of a context. -/
def State.answer (s : State) (cid id : Nat) (a : Answer) : State :=
  s.modCtx cid fun c => { c with q := { c.q with
    landing := c.q.landing.map fun l => if l.id = id then { l with answer := a } else l } }

/-- What still acts for a transaction that has ended: its writes are discarded and its reads give the newest version (03
R107). 16,385 stands for a transaction that is over. -/
def State.orphan (s : State) (t cid : Nat) : State :=
  let gone (c : CopyCmd) : CopyCmd :=
    if c.tx = some t then { c with tx := some 16385, snp := 0 }
    else { c with snp := if c.snp = srcTx t then 0 else c.snp }
  let left (e : StoreEntry) : StoreEntry := if e.tx = some t then { e with
      tx := some 16385
      kind := match e.kind with | .cmd c => .cmd { c with snp := 0 } | k => k }
    else e
  let s : State := { s with copies := s.copies.map gone }
  s.modCtx cid fun x => { x with q := { x.q with
    copyq := x.q.copyq.map gone
    sq := x.q.sq.map left
    csq := x.q.csq.map left
    lq := x.q.lq.map fun e => if e.snp = srcTx t then { e with snp := 0 } else e } }

/-- A transaction is no longer in the table, and its context's no longer, so that the number is free (03 R107, R111). -/
def State.unregister (s : State) (t cid : Nat) : State :=
  let s := (s.dropRecords t).orphan t cid
  State.modCtx { s with txs := NatMap.del s.txs t } cid fun c => { c with txid := if c.txid = some t then none else c.txid }

/-- The end of a transaction, its result on the way to the context (03 R107). -/
def State.endTx (s : State) (t cid land cause word : Nat) (ok : Bool) : State :=
  (s.unregister t cid).answer cid land (.value (wd (cause + 256 * word)) ok)

/-- PCLK brought up to the stamps that are published (03 R83): the stores whose stamps it has reached leave their queues (03
R86), and the commits it has reached are answered (03 R104, 15 R386). -/
def State.advance (s : State) : State :=
  let p := max s.pclk ((s.unpublished.foldl min (s.cclk + 1)) - 1)
  let live (e : StoreEntry) : Bool := match e.sent with
    | .stamped k => decide (p < k)
    | _ => true
  let trim (c : Context) : Context := { c with q := { c.q with sq := c.q.sq.filter live, csq := c.q.csq.filter live } }
  let s : State := { s with
    pclk := p
    ctx := trim s.ctx
    ctxs := s.ctxs.map fun x => (x.1, trim x.2)
    launches := s.launches.map fun x => (x.1, { x.2 with images := x.2.images.map fun y => (y.1, trim y.2) }) }
  s.txs.foldl (fun s x => match x.2.st with
    | .stamped land k _ => if k ≤ p then s.endTx x.1 x.2.cid land 0 k true else s
    | _ => s) s

/-- The hubs a transaction's write set lies on. -/
def State.txHubs (s : State) (t : Nat) : List Nat := ((s.writeSet t).map fun l => hubOf (128 * l)).eraseDups

/-- TXBEGIN at HD0 (03 R100, R103): registered under the lowest free number with S = PCLK, or doomed TX_FULL. -/
def State.txBegin (s : State) (cid land : Nat) (cancelled : Bool) : State :=
  let c := s.getCtx cid
  let free := (List.range 16384).find? fun t => (NatMap.find? s.txs t).isNone
  let s' := s.answer cid land (.value (wd s.pclk) (free.isSome || cancelled))
  if cancelled then s' else
  let full := ((List.range (s.txs.length + 1)).map (16386 + ·)).find? fun t => (NatMap.find? s.txs t).isNone
  let t := free.getD (full.getD 16386)
  let s' := { s' with txs := NatMap.put s'.txs t ⟨cid, s.tidOf c, s.pclk, if free.isSome then none else some 4, .active⟩ }
  s'.modCtx cid fun c => { c with txid := some t }

/-- TXCOMMIT at HD0 once the transaction's accesses have drained (03 R104, R85): abort when doomed; commit with no stamp
when the write set is empty; else the prepare begins. -/
def State.txCommit (s : State) (cid land : Nat) : State :=
  match (s.getCtx cid).txid with
  | none => s.answer cid land (.value 5 false)
  | some t =>
    match NatMap.find? s.txs t with
    | none => s.answer cid land (.value 5 false)
    | some x =>
      match x.doom with
      | some d => s.endTx t cid land d 0 false
      | none =>
        if (s.writeSet t).isEmpty then s.endTx t cid land 0 x.stamp true
        else if s.cclk = clockEnd then s.endTx t cid land 8 0 false
        else { s with txs := NatMap.put s.txs t { x with st := .committing land [] [] } }

/-- The number of no context: the result of a commit whose context is gone goes there. -/
def nobody : Nat := 2 ^ 40

/-- The abort of a context's transaction (03 R107, R111): its records are freed and its number is free. One that has its stamp
is published all the same (03 R113). -/
def State.abortTx (s : State) (cid : Nat) : State :=
  match (s.getCtx cid).txid with
  | none => s
  | some t =>
    let s := match NatMap.find? s.txs t with
      | some ⟨_, tid, st, dm, .stamped land k hs⟩ =>
        { s with txs := NatMap.put s.txs t ⟨nobody, tid, st, dm, .stamped land k hs⟩ }
      | _ => s.unregister t cid
    s.modCtx cid fun c => { c with txid := none }

/-! ### Prepare, stamp, publish (03 R104, R105) -/

/-- What a hub makes of one line in a prepare. -/
inductive Vote where
  | yes
  | wait
  | no (cause stamp : Nat)
  deriving DecidableEq, Repr

/-- A transaction is older than another (03 R105). -/
def State.older (s : State) (t u : Nat) : Bool :=
  match NatMap.find? s.txs t, NatMap.find? s.txs u with
  | some a, some b => decide (a.stamp < b.stamp) || (a.stamp == b.stamp && decide (t < u))
  | _, _ => false

/-- A line that is locked by another transaction: by age (03 R105). -/
def State.lockVote (s : State) (t u : Nat) : Vote := if s.older t u then .wait else .no 1 0

/-- The vote of a hub for one line: `anyPlain` says whether the write set holds a plain-written line. -/
def State.lineVote (s : State) (t line : Nat) (anyPlain : Bool) : Vote :=
  let e := s.lineEntry line
  match NatMap.find? e.recs t, NatMap.find? s.txs t with
  | some (.tentative _ _), some x =>
    match e.lock with
    | some u => if u = t then .yes else s.lockVote t u
    | none =>
      let newest := max e.stamp (e.chain.foldl (fun m r => max m r.stamp) 0)
      if x.stamp < newest then .no 1 newest
      else if e.merge.any (· != t) then .no 1 0
      else .yes
  | some (.delta ..), some _ =>
    match e.lock with
    | some u => if u = t then .yes else if anyPlain then s.lockVote t u else .wait
    | none => .yes
  | _, _ => .yes

/-- The hub locks and registers the lines of a transaction. -/
def State.lockLines (s : State) (t : Nat) (l : List Nat) : State :=
  l.foldl (fun s line =>
    let e := s.lineEntry line
    match NatMap.find? e.recs t with
    | some (.tentative _ _) => s.setLine line { e with lock := some t }
    | some (.delta ..) => s.setLine line { e with merge := if e.merge.contains t then e.merge else e.merge ++ [t] }
    | none => s) s

/-- A prepare at one hub (03 R104): votes of its lines, a NO ending the transaction, a wait recorded, a YES counted, which
reserves the records for publishing (03 R108). Of several hubs that would vote NO, the first to be asked gives the cause (log
67). -/
def State.prepare (s : State) (t h : Nat) : State :=
  match NatMap.find? s.txs t with
  | some ⟨cid, tid, st, dm, .committing land yes waits⟩ =>
    let lines := s.txLines t h
    if yes.contains h || lines.isEmpty then s
    else
      let plain := (s.writeSet t).any fun l => match NatMap.find? (s.lineEntry l).recs t with
        | some (.tentative _ _) => true
        | _ => false
      let votes := lines.map fun l => s.lineVote t l plain
      let no := votes.findSome? fun v => match v with | .no c k => some (c, k) | _ => none
      let top := votes.foldl (fun m v => match v with | .no _ k => max m k | _ => m) 0
      match no with
      | some (c, _) => s.endTx t cid land c top false
      | none =>
        if !s.recordOkReserve h (144 * lines.length) then s.endTx t cid land 2 0 false
        else
          let ready := lines.filter fun l => s.lineVote t l plain == .yes
          let s := s.lockLines t ready
          if ready.length = lines.length then
            { s with txs := NatMap.put s.txs t ⟨cid, tid, st, dm, .committing land (yes ++ [h]) (waits.filter (· != h))⟩ }
          else
            { s with txs := NatMap.put s.txs t ⟨cid, tid, st, dm, .committing land yes
                (if waits.contains h then waits else waits ++ [h])⟩ }
  | _ => s

/-- A transaction that every hub of its write set has voted YES for. -/
def State.voted (s : State) (t : Nat) : Bool :=
  match NatMap.find? s.txs t with
  | some ⟨_, _, _, _, .committing _ yes _⟩ => (s.txHubs t).all yes.contains
  | _ => false

/-- A stamp for a voted transaction (03 R84). -/
def State.stampTx (s : State) (t : Nat) : State :=
  match NatMap.find? s.txs t with
  | some ⟨cid, tid, st, dm, .committing land _ _⟩ =>
    if s.cclk = clockEnd then s.endTx t cid land 8 0 false
    else
      let s := s.takeStamp
      { s with
        txs := NatMap.put s.txs t ⟨cid, tid, st, dm, .stamped land s.cclk []⟩
        unpublished := s.unpublished ++ [s.cclk] }
  | _ => s

/-- The touched granules of a delta. -/
def touchedGranules (m : BitVec 64) : BitVec 16 :=
  (List.range 16).foldl (fun a k => if m.extractLsb' (4 * k) 4 != 0 then a ||| (1#16 <<< k) else a) 0

/-- A delta that meets poison as it is merged leaves it there and is reported against the transaction's context (02 R78). -/
def State.mergePoison (s : State) (t line : Nat) (bad : BitVec 16) : State :=
  if bad = 0 then s
  else
    let pa := 128 * line + 8 * (((List.range 16).find? fun k => bad.getLsbD k).getD 0)
    let s := s.logError (memBank pa) 2 0x0008 true 1 pa none (memPlace pa true)
    match NatMap.find? s.txs t with
    | some x => s.post x.tid 5 mchk.toNat (memBank pa) pa (s.getCtx x.cid).src (bits (s.getCtx x.cid).c.lid 0 16) []
    | none => s

/-- A line published at a stamp (03 R104). What a delta gives is written now, or, on a page without SYSATOM where `arg.flag` says
so, with the next act that is not the host's; on a page with SYSATOM the host's copy is recalled before (05 R166, log 69). -/
def State.publishLine (s : State) (t line stamp : Nat) : State :=
  let r := NatMap.find? (s.lineEntry line).recs t
  let s := s.visitLine line true false
  let img := s.lineImage line
  let new : BitVec 1024 × BitVec 16 := match r with
    | some (.tentative d p) => (d, p)
    | some (.delta ety op v m _) => (applyDelta ety op v m img.1, img.2)
    | none => img
  let s := match r with
    | some (.delta _ _ _ m y) =>
      (if y then [128 * line, 128 * line + 64].foldl (fun (s : State) p => s.recall p (.cxlSnoop p)) s else s).mergePoison t line (img.2 &&& touchedGranules m)
    | _ => s
  let s := s.supersede line stamp
  let e := s.lineEntry line
  let s := s.setLine line { e with
    recs := NatMap.del e.recs t
    lock := if e.lock = some t then none else e.lock
    merge := e.merge.filter (· != t) }
  match r with
  | some (.delta _ _ _ m false) =>
    if s.arg.flag then
      let gs := (List.range 16).filterMap fun k =>
        if (touchedGranules m &&& ~~~ img.2).getLsbD k then
          some (⟨128 * line + 8 * k, 0xFF, some (new.1.extractLsb' (64 * k) 64)⟩ : Granule) else none
      { s with openRmws := s.openRmws ++ gs.map fun g => (⟨0, 1, 0, g, false⟩ : OpenRmw) }
    else (s.setImage line new.1 new.2).report (128 * line)
  | _ => (s.setImage line new.1 new.2).report (128 * line)

/-- Whether every change to a line stamped below is applied. -/
def State.lineTurn (s : State) (t line stamp : Nat) : Bool :=
  (s.lineEntry line).recs.all fun r => r.1 == t || match NatMap.find? s.txs r.1 with
    | some ⟨_, _, _, _, .stamped _ k _⟩ => decide (stamp < k)
    | _ => true

/-- A hub publishes its lines of a stamped transaction; when every hub has, the stamp is published (03 R104). -/
def State.publish (s : State) (t h : Nat) : State :=
  match NatMap.find? s.txs t with
  | some ⟨cid, tid, st, dm, .stamped land stamp done⟩ =>
    let lines := s.txLines t h
    if done.contains h || !lines.all fun l => s.lineTurn t l stamp then s
    else
      let s := lines.foldl (fun s l => s.publishLine t l stamp) s
      let s := { s with txs := NatMap.put s.txs t ⟨cid, tid, st, dm, .stamped land stamp (done ++ [h])⟩ }
      if (s.writeSet t).isEmpty then
        { s with unpublished := s.unpublished.filter (· != stamp) }.advance
      else s
  | _ => s

/-! ### The collector (03 R98, R99) -/

/-- A chain with the records whose successor is at or below LW reclaimed; `next` is the stamp of the successor. -/
def reclaim (lw : Nat) : Nat → List VRec → List VRec
  | _, [] => []
  | next, r :: rs => if next ≤ lw then [] else r :: reclaim lw r.stamp rs

/-- A hub's collector run over the next `n` directory entries of its lines, all that are left where `n` is 0; COLST says where
it stands: after the last entry it waits for LW to rise while records remain, and else is idle (log 68). -/
def State.collect (s : State) (h n : Nat) : State :=
  let lw := s.lowWater
  let w := NatMap.get 0 s.colst h
  let all := (s.dir.filter fun x => hubOf (128 * x.1) == h).map Prod.fst
  let rest := all.drop (bits w 0 56)
  let now := if n = 0 then rest else rest.take n
  let mine (x : Nat × LineEntry) : Bool := now.contains x.1 && x.2.lock.isNone
  let new := s.dir.map fun x => if mine x then (x.1, { x.2 with chain := reclaim lw x.2.stamp x.2.chain }) else x
  let freed := ((s.dir.map fun x => x.2.chain.length).sum) - ((new.map fun x => x.2.chain.length).sum)
  let keep := new.filter fun x => !(mine x && x.2.chain.isEmpty && x.2.recs.isEmpty && decide (x.2.stamp ≤ lw))
  let held := (keep.filter fun x => hubOf (128 * x.1) == h)
  let scan := bits w 0 56 + (held.filter fun x => now.contains x.1).length
  let done := decide (rest.length ≤ now.length)
  let st := if !done then 1 else if held.any fun x => !x.2.chain.isEmpty then 2 else 0
  let s := { s with
    dir := keep
    colfreed := NatMap.set 0 s.colfreed h (NatMap.get 0 s.colfreed h + wd freed)
    colst := NatMap.set 0 s.colst h (setBits (setBits w 62 2 st) 0 56 (if done then 0 else scan)) }
  s.updatePress h

/-! ### Snapshots (03 R87 to R91) -/

/-- The handle of an entry. -/
def handleOf (idx gen : Nat) : Nat := idx + gen * 65536

/-- A live entry of a tenant under a handle. -/
def State.liveSnap (s : State) (tid handle : Nat) : Option (Nat × Snap) :=
  let idx := handle % 4096
  let e := NatMap.get .reset s.snaps idx
  if handle = handleOf idx e.gen ∧ e.st = .live ∧ e.tid = tid ∧ handle ≠ 0 then some (idx, e) else none

/-- A snapshot allocated for a tenant (03 R88), if an entry is free and the quota has room. -/
def State.snapAlloc (s : State) (tid : Nat) : Option (State × Nat) :=
  let used := (s.snaps.filter fun x => x.2.st != .free && x.2.tid == tid).length
  if (NatMap.get .reset s.tenants tid).snq ≤ used then none
  else match (List.range 4096).find? fun i => (NatMap.get .reset s.snaps i).st == .free with
    | none => none
    | some i =>
      let e := NatMap.get .reset s.snaps i
      let gen := if e.gen + 1 ≥ 65536 then 1 else e.gen + 1
      some ({ s with snaps := NatMap.set .reset s.snaps i ⟨.live, gen, s.pclk, tid, 0⟩ }, handleOf i gen)

/-- One more binding of an entry. -/
def State.bind (s : State) (idx : Nat) : State :=
  let e := NatMap.get .reset s.snaps idx
  { s with snaps := NatMap.set .reset s.snaps idx { e with binds := e.binds + 1 } }

/-- SNAPNEW at HD0. -/
def State.snapNew (s : State) (cid land : Nat) : State :=
  match s.snapAlloc (s.tidOf (s.getCtx cid)) with
  | some (s, h) => s.answer cid land (.value (wd h) true)
  | none => s.answer cid land (.value 0 false)

/-- SNAPSET at HD0 (03 R89). -/
def State.snapSet (s : State) (cid land : Nat) (handle : W32) : State :=
  let c := s.getCtx cid
  if handle = 0 then (s.unbind c.bound).answer cid land (.value 0 true)
  else match s.liveSnap (s.tidOf c) handle.toNat with
    | some (i, _) => ((s.bind i).unbind c.bound).answer cid land (.value (handle.setWidth 64) true)
    | none => s.answer cid land (.value 0 false)

/-- A handle of a tenant released (03 R90). -/
def State.snapRelease (s : State) (tid handle : Nat) : State × Bool :=
  match s.liveSnap tid handle with
  | some (i, e) =>
    ({ s with snaps := NatMap.set .reset s.snaps i { e with st := if e.binds = 0 then .free else .draining } }, true)
  | none => (s, false)

/-- SNAPDROP at HD0. -/
def State.snapDrop (s : State) (cid land : Nat) (handle : W32) : State :=
  let r := s.snapRelease (s.tidOf (s.getCtx cid)) handle.toNat
  r.1.answer cid land (.value 0 r.2)

/-! ### The event rows of versioned memory -/

/-- TX_PREPARE: transaction `arg.a` at hub `arg.b`. -/
def execTxPrepare (s : State) : Out := .next (s.prepare s.arg.a s.arg.b)

/-- PREPARE_RESUME: the prepare of transaction `arg.a` that waits at hub `arg.b` is tried again. -/
def execPrepareResume (s : State) : Out :=
  .next (match NatMap.find? s.txs s.arg.a with
    | some ⟨_, _, _, _, .committing _ _ waits⟩ => if waits.contains s.arg.b then s.prepare s.arg.a s.arg.b else s
    | _ => s)

/-- TX_PUBLISH: hub `arg.b` publishes its lines of transaction `arg.a`. -/
def execTxPublish (s : State) : Out := .next (s.publish s.arg.a s.arg.b)

/-- COLLECTOR_RECLAIM: the collector of hub `arg.a` visits `arg.b` directory entries, or every one it has left where that is 0. -/
def execCollectorReclaim (s : State) : Out := .next (s.collect (s.arg.a % 4) s.arg.b)

end Sys2Proof.Machine
end

