-- ==== Sys2Proof/Machine/Queues.lean ====
section
/-! DEFINITION. The load and store queues, the landing buffer and the capture buffer as they act after issue: loads and
stores performing at their homes, data landing, late faults, fences and releases ending, freezes ending (01 R30 to R41, 02
R53 to R70, 05 R150 to R161, 07 R189, R190, 09 R259, R261, R264, 18 R411, R412). -/

namespace Sys2Proof.Machine

/-! ### Freezes -/

/-- A freeze of the focused context. -/
def State.freeze (s : State) (f : Freeze) : State :=
  { s with ctx := { s.ctx with freezes := if s.ctx.freezes.contains f then s.ctx.freezes else s.ctx.freezes ++ [f] } }

/-- The freezes of one kind end. -/
def State.thaw (s : State) (p : Freeze → Bool) : State :=
  { s with ctx := { s.ctx with freezes := s.ctx.freezes.filter fun f => !p f } }

/-- The focused context is frozen for a cause. -/
def State.frozen (s : State) (p : Freeze → Bool) : Bool := s.ctx.freezes.any p

/-! ### The bundle due next -/

/-- The bundle due next of the focused context. -/
def State.dueAddr (s : State) : Nat := match s.ctx.seq with
  | some q => q.tickAddr q.tick
  | none => s.ctx.pc

/-! ### Load data to results -/

/-- Lanes of a set of 16 from a predicate. -/
def laneSet (p : Nat → Bool) : BitVec 16 := (List.range 16).foldl (fun m l => if p l then m ||| (1#16 <<< l) else m) 0

/-- A register made of 64 bytes, its lanes poisoned where any byte of theirs is. -/
def byteResult (g r left : Nat) (f : Nat → Option Byte) : Result :=
  ⟨.vreg g r, ofBytes 512 ((List.range 64).map fun b => (f b).getD 0), 0xFFFF,
   laneSet (fun l => (List.range 4).any fun b => (f (4 * l + b)).isNone), left, true⟩

/-- The byte of a transposed unit that goes to byte `b` of its register `r` (10 R293), as line, byte in line, and for
4-bit units the nibble. -/
def transSrc (ew r b : Nat) : Nat × Nat × Nat :=
  match ew with
  | 0 => (b / 4, 4 * r + b % 4, 0)
  | 1 => (b / 2, 2 * r + b % 2, 0)
  | _ =>
    let n := 32 * (b % 32) + 2 * r + b / 32
    (n / 64, n % 64, 0)

/-- A nibble of an E2M1X unit: element (i, k) (10 R293). -/
def transNibble (got : List (Nat × Option (BitVec 64))) (lines : List Nat) (i k : Nat) : Option Nat :=
  let n := 16 * i + k / 2
  (gotByte got (lines.getD (n / 64) 0 + n % 64)).map fun b => nbits b.toNat (4 * (k % 2)) 4

/-- The results of one transposed unit. -/
def transResults (got : List (Nat × Option (BitVec 64))) (ew left : Nat) (u : List Nat × Nat × Nat) : List Result :=
  (List.range u.1.length).map fun r => byteResult u.2.1 (u.2.2 + r) left fun b =>
    if ew = 3 then
      let k := 4 * r + b / 16
      let i := 2 * (b % 16)
      match transNibble got u.1 i k, transNibble got u.1 (i + 1) k with
      | some lo, some hi => some (BitVec.ofNat 8 (lo + 16 * hi))
      | _, _ => none
    else
      let x := transSrc ew r b
      gotByte got (u.1.getD x.1 0 + x.2.1)

/-- What a load writes, from the granules it has read (02 R77, 10 R284 to R293). -/
def LFmt.results (f : LFmt) (got : List (Nat × Option (BitVec 64))) (left : Nat) : List Result :=
  match f with
  | .scalar d sz sx addr =>
    let b := gotBytes got addr (2 ^ sz)
    let v : Word := ofBytes 64 b.1
    let v := if sx then wordOf (sext (8 * 2 ^ sz) v.toNat) else v
    [⟨.sreg d, v.setWidth 512, 1, if b.2 then 1 else 0, left, true⟩]
  | .lines l => l.map fun x => byteResult x.2.1 x.2.2 left fun b => gotByte got (x.1 + b)
  | .lanes l => l.map fun x =>
      let b := gotBytes got x.1 4
      let v : BitVec 512 := ofBytes 512 b.1 <<< (32 * x.2.2.2)
      let m : BitVec 16 := 1#16 <<< x.2.2.2
      ⟨.vreg x.2.1 x.2.2.1, v, m, if b.2 then m else 0, left, true⟩
  | .trans ew us => us.flatMap (transResults got ew left)

/-! ### Stores ahead of a load -/

/-- The store granules of the context that stand before an entry, oldest first, with whether each is still in the store
queue (rather than captured with a faulted store). -/
def State.storesBefore (s : State) (id : Nat) (p : StoreEntry → Bool) : List (Granule × Bool) :=
  let of_ (l : List StoreEntry) (live : Bool) : List (Granule × Bool) :=
    (l.filter fun e => decide (e.id < id) && p e).flatMap fun e => match e.kind with
      | .store ws _ => ws.map fun g => (g, live)
      | _ => []
  of_ s.ctx.q.csq false ++ of_ s.ctx.q.sq true

/-- The physical address of a granule of the focused context, for telling whether two accesses meet; an address that does
not translate meets only itself. -/
def State.paOf (s : State) (va : Nat) : Nat := match (s.translateCtx va .read).2 with
  | .ok pa _ => pa
  | .fault _ _ => 2 ^ 64 + va

/-- Whether a load-queue entry addresses the local window (10 R280). -/
def LoadEntry.isLoc (e : LoadEntry) : Bool := isLocal ((e.need ++ e.got.map Prod.fst).headD 0)

/-- What trying to read a granule gives. -/
inductive Got where
  | data (v : Option (BitVec 64))
  | wait
  | fault (cause : BitVec 8) (code : BitVec 16)
  deriving DecidableEq, Repr

/-- The forwarding of a granule from earlier stores (05 R150, R154): the newest store that meets it, if it covers the
granule whole; otherwise the load waits for it. Bytes of captured stores are merged over what memory holds. -/
def forward (hits : List (Granule × Bool)) (mem : Option Word) : Got :=
  match hits.getLast? with
  | none => .data mem
  | some (g, live) =>
    if g.mask = 0xFF then .data g.data
    else if live then .wait
    else .data (hits.foldl (fun v h => match v, h.1.data with
      | some v, some d => some ((List.range 8).foldl (fun v i =>
          if h.1.mask.getLsbD i then setBits v (8 * i) 8 (byteOf d i).toNat else v) v)
      | _, _ => none) mem)

/-! ### Stores on their way from a die (01 R30, 05 R150) -/

/-- A plain write at its home, seen by the memory-side watchpoints (18 R422) and by the command processors; a write to host
memory asks the host. `alloc` says whether the cellar cache may allocate (02 R66). -/
def State.homeWrite (s : State) (tid kind agent : Nat) (g : Granule) (alloc : Bool := true) : State :=
  let s := (s.store g alloc).report g.addr
  let s := if g.addr / spaceSize = 4 then s.send (.cxlRequest tid g.addr true) else s
  s.watchHome g.addr 8 true tid kind agent

/-- A store on its way that context `id`, standing at number `at_`, sees: its own, or one that has reached an ordering point
of both (01 R30, 05 R150). -/
def Flight.seenBy (f : Flight) (id at_ : Nat) : Bool :=
  f.cid == id || (decide (1 ≤ f.upto) && f.from_ / 4 == at_ / 4) || (decide (2 ≤ f.upto) && f.from_ / 32 == at_ / 32) ||
    (decide (3 ≤ f.upto) && f.from_ / 512 == at_ / 512)

/-- A store on its way that an engine of a cluster sees. -/
def Flight.seenAt (f : Flight) (p : Nat) : Bool :=
  (decide (2 ≤ f.upto) && f.from_ / 32 == p) || (decide (3 ≤ f.upto) && f.from_ / 512 == p / 16)

/-- A store on its way touches a granule. -/
def Flight.meets (f : Flight) (pa : Nat) : Bool := f.ws.any fun g => g.addr / 8 == pa / 8

/-- The stores on their way that `p` names reach their homes. -/
def State.flush (s : State) (p : Flight → Bool) : State :=
  let out := s.flights.filter p
  let s := { s with flights := s.flights.filter fun f => !p f }
  out.foldl (fun s f => f.ws.foldl (fun s g => s.homeWrite f.tid 0 f.cid g f.alloc) s) s

/-- What the focused context sees on their way at a granule reaches its home before an access of it (05 R150). -/
def State.flushAt (s : State) (pa : Nat) : State := s.flush fun f => f.seenBy s.cur s.cur && f.meets pa

/-- The same before an access of a cluster's engine. -/
def State.flushFor (s : State) (p pa : Nat) : State := s.flush fun f => f.seenAt p && f.meets pa

/-- The same before the array streams of the focused core read the own window. -/
def State.flushPad (s : State) : State :=
  s.flush fun f => f.seenBy s.cur s.cur && f.ws.any fun g => g.addr / 0x1000000 == localPa s.clusterId 0 / 0x1000000

/-! ### Fabric requests (21 R450 to R455) -/

/-- A flit header below its CRC (21 R451). -/
def flitHdr (tag len seq xoff src dst tid kind vl : Nat) : BitVec 128 :=
  BitVec.ofNat 128 (tag * 2 ^ 80 + len * 2 ^ 72 + seq * 2 ^ 60 + xoff * 2 ^ 52 + src * 2 ^ 40 + dst * 2 ^ 28 +
    tid * 2 ^ 20 + kind * 2 ^ 11 + vl * 2 ^ 8)

/-- The flits that a port's receive buffers hold, and the mask that follows: a bit is set at 64 and cleared at 32 (21 R454). -/
def Port.holding (p : Port) (l : List EvArgs) : Port :=
  { p with held := l, full := (List.range 8).foldl (fun m v =>
      let n := (l.filter fun x => bits x.hdr 8 3 == v).length
      if 64 ≤ n ∨ (32 < n ∧ p.full.getLsbD v) then m ||| (1#8 <<< v) else m) 0 }

/-- A header below its CRC with the CRC that it and its payload have (21 R451, log 30). -/
def sealFlit (h : BitVec 128) (pa : Nat) (req : Nat × Nat) (data : List Granule) : BitVec 128 :=
  h ||| ((Config.flitCrc h.toNat
    (pa :: req.1 :: req.2 :: (List.range 30).map fun i => ((data[i]?.bind Granule.data).map BitVec.toNat).getD 0)).setWidth 128 <<< 96)

/-- A flit sent on a port; the last 4,095 are kept for a replay, a SEQ naming no more. One that takes the SEQ of the last NAK is
another flit than the one that NAK named, which has got through (21 R453). -/
def State.sendFlit (s : State) (port tag len dst tid kind vl pa : Nat) (data : List Granule) (req : Nat × Nat := (0, 0)) :
    State :=
  let p := NatMap.get .reset s.ports port
  let h := flitHdr tag len p.txSeq.toNat p.full.toNat s.device dst tid kind vl
  let h := sealFlit h pa req data
  let l := p.sent ++ [(h, pa, req, data)]
  let p' := { p with
    txSeq := p.txSeq + 1, sent := l.drop (l.length - 4095), mask := p.full
    replays := if p.txSeq.toNat = p.nak then 0 else p.replays }
  let s := { s with ports := NatMap.set .reset s.ports port p' }
  s.send (.flit port h pa req data)

/-- A port. -/
def State.port (s : State) (n : Nat) : Port := NatMap.get .reset s.ports n

/-- A port changed. -/
def State.modPort (s : State) (n : Nat) (f : Port → Port) : State :=
  { s with ports := NatMap.set .reset s.ports n (f (s.port n)) }

/-- A flit of VL 0 sent, with the message it carries (21 R452). -/
def State.vl0Flit (s : State) (n kind tag len tid : Nat) (m : Option Message) : State :=
  let s := s.sendFlit n tag len 0 tid kind 0 0 []
  match m with
  | some m => s.send m
  | none => s

/-- A flit of VL 0 to be sent: behind those that wait, while the lane is stopped (21 R454). -/
def State.sendVl0 (s : State) (n kind tag len tid : Nat) (m : Option Message) : State :=
  let p := s.port n
  if p.xoff.getLsbD 0 || !p.vl0.isEmpty then s.modPort n fun p => { p with vl0 := p.vl0 ++ [(kind, tag, len, tid, m)] }
  else s.vl0Flit n kind tag len tid m

/-- What waits on VL 0 of a port goes, once the lane is free. -/
def State.drainVl0 (s : State) (n : Nat) : State :=
  let p := s.port n
  if p.xoff.getLsbD 0 || p.vl0.isEmpty then s
  else p.vl0.foldl (fun s x => s.vl0Flit n x.1 x.2.1 x.2.2.1 x.2.2.2.1 x.2.2.2.2) (s.modPort n fun p => { p with vl0 := [] })

/-- The tag of every collective's flit, which no request has: what a peer answers to one that it does not serve names it. -/
def collTag : Nat := 65535

/-- The port to a peer from a hub, if the routing table has one. -/
def State.routeTo (s : State) (hub dev : Nat) : Option Nat :=
  let e := NatMap.get 0 s.route (hub * 4096 + dev)
  if e.getLsbD 15 then some (bits e 0 6) else none

/-- The hub a context's package accesses leave by: its cluster's near hub (01 R36). -/
def hubOfCtx (cid : Nat) : Nat := walkHub (cid / 32)

/-- What sending a request to a peer gives. -/
inductive Sent where
  | sent (s : State)
  | wait
  | fail

/-- A request to a peer: kind 1 read, 2 write, 3 RMW, each on its lane (21 R452); it waits while the lane is stopped and
fails where no port leads there (21 R453). -/
def State.askPeer (s : State) (hub dev tid kind pa len : Nat) (data : List Granule) (who : PeerFor) (req : Nat × Nat := (0, 0)) :
    Sent :=
  match s.routeTo hub dev with
  | none => .fail
  | some port =>
    let p := NatMap.get .reset s.ports port
    let vl := if kind = 2 then 2 else 1
    if !p.up then .fail
    else if p.xoff.getLsbD vl then .wait
    else match (List.range collTag).find? fun t => s.peerReqs.all fun r => r.tag != t with
      | none => .wait
      | some tag =>
        let s := s.sendFlit port tag len dev tid kind vl pa data req
        .sent { s with peerReqs := s.peerReqs ++ [⟨tag, port, who⟩] }

/-- What a request says of its page: whether it is versioned, and whether it has SYSATOM. -/
def verReq (leaf : Word) : Nat × Nat := (0, (if leafVer leaf then 4 else 0) + if leaf.getLsbD 10 then 8 else 0)

/-- The device a leaf's PEER names. -/
def State.peerDev (s : State) (tid : Nat) (leaf : Word) : Nat :=
  bits (NatMap.get 0 (NatMap.get .reset s.tenants tid).peert (leafPeer leaf)) 0 12

/-! ### A load performing -/

/-- A queue entry may act while joins and fences freeze the context, or while a WAIT on a clear flag stands: it stands before
each of them (05 R157, R158, 17 R408). -/
def State.before (s : State) (id : Nat) : Bool := (match s.ctx.st with | .waiting _ _ b => decide (id < b) | _ => true) &&
  s.ctx.freezes.all fun f => match f with
  | .vjoin b => decide (id < b)
  | .fence _ b => decide (id < b)
  | .fencep _ b => decide (id < b)
  | _ => true

/-- A faulted load that the capture buffer holds (01 R40): the handler's own accesses do not wait for it. -/
def State.apart (s : State) (x : LoadEntry) (handler : Bool) : Bool := x.hold && s.inh && !x.handler && handler

/-- The arrival tick of what the focused context waits for would not come: it waits for its own accesses, for late data or for
room in a queue, or for a flag (log 57). -/
def State.tickStands (s : State) : Bool :=
  s.ctx.freezes.any (fun f => f.waits || f == .late || f == .eret || f == .trapDrain || f == .stream) ||
    match s.ctx.st with
    | .blocked => true
    | .waiting _ _ _ => true
    | .dormant => true
    | _ => false

/-- A TXCOMMIT holds what follows it until its result has landed (15 R386), or, where its arrival tick would not come, until the
result has come back (log 57). -/
def State.commitHolds (s : State) (l : Landing) : Bool := match l.kind with
  | .txCommit _ _ => l.answer == .waiting || !s.tickStands
  | _ => false

/-- An entry stands behind a TXCOMMIT that holds it; the handler's own accesses do not wait for one that the capture buffer
holds. -/
def State.commitOpen (s : State) (id : Nat) (handler : Bool) : Bool := s.ctx.q.landing.any fun l =>
  s.commitHolds l && decide (l.id < id) && !(handler && !l.handler && s.ctx.q.csq.any fun x => x.kind == .txCommit l.id)

/-- The scope of a release: to the local window none exceeds the cluster (01 R31, log 64). -/
def relScope (loc : Bool) (sc : Nat) : Nat := if loc then min sc 2 else sc

/-- Numbers of the contexts that stand in the package. -/
def State.contextIds (s : State) : List Nat := s.cur :: s.ctxs.map Prod.fst

/-- Whether a load-queue entry may read now (05 R154, R156, R157, R158, 10 R285, 15 R386): no acquire of any scope, no marker and
no open commit before it, no earlier local load where it is local. -/
def State.loadReady (s : State) (e : LoadEntry) : Bool :=
  let before := s.ctx.q.lq.filter fun x => decide (x.id < e.id) && !s.apart x e.handler
  !e.hold && s.before e.id && !s.commitOpen e.id e.handler && (match e.kind with | .mark _ => false | _ => true) &&
    before.all fun x => x.acq.isNone && (match x.kind with | .mark _ => false | _ => true) && !(e.isLoc && x.isLoc)

/-- The requester of a bank that a core's queue is: the core, with 16 for its load queue and 32 for its store queue; an
array stream is the core's number alone (02 R53). -/
def State.bankDenied (s : State) (req pa : Nat) : Bool :=
  pa / spaceSize == 2 && (s.getClu (nbits pa 24 7)).denied.contains (req, padBank (pa % 0x1000000))

/-- The requester that a context's access to a scratchpad through a global window is at its bank: its core's load or store queue
at its own cluster, the remote port at another (02 R53). -/
def State.windowReq (s : State) (pa queue : Nat) : Nat := if nbits pa 24 7 == s.clusterId then s.coreId % 8 + queue else 10

/-- A granule of a local load, by view (02 R52, R56), once its bank grants it (02 R54). A correctable error found freezes the
core (02 R76). -/
def State.readLocal (s : State) (e : LoadEntry) (a : Nat) : State × Got :=
  let pa := localPa s.clusterId (viewAddr e.swz a)
  if s.bankDenied (s.coreId % 8 + 16) pa then (s, .wait) else
  let r := (s.flushAt pa).findUpset pa
  let s := if r.2 then r.1.freezeCore s.coreId else r.1
  let hits := (s.storesBefore e.id fun x => x.local_ && x.swz == e.swz).filter fun h => h.1.addr / 8 == a / 8
  (s, forward hits (s.granule pa))

/-- A granule of a long load at its home or forwarded (05 R150). -/
def State.readLong (s : State) (e : LoadEntry) (a : Nat) : State × Got :=
  match s.translateCtx a .read with
  | (s, .fault c k) => (s, .fault c k)
  | (s, .ok pa leaf) =>
    let tid := s.tidOf s.ctx
    if s.ctx.q.lq.any (fun x => decide (x.id < e.id) && !x.isLoc && !s.apart x e.handler && x.need.any fun y => s.paOf y == pa) then
      (s, .wait)
    else if leafPeer leaf ≠ 0 then
      if s.peerReqs.any fun r => r.who == .load s.cur e.id a then (s, .wait)
      else match s.askPeer (hubOfCtx s.cur) (s.peerDev tid leaf) tid 1 pa 8 [] (.load s.cur e.id a) (verReq leaf) with
        | .sent s => (s, .wait)
        | .wait => (s, .wait)
        | .fail => (s, .fault 0x09 4)
    else
      let ver := leafVer leaf
      let inTx := ver && e.snp % 4 == 2
      let begins (l : List StoreEntry) : Bool := l.any fun x => decide (x.id < e.id) && match x.kind with
        | .txBegin _ => !e.handler || x.handler
        | _ => false
      if inTx && begins (s.ctx.q.csq ++ s.ctx.q.sq) then (s, .wait)
      else if s.bankDenied (s.windowReq pa 16) pa then (s, .wait)
      else
        let src := if inTx then (match s.ctx.txid with | some t => srcTx t | none => 0)
          else if ver then e.snp else 0
        let inTx := inTx && src != 0
        let s := ((s.flushAt pa).visit pa false (!leaf.getLsbD 8)).1
        let s := if pa / spaceSize = 4 then s.send (.cxlRequest tid pa false) else s
        let s := s.watchHome pa 8 false tid 0 s.cur (if src = 0 then none else s.verGranule src pa)
        let same (h : Granule × Bool) : Bool := s.paOf h.1.addr == pa
        if inTx then
          if (s.storesBefore e.id fun x => !x.local_ && x.tx.isSome).any same then (s, .wait)
          else (s, .data (s.verGranule src pa))
        else if src ≠ 0 then (s, .data (s.verGranule src pa))
        else (s, forward ((s.storesBefore e.id fun x => !x.local_ && (x.tx.isNone || !ver)).filter same) (s.granule pa))

/-- A load-queue entry replaced. -/
def State.setLoad (s : State) (e : LoadEntry) : State :=
  s.modQ fun q => { q with lq := q.lq.map fun x => if x.id = e.id then e else x }

/-- A load whose granules are all read: a fixed load owes its results; a long load's data waits in its landing entry (02
R68). -/
def State.loadDone (s : State) (e : LoadEntry) : State :=
  let s := s.modQ fun q => { q with lq := q.lq.filter fun x => x.id != e.id }
  match e.kind with
  | .fixed =>
    let rs := e.fmt.results e.got (if e.handler && s.frozen (fun f => f == .eret) then 0 else e.left)
    if !e.handler && s.inh then s.modQ fun q => { q with capture := q.capture ++ rs }
    else s.modQ fun q => { q with results := q.results ++ rs }
  | .land id => s.answer s.cur id (.granules e.got)
  | .mark _ => s

/-- A granule given to a load. -/
def State.giveGranule (s : State) (e : LoadEntry) (a : Nat) (v : Option Word) : State :=
  let e := { e with need := e.need.filter (· != a), got := e.got ++ [(a, v)] }
  if e.need.isEmpty then s.loadDone e else s.setLoad e

/-- A long load that faults: kept in the capture buffer, its fault waiting for the arrival tick (01 R40). -/
def State.loadFault (s : State) (e : LoadEntry) (cause : BitVec 8) (code : BitVec 16) (va : Nat) : State :=
  match e.kind with
  | .land id => (s.setLoad { e with hold := true, got := [], need := e.need ++ e.got.map Prod.fst }).answer s.cur id
      (.fault cause code va)
  | _ => s

/-- One granule of a load-queue entry read, if it can be. -/
def State.readOne (s : State) (id a : Nat) : State :=
  match s.ctx.q.lq.find? fun e => e.id == id with
  | none => s
  | some e =>
    if !s.loadReady e || !e.need.contains a || s.core.ecc then s
    else
      let r := if e.isLoc then s.readLocal e a else s.readLong e a
      match r.2 with
      | .data v => r.1.giveGranule e a v
      | .wait => r.1
      | .fault c k => r.1.loadFault e c k a

/-- A load of the focused context performing: one granule, or each of its granules in turn (05 R149, R150). A long load is
refused whole where any granule faults (01 R20), so all are translated first. A gather with no lane enabled reads nothing
and is done. -/
def State.performLoad (s : State) (id : Nat) (granule : Option Nat) : State :=
  match s.ctx.q.lq.find? fun e => e.id == id with
  | none => s
  | some e =>
    let bad := if e.isLoc then none else e.need.findSome? fun a => match (s.translateCtx a .read).2 with
      | .fault c k => some (c, k, a)
      | .ok _ _ => none
    match bad with
    | some (c, k, a) => if s.loadReady e then s.loadFault e c k a else s
    | none => match granule with
      | some a => s.readOne id a
      | none => if e.need.isEmpty then (if s.loadReady e then s.loadDone e else s) else e.need.foldl (fun s a => s.readOne id a) s

/-! ### Landing (02 R67 to R69, 09 R259, R264, 10 R303) -/

/-- A predicate written. -/
def State.putK (s : State) (k : Nat) (b : Bool) : State :=
  s.writeR ⟨.kreg k, if b then 1 else 0, 1, 0, 0, false⟩

/-- A scalar register written. -/
def State.putS (s : State) (d : Nat) (v : Word) : State := s.writeR ⟨.sreg d, v.setWidth 512, 1, 0, 0, false⟩

/-- The errors waiting in a landing-buffer entry are found as it is read out (02 R76, R77): an uncorrectable one poisons its
granule, or, of an entry that holds a value, what it writes. -/
def State.landFound (s : State) (l : Landing) : State × Landing × Bool :=
  let mine (u : Upset) : Bool := match u.site with | .landing c i _ => c == s.cur && i == l.id | _ => false
  let us := s.upsets.filter mine
  let gone (u : Upset) (g : Nat × Option (BitVec 64)) : Nat × Option (BitVec 64) := match u.site with
    | .landing _ _ a => if u.unc && g.1 / 8 == a / 8 then (g.1, none) else g
    | _ => g
  let s : State := { s with upsets := s.upsets.filter fun u => !mine u }
  (us.foldl (fun s u => s.foundInCore s.cur u.unc) s,
   us.foldl (fun l u => { l with answer := match l.answer with
     | .granules g => .granules (g.map (gone u))
     | a => a }) l, us.any Upset.unc)

/-- A register written with a value that is poison where `bad` says so. -/
def State.putP (s : State) (dst : Dst) (v : Word) (bad : Bool) : State :=
  s.writeR ⟨dst, v.setWidth 512, 1, if bad then 1 else 0, 0, false⟩

/-- A landing entry written to its destination and freed. -/
def State.land (s : State) (l0 : Landing) : State :=
  let r := s.landFound l0
  let s := r.1
  let l := r.2.1
  let bad := r.2.2
  let truth (b : Bool) : Word := if b then 1 else 0
  let s := s.modQ fun q => { q with landing := q.landing.filter fun x => x.id != l.id }
  match l.kind, l.answer with
  | .load f, .granules g => (f.results g 0).foldl State.writeR s
  | .swap d, .value v _ => s.putP (.sreg d) v bad
  | .stat d, .value v _ => s.putP (.sreg d) v bad
  | .txBegin, .value v ok =>
    s.modC fun c =>
      let w := setBits c.txs 8 56 v.toNat
      { c with txs := if ok then w else txsDoom w 4 }
  | .txCommit d k, .value v ok =>
    let s := (s.putP (.sreg d) v bad).putP (.kreg k) (truth ok) bad
    let s := s.modC fun c => { c with txs := setBits (setBits c.txs 2 2 0) 4 4 v.toNat }
    { s with ctx := { s.ctx with txid := none } }
  | .snapNew d k, .value v ok => (s.putP (.sreg d) v bad).putP (.kreg k) (truth ok) bad
  | .snapSet k, .value v ok =>
    (if ok then s.modC fun c => { c with snap := v } else s).putP (.kreg k) (truth ok) bad
  | .snapDrop k, .value _ ok => s.putP (.kreg k) (truth ok) bad
  | _, _ => s

/-- Whether a landing entry has what it waits for. -/
def Landing.arrived (l : Landing) : Bool := match l.answer with
  | .waiting => false
  | .fault _ _ _ => false
  | _ => true

/-- Whether an entry counts in the mode the context is in: the handler's in the handler (09 R261). -/
def State.sameMode (s : State) (handler : Bool) : Bool := handler == s.inh

/-- ARRIVAL_TICK_LANDING (02 R68): entry `arg.a` is written at its arrival tick, or as soon as its data is there where the
context drains (02 R71, 09 R252, R264). -/
def execArrivalTickLanding (s : State) : Out :=
  .next (match s.ctx.q.landing.find? fun l => l.id == s.arg.a with
    | some l => if l.arrived && (l.eager || (l.left == 0 && s.sameMode l.handler)) then s.land l else s
    | none => s)

/-- Something due now has not arrived (02 R69): a fixed load unread at its landing, or a landing entry without answer. -/
def State.isLate (s : State) : Bool :=
  (s.ctx.q.lq.any fun e => e.kind == .fixed && e.left == 0 && s.sameMode e.handler) ||
    s.ctx.q.landing.any fun l => l.left == 0 && s.sameMode l.handler && l.answer == .waiting

/-- LATE_DATA_LANDS (02 R69): what was late is written, and the freeze at the arrival tick ends. -/
def execLateDataLands (s : State) : Out :=
  .next (
    let s := s.landDue
    let due := s.ctx.q.landing.filter fun l => l.arrived && l.left == 0 && s.sameMode l.handler
    let s := due.foldl State.land s
    if s.isLate then s else s.thaw fun f => f == .late)

/-- RESULT_WRITEBACK (07 R189): result `arg.a` of those in flight, not exact, is written within its window, whole; or, of a
vector register or mask, only the lanes that `arg.mask` names, the others following later. -/
def execResultWriteback (s : State) : Out :=
  .next (match s.ctx.q.results[s.arg.a]? with
    | some x =>
      let some_ : BitVec 16 := x.lanes &&& s.arg.mask.setWidth 16
      if x.exact then s
      else if some_ = 0 ∨ some_ = x.lanes then
        (s.writeR x).modQ fun q => { q with results := q.results.eraseIdx s.arg.a }
      else (s.writeR { x with lanes := some_ }).modQ fun q =>
        { q with results := q.results.set s.arg.a { x with lanes := x.lanes &&& ~~~ some_ } }
    | none => s)

/-- The errors waiting in entry `n` of the capture buffer are found as it is read out (02 R76, R77): an uncorrectable one
poisons its granule, two lanes of a vector register. -/
def State.captureFound (s : State) (n : Nat) (x : Result) : State × Result :=
  let mine (u : Upset) : Bool := match u.site with | .capture c i _ => c == s.cur && i == n | _ => false
  (s.upsets.filter mine).foldl (fun r u => match u.site with
    | .capture _ _ k =>
      let m : BitVec 16 := match x.dst with | .vreg _ _ => 3#16 <<< (2 * k) | _ => 1
      (r.1.foundInCore s.cur u.unc, if u.unc then { r.2 with poison := r.2.poison ||| m } else r.2)
    | _ => r) ({ s with upsets := s.upsets.filter fun u => !mine u }, x)

/-- CAPTURE_ENTRY_WRITE (18 R412): entry `arg.a` of the capture buffer is written at its remaining count. -/
def execCaptureEntryWrite (s : State) : Out :=
  .next (match s.ctx.q.capture[s.arg.a]? with
    | some x =>
      if x.left = 0 ∧ s.inh = false then
        let r := s.captureFound s.arg.a x
        (r.1.writeR r.2).modQ fun q => { q with capture := q.capture.eraseIdx s.arg.a }
      else s
    | none => s)

/-- SETTING_TAKES_EFFECT (07 R202): the due writes of BAL and WAL. -/
def execSettingTakesEffect (s : State) : Out := .next (s.settle fun n => n == 2 || n == 3)

/-- FMT_TAKES_EFFECT (07 R211): the due writes of FMT. -/
def execFmtTakesEffect (s : State) : Out := .next (s.settle fun n => n == 1)

/-! ### A store performing (05 R150, R156, R158, 10 R296, R299) -/

/-- The class P commands of a context that are not completed. -/
def State.copiesOpen (s : State) (cid : Nat) : Bool :=
  (s.getCtx cid).q.copyq.any (fun c => c.cid == cid) || s.copies.any fun c => c.cid == cid

/-- A store of a context has not performed at a scope (05 R150). -/
def State.inFlight (s : State) (cid sc : Nat) : Bool := s.flights.any fun f => f.cid == cid && decide (f.upto < sc)

/-- The transaction a queued write belongs to now: `none` where it is plain, `some none` where its transaction has
ended (03 R107). -/
def Context.txNow (c : Context) (tx : Option Nat) : Option (Option Nat) :=
  match tx with
  | none => none
  | some t => some (if t = 16384 then c.txid else if c.txid = some t then some t else none)

/-- Whether a store-queue entry may act (05 R150, R156 to R158, R163, 10 R285, R296, R299, 15 R386), the loads that `skip` names left
aside. No store passes a SNAPNEW or TXBEGIN, whose stamp none of its later writes may have. -/
def State.storeMay (s : State) (skip : LoadEntry → Bool) (e : StoreEntry) : Bool :=
  s.before e.id && !s.commitOpen e.id e.handler &&
  let q := s.ctx.q
  let before := q.sq.filter fun x => decide (x.id < e.id)
  let loads := q.lq.filter fun x => decide (x.id < e.id) && !skip x
  let noMark := before.all fun x => match x.kind with | .mark _ => false | _ => true
  let noRel := before.all fun x => match x.kind with | .store _ (some _) => false | _ => true
  let noAcq := loads.all fun x => x.acq.isNone
  let plain := before.filter fun x => match x.kind with | .store _ _ => true | _ => false
  let stamps := before.any fun x => match x.kind with | .txBegin _ => true | .snapNew _ => true | _ => false
  let home := !s.inFlight s.cur 4
  match e.kind with
  | .store ws rel =>
    let conflict (g h : Granule) : Bool :=
      if e.local_ then g.addr / 8 == h.addr / 8 else s.paOf g.addr == s.paOf h.addr
    let waw := before.any fun x => x.local_ == e.local_ && match x.kind with
      | .store vs _ => vs.any fun h => ws.any fun g => conflict g h
      | _ => false
    let war := loads.any fun x => x.isLoc == e.local_ && (x.swz == e.swz || !e.local_) &&
      x.need.any fun a => ws.any fun g => conflict g ⟨a, 0, none⟩
    let scopeOk := match rel with
      | none => true
      | some sc => loads.isEmpty &&
        (relScope e.local_ sc = 0 || (plain.isEmpty && !s.inFlight s.cur (relScope e.local_ sc)))
    noMark && noRel && noAcq && !waw && !war && scopeOk && !(e.local_ && before.any fun x => x.local_) &&
      e.sent == .no && !stamps
  | .cmd c => before.isEmpty && noAcq && match c.op with
    | .cprel d _ sc => !s.inFlight s.cur (relScope (isLocal d) sc)
    | .cparr d _ sc => !s.inFlight s.cur (relScope (isLocal d) sc)
    | _ => home
  | .mark _ => false
  | .txBegin _ => before.isEmpty && noAcq && !s.copiesOpen s.cur && home && s.clockSettled
  | .txCommit _ => before.isEmpty && noAcq && !s.copiesOpen s.cur && home
  | .snapNew _ => before.isEmpty && noAcq && !s.copiesOpen s.cur && home && s.clockSettled
  | .snapSet _ _ => before.isEmpty && noAcq
  | .snapDrop _ _ => before.isEmpty && noAcq

/-- Whether a store-queue entry may act now. -/
def State.storeReady (s : State) (e : StoreEntry) : Bool := s.storeMay (fun x => s.apart x e.handler) e

/-- An entry that only a faulted load keeps from acting: it cannot perform before the load's replay. -/
def State.behindFault (s : State) (e : StoreEntry) : Bool :=
  s.ctx.q.lq.any (fun x => x.hold && decide (x.id < e.id)) && match e.kind with
    | .mark _ => true
    | _ => !s.storeReady e && s.storeMay (fun x => x.hold) e

/-- An entry leaves the store queue. -/
def State.popStore (s : State) (id : Nat) : State := s.modQ fun q => { q with sq := q.sq.filter fun x => x.id != id }

/-- How far a store-queue entry has been sent. -/
def State.markSent (s : State) (id : Nat) (v : SentSt) : State :=
  s.modQ fun q => { q with sq := q.sq.map fun x => if x.id = id then { x with sent := v } else x }

/-- A store fault at the head of the queue (01 R41): the store and every later entry move to the capture buffer, and the
fault waits for the next boundary. A store not at the head waits. -/
def State.storeFaulted (s : State) (e : StoreEntry) (cause : BitVec 8) (code : BitVec 16) (va : Nat) : State :=
  match s.ctx.q.sq.head? with
  | some h =>
    if h.id ≠ e.id then s
    else
      let s := s.modQ fun q => { q with sq := [], csq := q.csq ++ q.sq }
      let x : Pending := ⟨cause, code, e.bundle, va, e.handler⟩
      { s with ctx := { s.ctx with pend := s.ctx.pend ++ [x] } }
  | none => s

/-- A long store: translated, then to its home; by auto-commit or into its transaction on a versioned page; to a peer by a
flit; or only as far as ordering point `stop` (1 core, 2 cluster, 3 die; 0 its home). -/
def State.longStore (s : State) (e : StoreEntry) (ws : List Granule) (stop : Nat) : State :=
  let va := (ws.head?.map fun g => g.addr).getD 0
  match s.translateCtx va .write with
  | (s, .fault c k) => s.storeFaulted e c k va
  | (s, .ok pa leaf) =>
    let tid := s.tidOf s.ctx
    let gs := ws.map fun g => { g with addr := pa / 8 * 8 + (g.addr - va / 8 * 8) }
    if leafPeer leaf ≠ 0 then
      match s.askPeer (hubOfCtx s.cur) (s.peerDev tid leaf) tid 2 pa 8 gs (.store s.cur e.id) (verReq leaf) with
      | .sent s => s.markSent e.id .peer
      | .wait => s
      | .fail => s.storeFaulted e 0x09 5 va
    else if leafVer leaf then
      match s.ctx.txNow e.tx with
      | some none => s.popStore e.id
      | some (some t) => ((s.txWrite t (pa / 128) gs).popStore e.id).watchHome pa 8 true tid 0 s.cur
      | none =>
        if s.cclk = clockEnd then s.storeFaulted e 0x09 5 va
        else
          let w : AutoWrite := ⟨pa / 128, .write gs, .store s.cur e.id, tid, !leaf.getLsbD 8, leaf.getLsbD 10⟩
          State.markSent { s with autoQ := s.autoQ ++ [w] } e.id .queued
    else if gs.any fun g => s.bankDenied (s.windowReq g.addr 32) g.addr then s
    else
      let s := gs.foldl (fun s g => s.flushAt g.addr) (s.popStore e.id)
      if stop ≠ 0 then { s with flights := s.flights ++ [⟨s.cur, stop, s.cur, tid, gs, !leaf.getLsbD 8⟩] }
      else gs.foldl (fun s g => s.homeWrite tid 0 s.cur g (!leaf.getLsbD 8)) s

/-- A local store at its banks, in its view: every granule, or of several in any order only the one that `pick` names, the
first of those with its address (05 R149, 10 R298). A bank that does not grant it lets it wait (02 R54). -/
def State.localStore (s : State) (e : StoreEntry) (ws : List Granule) (pick : Option Nat) : State :=
  let now : List Granule := match (match pick with | some k => ws[k]? | none => none) with
    | some g => (ws.find? fun h => h.addr == g.addr).toList
    | none => ws
  let rest := now.foldl (fun l g => l.erase g) ws
  let gs := now.map fun g => { g with addr := localPa s.clusterId (viewAddr e.swz g.addr) }
  if gs.any fun g => s.bankDenied (s.coreId % 8 + 32) g.addr then s
  else
    let s := gs.foldl (fun s g => s.flushAt g.addr) s
    let left (x : StoreEntry) : StoreEntry := if x.id = e.id then
      { x with kind := match x.kind with | .store _ r => .store rest r | k => k } else x
    gs.foldl (fun s g => s.store g false)
      (if rest.isEmpty then s.popStore e.id else s.modQ fun q => { q with sq := q.sq.map left })

/-- A store-queue entry acts, if it may. -/
def State.act (s : State) (e : StoreEntry) (stop : Nat) (pick : Option Nat) : State :=
  if !s.storeReady e || s.core.ecc then s
  else
    match e.kind with
    | .store ws _ =>
      if ws.isEmpty then s.popStore e.id
      else if e.local_ then s.localStore e ws pick else s.longStore e ws stop
    | .cmd c =>
      let tx := match s.ctx.txNow e.tx with
        | none => none
        | some none => some 16385
        | some (some t) => some t
      let snp := if tx = some 16385 then 0
        else if c.snp = srcTx 16384 then (match tx with | some t => srcTx t | none => 0) else c.snp
      let s := { s.popStore e.id with nextOrder := s.nextOrder + 1 }
      s.modQ fun q => { q with copyq := q.copyq ++ [{ c with tx := tx, snp := snp, ident := s.nextOrder }] }
    | .mark _ => s
    | .txBegin l => (s.popStore e.id).txBegin s.cur l (e.tx == some 16385)
    | .txCommit l => (s.popStore e.id).txCommit s.cur l
    | .snapNew l => (s.popStore e.id).snapNew s.cur l
    | .snapSet l h => (s.popStore e.id).snapSet s.cur l h
    | .snapDrop l h => (s.popStore e.id).snapDrop s.cur l h

/-- How far a store goes in one act: with `arg.flag` no further than its die's ordering point, or its cluster's or core's
where `arg.c` is 2 or 1; else to its home. -/
def State.stopAt (s : State) : Nat := if !s.arg.flag then 0 else if 1 ≤ s.arg.c ∧ s.arg.c ≤ 2 then s.arg.c else 3

/-- The granule of a store that an act is confined to: `arg.w` less one; all of them where it is 0. -/
def State.pickOf (s : State) : Option Nat := if s.arg.w = 0 then none else some (s.arg.w.toNat - 1)

/-- One AOUTS granule performs at its bank: the oldest to its address (05 R149, 13 R378). -/
def State.aoutsPerform (s : State) (k : Nat) : State :=
  match s.ctx.q.aouts[k]? with
  | none => s
  | some g =>
    match s.ctx.q.aouts.find? fun h => h.addr == g.addr with
    | none => s
    | some h =>
      let stamps := s.ctx.q.sq.any fun x => match x.kind with | .txBegin _ => true | .snapNew _ => true | _ => false
      if s.bankDenied (s.coreId % 8) h.addr || stamps || s.ctx.q.landing.any s.commitHolds then s
      else ((s.flushAt h.addr).modQ fun q => { q with aouts := q.aouts.erase h }).store h false

/-- Every AOUTS granule of the focused context performs, in order. -/
def State.aoutsDrain (s : State) : State :=
  s.ctx.q.aouts.foldl (fun s g => s.store g false) (s.modQ fun q => { q with aouts := [] })

/-- STORE_PERFORM (05 R150): store-queue entry `arg.a` acts, as far as `State.stopAt` says; where `arg.b` is 1, store number
`arg.a` of those on their way reaches its home; where it is 2, AOUTS granule `arg.a` of the context performs. Entries that
leave the queue for HD0 or the copy engines do so the same way. -/
def execStorePerform (s : State) : Out :=
  .next (
    if s.arg.b = 1 then (match s.flights[s.arg.a]? with
      | some x => s.flush fun f => f == x
      | none => s)
    else if s.arg.b = 2 then s.aoutsPerform s.arg.a
    else match s.ctx.q.sq.find? fun e => e.id == s.arg.a with
    | some e => match e.kind with
      | .store _ (some _) => s
      | _ => s.act e s.stopAt s.pickOf
    | none => s)

/-- STREL_PERFORM (10 R296): release store `arg.a` performs once its conditions hold. -/
def execStrelPerform (s : State) : Out :=
  .next (match s.ctx.q.sq.find? fun e => e.id == s.arg.a with
    | some e => match e.kind with
      | .store _ (some _) => s.act e s.stopAt s.pickOf
      | _ => s
    | none => s)

/-! ### Markers, fences and joins (05 R157, R160, 02 R57) -/

/-- QMARK_RELEASE (05 R157): the marker at the head of the store queue goes once every earlier store has performed at its
scope and every earlier load has performed; both queues then release what they held. -/
def execQmarkRelease (s : State) : Out :=
  .next (match s.ctx.q.sq.head? with
    | some e => match e.kind with
      | .mark sc =>
        if s.ctx.q.lq.any (fun x => decide (x.id < e.id) && !s.apart x e.handler) || s.inFlight s.cur sc ||
          s.commitOpen e.id e.handler then s
        else s.modQ fun q => { q with sq := q.sq.tail, lq := q.lq.filter fun x => x.id != e.id }
      | _ => s
    | none => s)

/-- Every local access before an entry and every AOUTS write has performed (02 R57, 05 R157). -/
def State.joined (s : State) (b : Nat) : Bool :=
  s.ctx.q.aouts.isEmpty && s.ctx.q.sq.all (fun e => !e.local_ || decide (b ≤ e.id)) && s.ctx.q.lq.all fun e => !e.isLoc || decide (b ≤ e.id)

/-- Every access before an entry has performed at a scope and every copy command before it is completed (05 R157). -/
def State.fenced (s : State) (sc b : Nat) : Bool :=
  s.ctx.q.aouts.isEmpty && s.ctx.q.sq.all (fun e => decide (b ≤ e.id)) && s.ctx.q.lq.all (fun e => s.apart e true || decide (b ≤ e.id)) &&
    s.ctx.q.copyq.all (fun c => decide (b ≤ c.qid)) && (s.copies.all fun c => c.cid != s.cur || decide (b ≤ c.qid)) &&
    !s.inFlight s.cur sc

/-- VJOIN_RELEASE. -/
def execVjoinRelease (s : State) : Out :=
  .next (s.thaw fun f => match f with | .vjoin b => s.joined b | _ => false)

/-- What a core has fetched ahead is fetched again: by a fence at core scope or wider (05 R167); of a loop its body. -/
def State.refetch (s : State) : State := { s with ctx := { s.ctx with
  fetched := [], seq := s.ctx.seq.map fun q => { q with stale := true } } }

/-- FENCE_RELEASE: stores of the context that are to reach the fence's scope reach their homes, and the freeze ends once
everything before it has performed. -/
def execFenceRelease (s : State) : Out :=
  .next (
    let far := s.ctx.freezes.any fun f => match f with | .fence _ _ => true | _ => false
    if !far then s
    else
      let need := s.ctx.freezes.foldl (fun m f => match f with | .fence sc _ => max m sc | _ => m) 0
      let s := s.flush fun f => f.cid == s.cur && decide (f.upto < need)
      let s := if need = 0 then s else s.refetch
      s.thaw fun f => match f with | .fence sc b => s.fenced sc b | _ => false)

/-- FENCEP's third step (05 R160): every access that has passed the die's ordering point reaches its home. -/
def State.dieDrained (s : State) (d b : Nat) : Bool :=
  s.fenced 4 b && s.flights.all fun f => f.from_ / 512 != d || decide (f.upto < 3)

/-- FENCEP_RELEASE: the context's own stores reach their homes; once its pkg fence holds, the fence reaches the die's
ordering point, what passed it before performs, and the freeze ends. -/
def execFencepRelease (s : State) : Out :=
  .next (
    let far := s.ctx.freezes.any fun f => match f with | .fencep _ _ => true | _ => false
    let s := if far then (s.flush fun f => f.cid == s.cur).refetch else s
    let ds := s.ctx.freezes.filterMap fun f => match f with
      | .fencep d b => if s.fenced 4 b then some d else none
      | _ => none
    let s := s.flush fun f => ds.contains (f.from_ / 512) && decide (3 ≤ f.upto)
    s.thaw fun f => match f with | .fencep d b => s.dieDrained d b | _ => false)

/-! ### Late causes (01 R40, R41, 10 R308, 18 R411) -/

/-- A late cause taken at a boundary: a double trap where the handler's own access raised it (09 R262), which, where the context
was issuing, leaves the core to another. -/
def State.lateTrap (s : State) (cause : BitVec 8) (code : BitVec 16) (bundle va : Nat) : State :=
  let t := s.takeTrap cause code bundle s.dueAddr va
  if s.ctx.st == .issuing then t.leave else t

/-- Whether the fault of a landing entry is raised now: at its arrival tick; at once where the program waits for the load, so
that the tick would not come (log 20). -/
def State.faultDue (s : State) (l : Landing) : Bool :=
  s.sameMode l.handler && (l.left == 0 || s.frozen (fun f => f.waits || f == .eret) || (s.isLate && s.ctx.q.lq.any fun x =>
    x.kind == .land l.id && x.acq.isSome))

/-- The faulted long load that is due: of several the one with the earliest arrival tick, then the first issued (01 R40). -/
def State.firstFault (s : State) : Option Landing :=
  let l := s.ctx.q.landing.filter fun l => s.faultDue l && match l.answer with
    | .fault _ _ _ => true
    | _ => false
  l.find? fun x => l.all fun y => decide (x.left ≤ y.left)

/-- LONG_LOAD_FAULT (01 R40): the first faulted long load that is due traps; its request stays for ERET. -/
def execLongLoadFault (s : State) : Out :=
  .next (match s.firstFault with
    | some l => match l.answer with
      | .fault c k va =>
        let s := s.modQ fun q => { q with
          landing := q.landing.map fun x => if x.id = l.id then { x with answer := .waiting } else x }
        s.lateTrap c k l.bundle va
      | _ => s
    | none => s)

/-- The first late cause of a kind that may be taken in this mode. -/
def State.pendOf (s : State) (p : Pending → Bool) : Option Pending := s.ctx.pend.find? fun x => p x && s.sameMode x.handler

/-- A late cause taken from those pending. -/
def State.takePend (s : State) (x : Pending) : State :=
  let s := { s with ctx := { s.ctx with pend := s.ctx.pend.erase x } }
  s.lateTrap x.cause x.detail x.bundle x.va

/-- The store fault that may be taken. -/
def State.storePend (s : State) : Option Pending := s.pendOf fun x => x.cause != barrierOverrunCause

/-- STORE_FAULT (01 R41): at the boundary after the store reached the head of its queue, unless a load fault is due (18 R411). -/
def execStoreFault (s : State) : Out :=
  .next (match s.firstFault, s.storePend with
    | none, some x => s.takePend x
    | _, _ => s)

/-- BARRIER_OVERRUN (10 R308): at the boundary after the return arrived, unless a load or store fault comes first (18 R411). -/
def execBarrierOverrun (s : State) : Out :=
  .next (match s.firstFault, s.storePend, s.pendOf fun x => x.cause == barrierOverrunCause with
    | none, none, some x => s.takePend x
    | _, _, _ => s)

/-- TRAP_ENTRY (09 R261): the freeze before the handler's first bundle ends when the stores issued before the entry have
performed or faulted; an entry behind a faulted load moves to the capture buffer with those after it (log 20). -/
def execTrapEntry (s : State) : Out :=
  .next (match s.ctx.q.sq with
    | [] => s.thaw fun f => f == .trapDrain
    | e :: _ =>
      if s.frozen (fun f => f == .trapDrain) && s.behindFault e then
        s.modQ fun q => { q with sq := [], csq := q.csq ++ q.sq }
      else s)

/-- ERET_RESUME (09 R264): the handler's own landings are written, and the program resumes. -/
def execEretResume (s : State) : Out :=
  .next (if s.frozen (fun f => f == .eret) && !s.ctx.q.handlerOwes then s.landDue.eretFinish else s)

/-! ### Freezes of errors and arbitration; walks -/

/-- ECC_FREEZE_END (02 R76): 12 ticks after the last correction the focused core goes on. -/
def execEccFreezeEnd (s : State) : Out := .next { s with core := { s.core with ecc := false } }

/-- PAGE_WALK_COMPLETE (01 R36): a walk for cluster `arg.a`, tenant `arg.b`, address `arg.w`, with D where `arg.flag`
asks for a write, installs its leaf; one that faults installs nothing. -/
def execPageWalkComplete (s : State) : Out :=
  .next (if s.arg.a < 128 ∧ (NatMap.get .reset s.tenants s.arg.b).en ∧ s.arg.w.toNat < 2 ^ 52 then
    (s.walkInstall (some s.arg.a) s.arg.b s.arg.w.toNat
      (s.arg.flag && s.mayWrite (some s.arg.a) s.arg.b s.arg.w.toNat .write)).1
    else s)

end Sys2Proof.Machine
end

