-- ==== Sys2Proof/Machine/Copy.lean ====
section
/-! DEFINITION. Class P: the commands at issue, and the copy engines that run them: plain copies, home-unit
read-modify-writes, barriers, sends, completion words, faults and failures (02 R61 to R63, R72, 10 R299 to R312, 18 R418,
R419). -/

namespace Sys2Proof.Machine

/-! ### Issue (01 R42, 10 R282, R301 to R312) -/

/-- An address operand of a class P word: address, alignment, the ranges it covers, watch kind (1 source, 2
destination). -/
structure CopyArg where
  addr : Nat
  align : Nat
  ranges : List (Nat × Nat)
  kind : Nat

/-- The faults a class P word raises at issue, in R411's order. -/
def State.checkCopy (s : State) (l : List CopyArg) (f : State → State) : State :=
  if l.any fun x => x.addr % x.align != 0 then s.trapBefore alignCause s.alignDetail 0
  else
    let bad (x : CopyArg) : Bool :=
      if isLocal x.addr then x.ranges.any fun r => r.2 != 0 && s.localBad r.1 r.2 else decide (2 ^ 52 ≤ x.addr)
    match l.find? bad with
    | some x => if isLocal x.addr then s.trapBefore scratchRange 0 x.addr else s.trapBefore 0x08 3 x.addr
    | none =>
      match l.findSome? fun x => x.ranges.findSome? fun r => if r.2 = 0 then none else s.watches x.kind r.1 r.2 with
      | some w => s.trapBefore watchCause (BitVec.ofNat 16 (w + 16 * s.env.pos.toNat)) 0
      | none => f s

/-- A command enters the store queue as the context's next, its landing entry beside it (10 R282). -/
def State.pushCmd (s : State) (op : CopyOp) (land : Option (LandKind × Nat)) : State :=
  let id := s.ctx.q.nextId
  let s := match land with
    | some (k, ad) => s.pushLanding k ad
    | none => s
  let c : CopyCmd :=
    { ident := 0, cid := s.cur, lid := bits s.ctx.c.lid 0 16, vc := s.ctx.place.1, tid := s.tidOf s.ctx, num := s.ctx.q.issued + 1, qid := id,
      ahead := [], buf := [], stamp := 0, op := op, land := land.map fun _ => id, st := .queued, cursor := 0,
      failed := false, tx := none, snp := s.verSource, bundle := s.issue.addr, handler := s.inh }
  (s.modQ fun q => { q with issued := q.issued + 1 }).pushStore (.cmd c) false false

/-- The byte count of CPY, CPACC and CPFILL. -/
def State.copyCount (s : State) (r : BitVec 6) (n : BitVec 20) : Nat := (s.sreg r.toNat + n.setWidth 64).toNat % 2 ^ 40

/-- CPY. -/
def execCpy (b a r : BitVec 6) (n : BitVec 20) (s : State) : Out :=
  s.scalar fun s => s.consume [b.toNat, a.toNat, r.toNat] fun s =>
    let dst := (s.sreg b.toNat).toNat
    let src := (s.sreg a.toNat).toNat
    let count := s.copyCount r n
    s.checkCopy [⟨dst, 1, [(dst, count)], 2⟩, ⟨src, 1, [(src, count)], 1⟩] fun s => s.pushCmd (.cpy dst src count) none

/-- The rows of a strided operand (10 R302). -/
def rowRanges (base len rows : Nat) (stride : Int) : List (Nat × Nat) :=
  (List.range rows).map fun (r : Nat) => ((wordOf ((base : Int) + (r : Int) * stride)).toNat, len)

/-- CPYS. -/
def execCpys (b a r : BitVec 6) (s : State) : Out :=
  s.scalar fun s => s.consume [b.toNat, a.toNat, r.toNat, r.toNat + 1] fun s =>
    let dst := (s.sreg b.toNat).toNat
    let src := (s.sreg a.toNat).toNat
    let g := s.sreg r.toNat
    let h := s.sreg (r.toNat + 1)
    let len := bits g 0 32
    let rows := bits g 32 32
    let ds := sext 32 (bits h 0 32)
    let ss := sext 32 (bits h 32 32)
    s.checkCopy [⟨dst, 1, rowRanges dst len rows ds, 2⟩, ⟨src, 1, rowRanges src len rows ss, 1⟩] fun s =>
      s.pushCmd (.cpys dst src len rows ds ss) none

/-- CPACC: a count that is no multiple of the element size raises ALIGN. -/
def execCpacc (b a r : BitVec 6) (n : BitVec 20) (o : BitVec 3) (t : BitVec 2) (s : State) : Out :=
  s.scalar fun s => s.consume [b.toNat, a.toNat, r.toNat] fun s =>
    let dst := (s.sreg b.toNat).toNat
    let src := (s.sreg a.toNat).toNat
    let count := s.copyCount r n
    let z := etySize t.toNat
    if count % z ≠ 0 then s.trapBefore alignCause s.alignDetail 0
    else s.checkCopy [⟨dst, z, [(dst, count)], 2⟩, ⟨src, z, [(src, count)], 1⟩] fun s =>
      s.pushCmd (.cpacc dst src count o.toNat t.toNat) none

/-- CPSWAP. -/
def execCpswap (d b v : BitVec 6) (w : BitVec 1) (a : BitVec 12) (s : State) : Out :=
  s.scalar fun s => s.consume [b.toNat, v.toNat] fun s =>
    let dst := (s.sreg b.toNat).toNat
    let z := if w = 1 then 8 else 4
    s.checkCopy [⟨dst, z, [(dst, z)], 2⟩] fun s =>
      s.pushCmd (.cpswap dst (s.sreg v.toNat) (w == 1)) (some (.swap (s.sname d.toNat), a.toNat))

/-- CPCAS. -/
def execCpcas (d b v c : BitVec 6) (w : BitVec 1) (a : BitVec 12) (s : State) : Out :=
  s.scalar fun s => s.consume [b.toNat, v.toNat, c.toNat] fun s =>
    let dst := (s.sreg b.toNat).toNat
    let z := if w = 1 then 8 else 4
    s.checkCopy [⟨dst, z, [(dst, z)], 2⟩] fun s =>
      s.pushCmd (.cpcas dst (s.sreg v.toNat) (s.sreg c.toNat) (w == 1)) (some (.swap (s.sname d.toNat), a.toNat))

/-- CPSEND: its descriptor in five registers. -/
def execCpsend (a : BitVec 6) (s : State) : Out :=
  let n := a.toNat
  s.scalar fun s => s.consume [n, n + 1, n + 2, n + 3, n + 4] fun s =>
    let src := (s.sreg (n + 2)).toNat
    let msg := (s.sreg (n + 4)).toNat
    let place := s.sreg (n + 3)
    s.checkCopy [⟨src, 1, [(src, bits place 32 24)], 1⟩, ⟨msg, 64, [(msg, 64)], 1⟩] fun s =>
      s.pushCmd (.cpsend (s.sreg n) (s.sreg (n + 1)) src place msg) none

/-- CPFILL: the pattern is moved, so its poison goes with it (02 R78). -/
def execCpfill (b a r : BitVec 6) (n : BitVec 20) (s : State) : Out :=
  s.scalar fun s => s.consume [b.toNat, r.toNat] fun s =>
    let dst := (s.sreg b.toNat).toNat
    let count := s.copyCount r n
    s.checkCopy [⟨dst, 1, [(dst, count)], 2⟩] fun s =>
      s.pushCmd (.cpfill dst (s.sreg a.toNat) (s.spois a.toNat) count) none

/-- CPBINIT. -/
def execCpbinit (b a : BitVec 6) (s : State) : Out :=
  let n := a.toNat
  s.scalar fun s => s.consume [b.toNat, n, n + 1, n + 2] fun s =>
    let dst := (s.sreg b.toNat).toNat
    let e := bits (s.sreg n) 0 20
    s.checkCopy [⟨dst, 32, [(dst, 32)], 2⟩] fun s =>
      s.pushCmd (.cpbinit dst (wd (e * 2 ^ 40 + e * 2 ^ 20 + e)) (wd (bits (s.sreg (n + 1)) 0 5)) (s.sreg (n + 2))) none

/-- CPARR. -/
def execCparr (b r : BitVec 6) (i : BitVec 1) (c : BitVec 3) (s : State) : Out :=
  s.scalar fun s => s.consume [b.toNat, r.toNat] fun s =>
    let dst := (s.sreg b.toNat).toNat
    s.checkCopy [⟨dst, 32, [(dst, 32)], 2⟩] fun s =>
      s.pushCmd (.cparr dst ((s.sreg r.toNat).getLsbD 0 != (i == 1)) (s.scopeOf c.toNat)) none

/-- CPCOLL. -/
def execCpcoll (b : BitVec 6) (s : State) : Out :=
  s.scalar fun s => s.consume [b.toNat] fun s =>
    let a := (s.sreg b.toNat).toNat
    s.checkCopy [⟨a, 64, [(a, 64)], 1⟩] fun s => s.pushCmd (.cpcoll a) none

/-- CPREL: the value is read at issue and OR-ed with CFAIL later, so it is consumed. -/
def execCprel (a b : BitVec 6) (c : BitVec 3) (s : State) : Out :=
  s.scalar fun s => s.consume [a.toNat, b.toNat] fun s =>
    let dst := (s.sreg b.toNat).toNat
    s.checkCopy [⟨dst, 8, [(dst, 8)], 2⟩] fun s =>
      s.pushCmd (.cprel dst (s.sreg a.toNat) (s.scopeOf c.toNat)) none

/-- CPSTAT. -/
def execCpstat (d : BitVec 6) (a : BitVec 10) (s : State) : Out :=
  s.scalar fun s => s.pushCmd .cpstat (some (.stat (s.sname d.toNat), a.toNat))

/-! ### Commands in the engines -/

/-- An accepted command by identifier. -/
def State.copyOf (s : State) (k : Nat) : Option CopyCmd := s.copies.find? fun c => c.ident == k

/-- An accepted command changed. -/
def State.modCopy (s : State) (k : Nat) (f : CopyCmd → CopyCmd) : State :=
  { s with copies := s.copies.map fun c => if c.ident = k then f c else c }

/-- The physical cluster of an accepted command (18 R418). -/
def CopyCmd.cluster (c : CopyCmd) : Nat := c.ident / 64

/-- A command of the firmware (16 R401), numbered 8,192 and its queue's number; its agent is a command processor, which has
no window and no TLB. -/
def CopyCmd.fw (c : CopyCmd) : Bool := decide (8192 ≤ c.ident)

/-- The cluster whose TLB a command's translations use. -/
def CopyCmd.tlb (c : CopyCmd) : Option Nat := if c.fw then none else some c.cluster

/-- An address of a command names its cluster's window. -/
def CopyCmd.loc (c : CopyCmd) (a : Nat) : Bool := !c.fw && isLocal a

/-- The hub a command's accesses leave by. -/
def CopyCmd.hub (c : CopyCmd) : Nat := if c.fw then c.ident % 8 / 2 else hubOfCtx (32 * c.cluster)

/-- The agent kind and agent a watchpoint record names (18 R418, R422). -/
def CopyCmd.who (c : CopyCmd) : Nat × Nat := if c.fw then (3, c.ident % 8) else (1, c.ident)

/-- The launch of a command. -/
def State.copyLaunch (s : State) (c : CopyCmd) : Option Launch := NatMap.find? s.launches c.lid

/-- The home of a local-window address of a command: in the scratchpad of the virtual cluster that issued it, wherever that
stands now (10 R300, 16 R400). -/
def State.engLocal (s : State) (c : CopyCmd) (a : Nat) : Nat :=
  ((s.copyLaunch c).bind fun l => s.padAt l c.vc a).getD (localPa c.cluster a)

/-- An address lies in the launch window of a command (01 R29). -/
def State.inWindow (s : State) (c : CopyCmd) (a : Nat) : Bool := match s.copyLaunch c with
  | some l => let b := (l.words.getD 5 0).toNat; b != 0 && decide (b ≤ a) && decide (a < b + 0x80000000)
  | none => false

/-- An engine's access waits for a bank that did not grant it (02 R53): as its cluster's engine, or through the remote port of
another. -/
def State.engDenied (s : State) (c : CopyCmd) (pa : Nat) : Bool :=
  s.bankDenied (if !c.fw && nbits pa 24 7 == c.cluster then 8 + c.ident / 32 % 2 else 10) pa

/-- COPY_ACCEPT (10 R299): engine `arg.a` mod 2 of cluster `arg.a` / 2 accepts the command that left its store queue first,
if it runs fewer than 32. -/
def execCopyAccept (s : State) : Out :=
  let e := s.arg.a % 256
  let ids := (List.range 16).map fun i => ctxId (e / 2) (4 * (e % 2) + i / 4) (i % 4)
  let first := ids.foldl (fun (a : Option (Nat × CopyCmd)) id => match (s.getCtx id).q.copyq, a with
    | c :: _, some (i, b) => if c.ident < b.ident then some (id, c) else some (i, b)
    | c :: _, none => some (id, c)
    | [], a => a) none
  let slot := (List.range 32).find? fun n => s.copies.all fun c => c.ident != 32 * e + n
  .next (match first, slot with
    | some (id, c), some n =>
      let s := s.modCtx id fun x => { x with q := { x.q with copyq := x.q.copyq.tail } }
      { s with copies := s.copies ++ [{ c with ident := 32 * e + n, st := .running }] }
    | _, _ => s)

/-- A record about a command (18 R418). -/
def State.copyPost (s : State) (c : CopyCmd) (type cause code addr aux : Nat) : State :=
  if c.fw then s else s.post c.tid type cause code addr ((s.getCtx c.cid).src + c.ident * 2 ^ 32) aux []

/-- The writes of a command that wait for a stamp are withdrawn. -/
def State.withdraw (s : State) (k : Nat) : State :=
  { s with autoQ := s.autoQ.filter fun w => match w.src with | .copy j _ _ => j != k | _ => true }

/-- The cursor as it is seen from outside: writes still waiting for a stamp are not counted (10 R300, R312). -/
def State.cursorOf (s : State) (c : CopyCmd) : Nat :=
  (s.autoQ.filterMap fun w => match w.src with
    | .copy k off _ => if k = c.ident then some off else none
    | _ => none).foldl min c.cursor

/-- The leading bytes of a command's destination that are written: of a collective those of DST (10 R300, R312). -/
def State.progressOf (s : State) (c : CopyCmd) : Nat :=
  match s.colls.find? fun x => x.ident == c.ident && !x.bad with
  | some k => (if bits k.w0 8 2 = 1 then 2 else 4) *
      (((List.range (k.members * k.count)).find? fun e => !NatMap.get false k.done e).getD (k.members * k.count))
  | none => s.cursorOf c

/-- A command fails (10 R300): it makes no further write, CFAIL is set, its transaction is doomed with cause FAULT (03
R104), and its landing entry gets no value. -/
def State.failCopy (s : State) (k : Nat) : State :=
  match s.copyOf k with
  | none => s
  | some c =>
    let s := s.withdraw k
    let s := s.modCopy k fun c => { c with failed := true, st := .written }
    let s := s.modCtx c.cid fun x => { x with cfail := true }
    let s := match c.tx with
      | some t => s.doom t 7
      | none => s
    match c.land with
    | some l => s.answer c.cid l .failed
    | none => s

/-- A command that fails at once without service (18 R418, type 8). -/
def State.refuseCopy (s : State) (c : CopyCmd) (cause code addr : Nat) : State :=
  (s.copyPost c 8 cause code addr 0).failCopy c.ident

/-- A command that faults in translation stops at its cursor and posts the fault (01 R42, 18 R419). -/
def State.faultCopy (s : State) (c : CopyCmd) (cause : BitVec 8) (code : BitVec 16) (va : Nat) : State :=
  let cursor := s.cursorOf c
  let far := s.progressOf c
  if c.fw then s.failCopy c.ident
  else ((s.withdraw c.ident).modCopy c.ident fun x =>
    { x with st := .faulted cause code va, cursor := cursor, ahead := [] }).copyPost c 2 cause.toNat code.toNat va far

/-- A command whose port unit met poison is reported against its context and fails (02 R78): PORTMCHK, with the bank. -/
def State.poisonPost (s : State) (c : CopyCmd) (bank va : Nat) : State :=
  (s.copyPost c 5 mchk.toNat bank va c.lid).failCopy c.ident

/-- A port unit meets poison (02 R78): the target is left poisoned, PORTMCHK is posted, the command fails. -/
def State.portPoison (s : State) (c : CopyCmd) (pa va : Nat) : State :=
  let s := s.writeG ⟨pa / 8 * 8, 0, none⟩
  (s.logError (memBank pa) 2 0x0008 true 1 pa none (memPlace pa false)).poisonPost c (memBank pa) va

/-! ### Reading the source -/

/-- What an engine's access gives. -/
inductive EngRes where
  | done
  | wait
  | fault (cause : BitVec 8) (code : BitVec 16) (va : Nat)
  | fail
  deriving DecidableEq, Repr

/-- The source of a destination offset: its address, and the first and last-plus-one offsets of the run of source bytes it
lies in. The message block of CPSEND follows its payload; the descriptor of CPCOLL is its source. -/
def CopyOp.srcAt (op : CopyOp) (off : Nat) : Option (Nat × Nat × Nat) :=
  match op with
  | .cpy _ src n => some (src + off, 0, n)
  | .cpys _ src len _ _ ss =>
    some ((wordOf ((src : Int) + ((off / len : Nat) : Int) * ss + ((off % len : Nat) : Int))).toNat, off / len * len,
      off / len * len + len)
  | .cpacc _ src n _ _ => some (src + off, 0, n)
  | .cpsend _ _ src place msg =>
    let n := bits place 32 24
    if off < n then some (src + off, 0, n) else some (msg + (off - n), n, n + 64)
  | .cpcoll a => some (a + off, 0, 64)
  | _ => none

/-- The source operand as a word names it, which decides between window and tenant addresses (10 R280). -/
def CopyOp.srcBase (op : CopyOp) (off : Nat) : Nat :=
  match op with
  | .cpy _ src _ => src
  | .cpys _ src _ _ _ _ => src
  | .cpacc _ src _ _ _ => src
  | .cpsend _ _ src place msg => if off < bits place 32 24 then src else msg
  | .cpcoll a => a
  | _ => 0

/-- The destination of an offset: its address and the end of its run. -/
def CopyOp.dstAt (op : CopyOp) (off : Nat) : Nat × Nat :=
  match op with
  | .cpy dst _ n => (dst + off, n)
  | .cpys dst _ len _ ds _ =>
    ((wordOf ((dst : Int) + ((off / len : Nat) : Int) * ds + ((off % len : Nat) : Int))).toNat, off / len * len + len)
  | .cpacc dst _ n _ _ => (dst + off, n)
  | .cpswap dst _ w => (dst, if w then 8 else 4)
  | .cpcas dst _ _ w => (dst, if w then 8 else 4)
  | .cpsend _ _ _ place _ => (bits place 0 24 + off, bits place 32 24)
  | .cpfill dst _ _ n => (dst + off, n)
  | .cpbinit dst _ _ _ => (dst + off, 32)
  | .cparr dst _ _ => (dst, 32)
  | .cprel dst _ _ => (dst + off, 8)
  | .cpcoll _ => (0, 0)
  | .cpstat => (0, 0)

/-- The destination operand as a word names it. -/
def CopyOp.dstBase (op : CopyOp) : Nat :=
  match op with
  | .cpys dst _ _ _ _ _ => dst
  | op => (op.dstAt 0).1

/-- The bytes a copying command writes in all. -/
def CopyOp.total : CopyOp → Nat
  | .cpy _ _ n => n
  | .cpys _ _ len rows _ _ => len * rows
  | .cpacc _ _ n _ _ => n
  | .cpfill _ _ _ n => n
  | .cpsend _ _ _ place _ => bits place 32 24
  | .cpbinit _ _ _ _ => 32
  | _ => 0

/-- A command makes no progress. -/
def CopyCmd.stopped (c : CopyCmd) : Bool := c.st != .running

/-- An offset is already written. -/
def CopyCmd.wrote (c : CopyCmd) (off : Nat) : Bool :=
  decide (off < c.cursor) || c.ahead.any fun a => decide (a.1 ≤ off) && decide (off < a.1 + a.2)

/-- Source bytes of a granule kept in the command: the value's bytes for offsets `lo` to `hi` − 1, `o` lying at byte
`at_`. -/
def CopyCmd.keep (c : CopyCmd) (lo hi o at_ : Nat) (v : Option Word) : CopyCmd :=
  (List.range (hi - lo)).foldl (fun c i =>
    let x := lo + i
    if c.wrote x || (NatMap.find? c.buf x).isSome then c
    else { c with buf := NatMap.put c.buf x (v.map fun w => byteOf w (at_ + x - o)) }) c

/-- The version source of a command's reads inside and outside its transaction (03 R93, R101). -/
def CopyCmd.source (c : CopyCmd) : Nat :=
  if c.snp % 4 = 2 then (match c.tx with
    | some t => if t = 16385 then 0 else srcTx t
    | none => 0) else c.snp

/-- The source granule of an offset read once at its home (05 R149, R161), its bytes kept until they are written. -/
def State.fetchGranule (s : State) (c : CopyCmd) (o : Nat) : State × EngRes :=
  match c.op.srcAt o with
  | none => (s, .done)
  | some (sa, lo0, hi0) =>
    let at_ := sa % 8
    let lo := max lo0 (o - at_)
    let hi := min hi0 (o + 8 - at_)
    let keep (s : State) (v : Option Word) : State := s.modCopy c.ident fun x => x.keep lo hi o at_ v
    if c.loc (c.op.srcBase o) then
      let pa := s.engLocal c (sa / 8 * 8)
      if s.engDenied c pa then (s, .wait)
      else
        let s := ((s.flushFor c.cluster pa).visit pa false false).1
        let s := if pa / spaceSize = 4 then s.send (.cxlRequest c.tid pa false) else s
        (keep s (s.granule pa), .done)
    else
      match s.translate c.tlb c.tid (s.copyLaunch c) sa .read with
      | (s, .fault cause code) => (s, .fault cause code sa)
      | (s, .ok pa0 leaf) =>
        let pa := pa0 / 8 * 8
        if leafPeer leaf ≠ 0 then
          if s.peerReqs.any fun r => r.who == .copy c.ident lo (hi - lo) then (s, .wait)
          else match s.askPeer c.hub (s.peerDev c.tid leaf) c.tid 1 (pa0 + lo - o) (hi - lo) []
              (.copy c.ident lo (hi - lo)) (verReq leaf) with
            | .sent s => (s, .wait)
            | .wait => (s, .wait)
            | .fail => (s, .fail)
        else if s.engDenied c pa then (s, .wait)
        else
          let s := ((s.flushFor c.cluster pa).visit pa false (!leaf.getLsbD 8)).1
          let s := if pa / spaceSize = 4 then s.send (.cxlRequest c.tid pa false) else s
          let v := s.verGranule (if leafVer leaf then c.source else 0) pa
          (keep (s.watchHome pa 8 false c.tid c.who.1 c.who.2 v) v, .done)

/-- The bytes of some offsets brought into the command, up to the first that cannot be. -/
def State.fetch (s : State) (k : Nat) : List Nat → State × EngRes
  | [] => (s, .done)
  | o :: os =>
    match s.copyOf k with
    | none => (s, .wait)
    | some c =>
      if (NatMap.find? c.buf o).isSome then s.fetch k os
      else match s.fetchGranule c o with
        | (s, .done) => s.fetch k os
        | r => r

/-- How many bytes from an offset on the command has. -/
def CopyCmd.held (c : CopyCmd) (off : Nat) : Nat → Nat
  | 0 => 0
  | n + 1 => if (NatMap.find? c.buf off).isSome then c.held (off + 1) n + 1 else 0

/-- The bytes of `n` offsets out of the command, and whether any is poison. -/
def CopyCmd.taken (c : CopyCmd) (off n : Nat) : List Byte × Bool :=
  let l := (List.range n).map fun i => (NatMap.find? c.buf (off + i)).getD none
  (l.map fun b => b.getD 0, l.any Option.isNone)

/-- An address of a command with its local window taken as the launch window has it. -/
def State.asWindow (s : State) (c : CopyCmd) (base a : Nat) : Nat := match s.copyLaunch c with
  | some l => let b := (l.words.getD 5 0).toNat; if b != 0 && c.loc base then b + c.vc * 0x1000000 + a else a
  | none => a

/-- Two ranges of bytes meet. -/
def runsMeet (a b len : Nat) : Bool := decide (a < b + len) && decide (b < a + len)

/-- Source and destination of a CPYS share a byte address (10 R302). -/
def State.overlaps (s : State) (c : CopyCmd) : Bool := match c.op with
  | .cpys dst src len rows ds ss =>
    (rowRanges dst len rows ds).any fun a => (rowRanges src len rows ss).any fun b =>
      runsMeet (s.asWindow c dst a.1) (s.asWindow c src b.1) len
  | _ => false

/-- Two destination rows of a CPYS share a byte. -/
def CopyOp.rowsMeet : CopyOp → Bool
  | .cpys _ _ len rows ds _ => decide (2 ≤ rows) && decide (ds.natAbs < len)
  | _ => false

/-- A CPYS writes in the order of its cursor where the order of its writes can be told. -/
def State.inOrder (s : State) (c : CopyCmd) : Bool := c.op.rowsMeet || s.overlaps c

/-- The offsets whose source bytes a command must have read before it writes `n` bytes from an offset on: those bytes' own, and
in a CPYS that overlaps those whose source is to be written (10 R302). -/
def State.readFirst (s : State) (c : CopyCmd) (off n : Nat) : List Nat :=
  let own := (List.range n).map (off + ·)
  if !s.overlaps c then own
  else
    let lo := s.asWindow c c.op.dstBase (c.op.dstAt off).1
    own ++ (List.range c.op.total).filter fun o => !c.wrote o && match c.op.srcAt o with
      | some (a, _, _) =>
        let a := s.asWindow c (c.op.srcBase o) a
        decide (lo ≤ a) && decide (a < lo + n)
      | none => false

/-! ### Writing the destination -/

/-- Offsets marked as written; the cursor passes every run that reaches it (10 R300). -/
def CopyCmd.absorb : Nat → Nat → List (Nat × Nat) → Nat
  | 0, cur, _ => cur
  | f + 1, cur, l => match l.find? fun a => decide (a.1 ≤ cur) && decide (cur < a.1 + a.2) with
    | some a => absorb f (a.1 + a.2) l
    | none => cur

/-- `n` bytes from an offset are written. -/
def CopyCmd.mark (c : CopyCmd) (off n : Nat) : CopyCmd :=
  let l := c.ahead ++ [(off, n)]
  let cur := CopyCmd.absorb l.length c.cursor l
  { c with
    cursor := cur
    ahead := l.filter fun a => decide (cur < a.1 + a.2)
    buf := c.buf.filter fun b => !(decide (off ≤ b.1) && decide (b.1 < off + n)) }

/-- The offsets of a command's destination whose bytes lie in the line of the one at an offset (03 R97), as runs: first offset and
length; of a CPYS every row that meets the line has one. -/
def CopyOp.lineRuns (op : CopyOp) (off : Nat) : List (Nat × Nat) :=
  let lo := (op.dstAt off).1 / 128 * 128
  let run (first len : Nat) (at_ : Nat) : List (Nat × Nat) :=
    let a := max at_ lo
    let b := min (at_ + len) (lo + 128)
    if a < b then [(first + (a - at_), b - a)] else []
  match op with
  | .cpys dst _ len rows ds _ => (List.range rows).flatMap fun (r : Nat) =>
      run (r * len) len (wordOf ((dst : Int) + (r : Int) * ds)).toNat
  | op => run 0 op.total (op.dstAt 0).1

/-- A command's bytes on a versioned line join those of it that wait, so that the line takes one stamp; until it is whole it is
not ready (03 R97). -/
def State.joinLine (s : State) (c : CopyCmd) (off n : Nat) (gs : List Granule) (pa : Nat) (leaf : Word) : State :=
  let runs := c.op.lineRuns off
  let first := (runs.head?.map Prod.fst).getD off
  let mine (w : AutoWrite) : Bool := w.line == pa / 128 && match w.src with
    | .copy k o _ => k == c.ident && o == first
    | _ => false
  if s.autoQ.any mine then
    { s with autoQ := s.autoQ.map fun w => if mine w then
        { w with
          op := match w.op with | .write ws => .write (ws ++ gs) | x => x
          src := match w.src with | .copy k o l => .copy k o (l - n) | x => x }
      else w }
  else { s with autoQ := s.autoQ ++
    [⟨pa / 128, .write gs, .copy c.ident first ((runs.map Prod.snd).sum - n), c.tid, !leaf.getLsbD 8, leaf.getLsbD 10⟩] }

/-- Granules of a virtual cluster's scratchpad written by an engine: in the scratchpad, or in its image while the launch is
saved, which lies in the cellar or in host memory (log 16). -/
def State.padStore (s : State) (c : CopyCmd) (gs : List Granule) : State :=
  gs.foldl (fun s g =>
    let s := s.flushFor c.cluster g.addr
    if g.addr / spaceSize = 2 then s.store g false else s.homeWrite c.tid c.who.1 c.who.2 g) s

/-- Bytes of one destination granule written at their home: in the window; by a flit to a peer; into the transaction or the
next auto-commit group on a versioned page (03 R97, R102). -/
def State.engWrite (s : State) (c : CopyCmd) (va off : Nat) (l : List Byte) (poison : Bool) : State × EngRes :=
  let gs := granules va l poison
  let at_ (pa : Nat) : List Granule := gs.map fun g => { g with addr := pa / 8 * 8 + (g.addr - va / 8 * 8) }
  match c.op with
  | .cpsend w _ _ _ _ =>
    match s.copyLaunch c with
    | none => (s, .wait)
    | some l =>
      let p := (l.map[bits w 8 8]?).getD 0
      if 0x1000000 ≤ va ∨ (l.st = .running ∧ (s.getClu p).atcap.getLsbD (va / 0x400000) = false) then
        (s, .fault scratchRange 7 va)
      else match s.padAt l (bits w 8 8) va with
        | none => (s, .wait)
        | some pa =>
          if s.engDenied c pa then (s, .wait)
          else (s.padStore c (at_ pa), .done)
  | _ =>
    if c.loc c.op.dstBase then
      let pa := s.engLocal c va
      if s.engDenied c pa then (s, .wait)
      else (s.padStore c (at_ pa), .done)
    else
      match s.translate c.tlb c.tid (s.copyLaunch c) va .write with
      | (s, .fault cause code) => (s, .fault cause code va)
      | (s, .ok pa leaf) =>
        if leafPeer leaf ≠ 0 then
          if s.peerReqs.any fun r => r.who == .ack c.ident off l.length then (s, .wait)
          else match s.askPeer c.hub (s.peerDev c.tid leaf) c.tid 2 pa l.length (at_ pa)
              (.ack c.ident off l.length) (verReq leaf) with
            | .sent s => (s, .wait)
            | .wait => (s, .wait)
            | .fail => (s, .fail)
        else if leafVer leaf then
          match c.tx with
          | some t =>
            if t = 16385 then (s, .done)
            else ((s.txWrite t (pa / 128) (at_ pa)).watchHome pa l.length true c.tid c.who.1 c.who.2, .done)
          | none =>
            if s.cclk = clockEnd then (s, .fault 0x09 5 va)
            else (s.joinLine c off l.length (at_ pa) pa leaf, .done)
        else if s.engDenied c pa then (s, .wait)
        else
          let s := s.flushFor c.cluster pa
          ((at_ pa).foldl (fun s g => s.homeWrite c.tid c.who.1 c.who.2 g (!leaf.getLsbD 8)) s, .done)

/-- A command's writes waiting for a stamp. -/
def State.rmwWaits (s : State) (c : CopyCmd) : Bool := s.autoQ.any fun w => match w.src with
  | .copy k _ _ => k == c.ident
  | _ => false

/-- The parts of lines that a command has begun and cannot end take their stamps as they are. -/
def State.cutLines (s : State) (k : Nat) : State :=
  { s with autoQ := s.autoQ.map fun w => match w.src with
    | .copy j o _ => if j = k then { w with src := .copy j o 0 } else w
    | _ => w }

/-- The outcome of an engine's access at an offset: a fault counts only at the cursor, once every byte before it is written. -/
def State.engEnd (s : State) (c : CopyCmd) (off : Nat) (r : EngRes) (f : State → State) : State :=
  match r with
  | .done => f s
  | .wait => s
  | .fault cause code va =>
    if off ≠ c.cursor then s else if s.rmwWaits c then s.cutLines c.ident else s.faultCopy c cause code va
  | .fail => s.failCopy c.ident

/-- One destination granule of a copying command, from an offset on, and how many bytes were done: up to the first whose source
is absent (01 R20). -/
def State.copyStep (s : State) (k off : Nat) : State × Nat :=
  match s.copyOf k with
  | none => (s, 0)
  | some c =>
    let d := c.op.dstAt off
    let n := min (8 - d.1 % 8) (d.2 - off)
    if c.stopped ∨ c.op.total ≤ off ∨ c.wrote off then (s, 0)
    else match c.op with
      | .cpfill _ pat pois _ =>
        let l := (List.range n).map fun i => byteOf pat ((d.1 + i) % 8)
        let r := s.engWrite c d.1 off l pois
        (r.1.engEnd c off r.2 fun s => s.modCopy k fun c => c.mark off n, n)
      | _ =>
        let r := s.fetch k (s.readFirst c off n)
        match r.1.copyOf k with
        | some c =>
          let m := c.held off n
          let cut : Bool := match r.2 with | .fault _ _ _ => decide (0 < m) && decide (m < n) && !s.overlaps c | _ => false
          if r.2 = .done ∨ cut then
            let n := if r.2 = .done then n else m
            let b := c.taken off n
            let w := r.1.engWrite c d.1 off b.1 b.2
            (w.1.engEnd c off w.2 fun s => s.modCopy k fun c => c.mark off n, n)
          else (r.1.engEnd c off r.2 id, n)
        | none => (r.1, n)

/-- A command has not written an offset and writes in the order of its cursor. -/
def State.standsAt (s : State) (k off : Nat) : Bool := match s.copyOf k with
  | some c => s.inOrder c && !c.wrote off
  | none => true

/-- The granules of a command from an offset up to another; one that writes in order goes no further than a granule that
waits (10 R302). -/
def State.copyRun (s : State) (k last : Nat) : Nat → Nat → State
  | 0, _ => s
  | f + 1, off =>
    if last ≤ off then s
    else
      let r := s.copyStep k off
      if r.2 = 0 || r.1.standsAt k off then r.1 else State.copyRun r.1 k last f (off + r.2)

/-- Source bytes of a command read ahead of their writes, a granule or more at a time (05 R149, R161), from an offset up to
another; the message block of a CPSEND follows its payload. -/
def State.fetchRun (s : State) (k off len : Nat) : State :=
  match s.copyOf k with
  | some c => if c.stopped then s
    else
      let most := c.op.total + match c.op with | .cpsend .. => 64 | _ => 0
      (s.fetch k (((List.range len).map (off + ·)).filter fun o => !c.wrote o && decide (o < most))).1
  | none => s

/-! ### Barrier words (10 R305 to R308, 02 R63) -/

/-- Where a barrier word lies: nothing where it may not lie. -/
inductive BarAt where
  | ok (pa : Nat)
  | refused
  | fault (cause : BitVec 8) (code : BitVec 16)
  deriving DecidableEq, Repr

/-- The home of a command's barrier word. -/
def State.barrierAt (s : State) (c : CopyCmd) (acc : Access) : State × BarAt :=
  let va := c.op.dstBase
  if c.loc va then
    let pa := s.engLocal c va
    ([0, 8, 16, 24].foldl (fun (s : State) i => s.flushFor c.cluster (pa + i)) s, .ok pa)
  else match s.translate c.tlb c.tid (s.copyLaunch c) va acc with
    | (s, .fault cause code) => (s, .fault cause code)
    | (s, .ok pa leaf) =>
      if !s.inWindow c va && (leafPeer leaf != 0 || (pa / spaceSize != 1 && pa / spaceSize != 2)) then (s, .refused)
      else ([0, 8, 16, 24].foldl (fun (s : State) i => s.flushFor c.cluster (pa + i)) s, .ok pa)

/-- CPBINIT's write of the whole word. -/
def State.barrierInit (s : State) (c : CopyCmd) (w0 w1 w2 : Word) : State :=
  match s.barrierAt c .write with
  | (s, .fault cause code) => s.faultCopy c cause code c.op.dstBase
  | (s, .refused) => s.refuseCopy c 0x09 5 c.op.dstBase
  | (s, .ok pa) =>
    if s.engDenied c pa then s else
    let s := [(0, w0), (8, w1), (16, w2), (24, wd c.lid)].foldl (fun s x =>
      s.homeWrite c.tid c.who.1 c.who.2 ⟨pa + x.1, 0xFF, some x.2⟩) s
    s.modCopy c.ident fun x => { x with st := .written, cursor := 32 }

/-- CUR of a barrier word's word 0. -/
def barCur (w : Word) : Nat := bits w 20 20

/-- A phase flip: PH inverted, CUR from NXT, NXT from EXP. -/
def barFlip (w : Word) : Word :=
  setBits (setBits (w ^^^ 0x8000000000000000#64) 20 20 (bits w 0 20)) 0 20 (bits w 40 20)

/-- An arrival of phase `p` (10 R307): the new word 0 and how many times it flips, or an overrun. -/
def barArrive (w : Word) (p : Bool) : Option (Word × Nat) :=
  let own : Bool := p == w.getLsbD 63
  let n := if own then barCur w else bits w 0 20
  if n = 0 then none
  else
    let w := if own then setBits w 20 20 (n - 1) else setBits w 0 20 (n - 1)
    if barCur w ≠ 0 then some (w, 0)
    else
      let w := barFlip w
      if barCur w ≠ 0 then some (w, 1) else some (barFlip w, 2)

/-- A started context of a launch, running or saved (16 R397, 18 R414): core `x.1`, context `x.2`. -/
def State.findPlace (s : State) (lid vc core x : Nat) : Option Nat :=
  match NatMap.find? s.launches lid with
  | none => none
  | some l =>
    let w := l.words.getD 8 0
    if bits w 8 3 < core ∨ w.getLsbD (12 + x) = false then none
    else match l.map[vc]? with
      | none => none
      | some p => match l.st with
        | .saved _ => some (savedId lid vc core x)
        | .running => some (ctxId p core x)

/-- A flag set in a context of a launch (09 R249); one it does not have is dropped. -/
def State.raiseFlag (s : State) (lid vc core x f : Nat) : State :=
  match s.findPlace lid vc core x with
  | some id => s.modCtx id fun c => c.setFlag f
  | none => s

/-- A flag set by a barrier flip: a running context that waits for it is READY with it (14 R383). -/
def State.flipFlag (s : State) (lid vc core x f : Nat) : State :=
  let s := s.raiseFlag lid vc core x f
  match s.findPlace lid vc core x with
  | some id => if id < 4096 then s.waitOver id else s
  | none => s

/-- The flags of a barrier word's subscribers. -/
def State.raiseFlags (s : State) (w1 w2 w3 : Word) : State :=
  (List.range (bits w2 8 8 + 1)).foldl (fun s v => (List.range 32).foldl (fun s i =>
    if w2.getLsbD (32 + i) then s.flipFlag (bits w3 0 16) (bits w2 0 8 + v) (i / 4) (i % 4) (bits w1 0 5) else s) s) s

/-- Whether a release command may run now (05 R158, 10 R299, R311): no earlier one of its kind, no earlier command, no
earlier load and no store short of its home. -/
def State.copyTurn (s : State) (c : CopyCmd) : Bool :=
  let x := s.getCtx c.cid
  s.copies.all (fun d => d.cid != c.cid || decide (c.num ≤ d.num)) &&
    x.q.lq.all (fun e => decide (c.qid < e.id) || (e.hold && c.handler)) && match c.op with
      | .cprel d _ sc => !s.inFlight c.cid (relScope (isLocal d) sc)
      | .cparr d _ sc => !s.inFlight c.cid (relScope (isLocal d) sc)
      | _ => true

/-- CPARR_APPLY: command `arg.a`. -/
def execCparrApply (s : State) : Out :=
  .next (match s.copyOf s.arg.a with
    | some c => match c.op with
      | .cparr va p _ =>
        if c.stopped ∨ !s.copyTurn c then s
        else match s.barrierAt c .rmw with
          | (s, .fault cause code) => s.faultCopy c cause code va
          | (s, .refused) => s.refuseCopy c 0x09 5 va
          | (s, .ok pa) =>
            if s.engDenied c pa then s else
            let s := [0, 8, 16, 24].foldl (fun s i => (s.visit (pa + i) false false).1) s
            match s.granule pa, s.granule (pa + 8), s.granule (pa + 16), s.granule (pa + 24) with
            | some w0, some w1, some w2, some w3 =>
              let s := s.watchHome pa 8 false c.tid c.who.1 c.who.2
              match barArrive w0 p with
              | none =>
                let x : Pending := ⟨barrierOverrunCause, 0, c.bundle, 0, c.handler⟩
                let s := s.modCtx c.cid fun y => { y with pend := y.pend ++ [x] }
                s.modCopy c.ident fun y => { y with st := .written }
              | some (w, n) =>
                let s := s.homeWrite c.tid c.who.1 c.who.2 ⟨pa, 0xFF, some w⟩
                let s := if n = 0 then s else s.raiseFlags w1 w2 w3
                s.modCopy c.ident fun y => { y with st := .written }
            | _, _, _, _ => s.portPoison c pa va
      | _ => s
    | none => s)

/-! ### Read-modify-writes at home units (02 R61, R62, 03 R102, 10 R301, R303) -/

/-- An element of `z` bytes as a granule write. -/
def elemGranule (pa z v : Nat) : Granule :=
  ⟨pa / 8 * 8, BitVec.ofNat 8 ((2 ^ z - 1) * 2 ^ (pa % 8)), some (BitVec.ofNat 64 (v * 2 ^ (8 * (pa % 8))))⟩

/-- The operands a swap request carries to a peer: the new value and, for CPCAS, the value to compare. -/
def CopyCmd.operands (c : CopyCmd) (pa : Nat) : List Granule :=
  match c.op with
  | .cpswap _ v _ => [⟨pa, 0xFF, some v⟩]
  | .cpcas _ v x _ => [⟨pa, 0xFF, some v⟩, ⟨pa + 8, 0xFF, some x⟩]
  | _ => []

/-- What an RMW request asks of a peer: the operation (6 a swap, 7 a compare and swap), and the element type with 4 more for a
versioned page. -/
def CopyCmd.rmwReq (c : CopyCmd) (leaf : Word) : Nat × Nat :=
  let v := (verReq leaf).2
  match c.op with
  | .cpacc _ _ _ op ety => (op, ety + v)
  | .cpswap .. => (6, v)
  | _ => (7, v)

/-- What an RMW made of one element: it goes on with the next one of the line, or ends there. -/
structure Rmw where
  s : State
  go : Bool

/-- A write of an RMW at its home: at once; on a page without SYSATOM, where `arg.flag` says so, only when the next act that is
not the host's comes (05 R166, log 69). On a page with SYSATOM the host's copy is recalled, or the line is taken, before. -/
def State.rmwWrite (s : State) (c : CopyCmd) (leaf : Word) (g : Granule) : State :=
  let host : Bool := g.addr / spaceSize == 0 || g.addr / spaceSize == 4
  if host && !leaf.getLsbD 10 && s.arg.flag then
    { s with openRmws := s.openRmws ++ [⟨c.tid, c.who.1, c.who.2, g, !leaf.getLsbD 8⟩] }
  else s.homeWrite c.tid c.who.1 c.who.2 g (!leaf.getLsbD 8)

/-- What SYSATOM asks of the host before an RMW: a back-invalidate of a cellar line, the line of host memory taken exclusive
(05 R166). -/
def State.askHost (s : State) (tid pa : Nat) (leaf : Word) : State :=
  if leaf.getLsbD 10 && pa / spaceSize == 0 then s.recall pa (.cxlSnoop pa)
  else if pa / spaceSize = 4 then (if leaf.getLsbD 10 then s.recall pa (.cxlTake pa) else s.send (.cxlRequest tid pa false))
  else s

/-- An element's RMW that is done: its bytes are counted, or its old value goes to its landing entry. -/
def State.rmwDone (s : State) (c : CopyCmd) (off z : Nat) (old : Nat) (upd : Bool) : State :=
  let s := match c.land with
    | some l => s.answer c.cid l (.value (wd old) true)
    | none => s
  s.modCopy c.ident fun x => if upd then x.mark off z else { x with st := .written }

/-- A read-modify-write of one element where it stands in memory: `f` gives the new value, nothing where none is written. -/
def State.rmwDirect (s : State) (c : CopyCmd) (va pa off z : Nat) (leaf : Word) (f : Nat → Option Nat) (upd : Bool) : Rmw :=
  if s.engDenied c pa then ⟨s, false⟩
  else
    let s := ((s.visit pa false (!leaf.getLsbD 8)).1).askHost c.tid pa leaf
    match s.granule pa with
    | none => ⟨s.portPoison c pa va, false⟩
    | some w =>
      let old := nbits w.toNat (8 * (pa % 8)) (8 * z)
      let s := s.watchHome pa z false c.tid c.who.1 c.who.2
      match f old with
      | none => ⟨s.rmwDone c off z old upd, true⟩
      | some v => ⟨(s.rmwWrite c leaf (elemGranule pa z v)).rmwDone c off z old upd, true⟩

/-- A read-modify-write of a versioned line outside a transaction waits for its stamp (03 R97): elements of one line that follow
one another by one entry. -/
def State.rmwQueue (s : State) (c : CopyCmd) (off pa : Nat) (op : AutoOp) (leaf : Word) : Rmw :=
  let mine (w : AutoWrite) : Bool := w.line == pa / 128 && match w.src, w.op with
    | .copy k o _, .update _ _ z l => k == c.ident && o + z * l.length == off
    | _, _ => false
  let add (w : AutoWrite) : AutoWrite := match w.op, op with
    | .update e o z l, .update _ _ _ m => { w with op := .update e o z (l ++ m) }
    | _, _ => w
  if s.autoQ.any mine then ⟨{ s with autoQ := s.autoQ.map fun w => if mine w then add w else w }, true⟩
  else ⟨{ s with autoQ := s.autoQ ++ [⟨pa / 128, op, .copy c.ident off 0, c.tid, !leaf.getLsbD 8, leaf.getLsbD 10⟩] }, true⟩

/-- A read-modify-write of one element at offset `off` of a command. -/
def State.rmwAt (s : State) (c : CopyCmd) (va off z : Nat) (f : Nat → Option Nat) (delta : Option (Nat × Nat × Nat))
    (op : Nat → AutoOp) : Rmw :=
  if c.loc c.op.dstBase then
    let pa := s.engLocal c va
    (s.flushFor c.cluster pa).rmwDirect c va pa off z 0 f delta.isSome
  else match s.translate c.tlb c.tid (s.copyLaunch c) va .rmw with
    | (s, .fault cause code) => ⟨if off = c.cursor then s.faultCopy c cause code va else s, false⟩
    | (s, .ok pa leaf) =>
      if leafPeer leaf ≠ 0 then
        if s.peerReqs.any fun q => q.who == .ack c.ident off z then ⟨s, false⟩
        else match s.askPeer c.hub (s.peerDev c.tid leaf) c.tid 3 pa z (c.operands pa) (.ack c.ident off z) (c.rmwReq leaf) with
          | .sent s => ⟨s, false⟩
          | .wait => ⟨s, false⟩
          | .fail => ⟨s.failCopy c.ident, false⟩
      else
        let s := s.flushFor c.cluster pa
        if leafVer leaf then
          match c.tx, delta with
          | some t, some (ety, o, v) =>
            if s.txPoison t pa ety o then
              ⟨(s.logError (memBank pa) 2 0x0008 true 1 pa none (memPlace pa true)).poisonPost c (memBank pa) va, false⟩
            else
              let s := if t = 16385 then s else
                (s.visitLine (pa / 128) false true).txDelta t pa ety o v (leaf.getLsbD 10)
              ⟨s.rmwDone c off z 0 true, true⟩
          | some t, none =>
            let s := (s.visit pa false (!leaf.getLsbD 8)).1
            match s.verGranule (if t = 16385 then 0 else srcTx t) pa with
            | none => ⟨s.portPoison c pa va, false⟩
            | some w =>
              let old := nbits w.toNat (8 * (pa % 8)) (8 * z)
              let s := match f old with
                | some v => if t = 16385 then s else s.txWrite t (pa / 128) [elemGranule pa z v]
                | none => s
              ⟨s.rmwDone c off z old false, true⟩
          | none, _ =>
            if s.cclk = clockEnd then ⟨if off = c.cursor then s.faultCopy c 0x09 5 va else s, false⟩
            else s.rmwQueue c off pa (op pa) leaf
        else s.rmwDirect c va pa off z leaf f delta.isSome

/-- One element of a CPACC in this package, at offset `off`, its source being read. -/
def State.accElement (s : State) (k off : Nat) : Rmw :=
  match s.copyOf k with
  | some c => match c.op with
    | .cpacc dst _ n op ety =>
      let z := etySize ety
      if c.stopped ∨ n ≤ off then ⟨s, false⟩
      else if c.wrote off then ⟨s, true⟩
      else
        let x := s.fetch k ((List.range z).map (off + ·))
        match x.2, x.1.copyOf k with
        | .done, some c =>
          let b := c.taken off z
          let v := (ofBytes 64 b.1).toNat
          if b.2 then
            if off ≠ c.cursor then ⟨x.1, false⟩
            else if c.loc dst then ⟨x.1.portPoison c (x.1.engLocal c (dst + off)) (dst + off), false⟩
            else match x.1.translate c.tlb c.tid (x.1.copyLaunch c) (dst + off) .rmw with
              | (s, .ok pa _) => ⟨s.portPoison c pa (dst + off), false⟩
              | (s, .fault cause code) => ⟨s.faultCopy c cause code (dst + off), false⟩
          else x.1.rmwAt c (dst + off) off z (fun o => some (rmwElem ety op o v)) (some (ety, op, v)) fun pa =>
            .update ety op z [(pa, v)]
        | e, _ => ⟨x.1.engEnd c off e id, false⟩
    | _ => ⟨s, false⟩
  | none => ⟨s, false⟩

/-- The elements of a CPACC from an offset up to the end of a line, in one access (02 R62). -/
def State.accLine (k last z : Nat) : Nat → Nat → State → State
  | 0, _, s => s
  | f + 1, off, s =>
    if last ≤ off then s
    else
      let r := s.accElement k off
      if r.go then State.accLine k last z f (off + z) r.s else r.s

/-- The elements of a CPACC for one line of a peer, in one request: those up to the first whose source is poison, or that one
alone, which goes as poison. -/
def State.accPeer (s : State) (c : CopyCmd) (dst off last z : Nat) (pa : Nat) (leaf : Word) : State :=
  let good := ((List.range ((last - off) / z)).takeWhile fun i => !(c.taken (off + z * i) z).2).length
  let n := z * max 1 good
  let b := (c.taken off n).1
  let words := (List.range ((n + 7) / 8)).map fun i =>
    (⟨pa + 8 * i, 0xFF, if good = 0 then none else some (ofBytes 64 ((b.drop (8 * i)).take 8))⟩ : Granule)
  let busy := s.peerReqs.any fun q => match q.who with
    | .ack k o l => k == c.ident && decide (o < off + n) && decide (off < o + l)
    | _ => false
  if busy then s
  else match s.askPeer c.hub (s.peerDev c.tid leaf) c.tid 3 pa n words (.ack c.ident off n) (c.rmwReq leaf) with
    | .sent s => s
    | .wait => s
    | .fail => if off = c.cursor then s.failCopy c.ident else s

/-- One line of a CPACC, that of the element at an offset: its sources are read first, so that the unit updates it in a single
access (02 R62); lines in any order (05 R161). -/
def State.accAt (s : State) (c : CopyCmd) (dst n off ety : Nat) : State :=
  let z := etySize ety
  let home := if c.loc dst then none else
    match (s.translate c.tlb c.tid (s.copyLaunch c) (dst + off) .rmw).2 with
    | .ok pa leaf => some (pa, leaf)
    | .fault _ _ => none
  let l := match home with
    | some (pa, _) => if pa / spaceSize = 0 then 128 else 64
    | none => 64
  let lo := max 0 ((dst + off) / l * l - dst)
  let last := min n ((dst + off) / l * l + l - dst)
  match ((List.range ((last - lo) / z)).map fun i => lo + z * i).find? fun o => !c.wrote o with
  | none => s
  | some first =>
    let r := s.fetch c.ident (((List.range (last - first)).map (first + ·)).filter fun o => !c.wrote o)
    match r.2, r.1.copyOf c.ident, home with
    | .wait, _, _ => r.1
    | .done, some c, some (pa, leaf) =>
      if leafPeer leaf ≠ 0 then r.1.accPeer c dst first last z (pa + first - off) leaf
      else State.accLine c.ident last z 64 first r.1
    | _, _, _ => State.accLine c.ident last z 64 first r.1

/-- HOME_UNIT_RMW: command `arg.a`, one line of a CPACC, that of offset `arg.b` or, where it is 0, of its cursor; or the one element
of a CPSWAP or CPCAS; `arg.flag` as `State.rmwWrite` has it. -/
def execHomeUnitRmw (s : State) : Out :=
  .next (match s.copyOf s.arg.a with
    | some c =>
      if c.stopped || s.rmwWaits c || (c.fw && s.halted) then s
      else match c.op with
        | .cpacc dst _ n _ ety =>
          let z := etySize ety
          let off := if s.arg.b = 0 then c.cursor else s.arg.b / z * z
          if n ≤ off then s else s.accAt c dst n off ety
        | .cpswap dst v w =>
          let z := if w then 8 else 4
          let v := v.toNat % 2 ^ (8 * z)
          (s.rmwAt c dst 0 z (fun _ => some v) none fun pa => .swap pa z v none).s
        | .cpcas dst v x w =>
          let z := if w then 8 else 4
          let v := v.toNat % 2 ^ (8 * z)
          let x := x.toNat % 2 ^ (8 * z)
          (s.rmwAt c dst 0 z (fun o => if o = x then some v else none) none fun pa => .swap pa z v (some x)).s
        | _ => s
    | none => s)

/-- The RMWs that have read and not yet written write (05 R166). -/
def State.closeRmws (s : State) : State :=
  s.openRmws.foldl (fun s r => s.homeWrite r.tid r.kind r.agent r.w r.alloc) { s with openRmws := [] }

/-! ### Sends, completion words, progress (02 R72, 10 R304, R311, R312) -/

/-- The target context of a CPSEND, if it may receive: of the sender's launch and not retired. -/
def State.sendTarget (s : State) (c : CopyCmd) (w : Word) : Option Nat :=
  match s.findPlace c.lid (bits w 8 8) (bits w 4 3) (bits w 0 2) with
  | some id => if (s.getCtx id).st = .retired then none else some id
  | none => none

/-- A nonzero reserved bit of a CPSEND descriptor. -/
def sendReserved (w place : Word) : Bool :=
  w &&& 0xFFFFFFFFFFFF008C#64 != 0 || place &&& 0xFF000000FF000000#64 != 0

/-- CPSEND_DELIVERY: command `arg.a`, its payload written, enters the target core's arrival queue; with no target it is
reported and completes; with no room, or a saved target, it waits. -/
def execCpsendDelivery (s : State) : Out :=
  .next (match s.copyOf s.arg.a with
    | some c => match c.op with
      | .cpsend w h _ place _ =>
        let n := bits place 32 24
        if c.st ≠ .running ∧ c.st ≠ .arrivalWait then s
        else if sendReserved w place then s.refuseCopy c 0 0 0
        else match s.sendTarget c w with
          | none =>
            let s := s.copyPost c 4 0 0 0 c.lid
            s.modCopy c.ident fun x => { x with st := .written }
          | some id =>
            if c.cursor < n then s
            else if 4096 ≤ id then s.modCopy c.ident fun x => { x with st := .arrivalWait }
            else
              let r := s.fetch c.ident ((List.range 64).map (n + ·))
              match r.2, r.1.copyOf c.ident with
              | .done, some c =>
                let s := r.1
                let k := s.getCore (id / 4)
                if 8 ≤ k.arrivals.length then s.modCopy c.ident fun x => { x with st := .arrivalWait }
                else
                  let poison : BitVec 8 := (List.range 8).foldl (fun m i =>
                    if (c.taken (n + 8 * i) 8).2 then m ||| (1#8 <<< i) else m) 0
                  let a : Arrival := ⟨id, wd (s.getCtx c.cid).src, wd (bits place 0 24), wd n,
                    ofBytes 512 (c.taken n 64).1, poison, h⟩
                  let s := s.setCore (id / 4) { k with arrivals := k.arrivals ++ [a] }
                  s.modCopy c.ident fun x => { x with st := .written }
              | e, _ => r.1.engEnd c c.cursor e fun s => s
      | _ => s
    | none => s)

/-- CPREL_WRITE: command `arg.a` writes its word with CFAIL in bit 63 and clears CFAIL; a word sent to a peer has it from then on,
also where it must be sent again (10 R311). -/
def execCprelWrite (s : State) : Out :=
  .next (match s.copyOf s.arg.a with
    | some c => match c.op with
      | .cprel va v _ =>
        let sent (s : State) : Bool := s.peerReqs.any fun r => r.who == .ack c.ident 0 8
        let clear (s : State) : State := s.modCtx c.cid fun x => { x with cfail := false }
        if c.stopped || s.halted || !s.copyTurn c || sent s then s
        else
          let fail := (s.getCtx c.cid).cfail
          let w := if fail then v ||| 0x8000000000000000#64 else v
          let r := s.engWrite c va 0 (valBytes w 8) false
          let carry (x : CopyCmd) : CopyCmd := { x with op := match x.op with | .cprel d _ sc => .cprel d w sc | o => o }
          if sent r.1 then (clear r.1).modCopy c.ident carry
          else r.1.engEnd c 0 r.2 fun s => (clear s).modCopy c.ident fun x => { carry x with st := .written, cursor := 8 }
      | _ => s
    | none => s)

/-- The incomplete commands of a context, oldest first, CPSTAT's own number left out. -/
def State.oldestCopy (s : State) (cid num : Nat) : Option CopyCmd :=
  let x := s.getCtx cid
  let q := (x.q.csq ++ x.q.sq).filterMap fun e => match e.kind with | .cmd c => some c | _ => none
  ((s.copies.filter fun c => c.cid == cid) ++ x.q.copyq ++ q).foldl (fun (a : Option CopyCmd) c =>
    if c.num = num then a
    else match a with
      | some b => if c.num < b.num then some c else some b
      | none => some c) none

/-- CPSTAT's word (10 R312). -/
def State.statWord (s : State) (c : CopyCmd) : Word :=
  let idle := if (s.getCtx c.cid).cfail then 3 else 0
  let early := match s.oldestCopy c.cid c.num with
    | some b => if b.num < c.num then some b else none
    | none => none
  match early with
  | none => wd (idle * 2 ^ 62 + (c.num - 1) % 2 ^ 32)
  | some b =>
    let st := match b.st with
      | .arrivalWait => 1
      | .faulted _ _ _ => 2
      | _ => idle
    wd (st * 2 ^ 62 + min (s.progressOf b) 0x3FFFFFFF * 2 ^ 32 + (b.num - 1) % 2 ^ 32)

/-- A command has made its last write and every write has performed at its home (10 R300, 05 R161). One numbered from 16,384 up
only reads for a command processor, which ends it itself. -/
def State.copyDone (s : State) (c : CopyCmd) : Bool :=
  let last : Bool := c.st == .written || (c.st == .running && match c.op with
    | .cpy _ _ n => decide (n ≤ c.cursor)
    | .cpys _ _ len rows _ _ => decide (len * rows ≤ c.cursor)
    | .cpacc _ _ n _ _ => decide (n ≤ c.cursor)
    | .cpfill _ _ _ n => decide (n ≤ c.cursor)
    | .cpstat => s.copies.all fun d => d.cid != c.cid || decide (c.num ≤ d.num) || match d.op with
      | .cprel _ _ _ => false
      | .cparr _ _ _ => false
      | .cpstat => false
      | _ => true
    | _ => false)
  last && decide (c.ident < 16384) && decide (c.stamp ≤ s.pclk) && !s.rmwWaits c &&
    s.peerReqs.all fun r => match r.who with
      | .copy k _ _ => k != c.ident
      | .ack k _ _ => k != c.ident
      | _ => true

/-- The command a queue has started and not finished is done, with its failure code (16 R392). -/
def State.endCommand (s : State) (q code : Nat) : State :=
  let w := NatMap.get .reset s.queues q
  let rec mark : List Command → List Command
    | [] => []
    | c :: cs => if c.started && !c.done && c.launch.isNone then { c with done := true, fail := code } :: cs else c :: mark cs
  { s with queues := NatMap.set .reset s.queues q { w with cmds := mark w.cmds } }

/-- COPY_COMPLETE: command `arg.a`. -/
def execCopyComplete (s : State) : Out :=
  .next (match s.copyOf s.arg.a with
    | some c =>
      if !s.copyDone c || s.halted then s
      else
        let s := match c.op, c.land with
          | .cpstat, some l => s.answer c.cid l (.value (s.statWord c) true)
          | _, _ => s
        let s : State := { s with
          copies := s.copies.filter fun d => d.ident != c.ident
          colls := s.colls.map fun x => if x.ident = c.ident then { x with bad := true } else x }
        if c.fw then s.endCommand (c.ident - 8192) (if c.failed then 3 else 0) else s
    | none => s)

/-- Part of a copy: `len` bytes of command `k` from an offset on; the whole word of a CPBINIT. -/
def State.copyPart (s : State) (k off len : Nat) : State :=
  match s.copyOf k with
  | none => s
  | some c =>
    if c.stopped || (c.fw && s.halted) then s
    else match c.op with
      | .cpbinit _ w0 w1 w2 => s.barrierInit c w0 w1 w2
      | .cpy _ _ _ => s.copyRun k (off + len) len off
      | .cpys _ _ _ _ _ _ => s.copyRun k (off + len) len (if s.inOrder c then c.cursor else off)
      | .cpfill _ _ _ _ => s.copyRun k (off + len) len off
      | .cpsend w _ _ place _ =>
        if sendReserved w place then s
        else match s.sendTarget c w with
          | some _ => s.copyRun k (off + len) len off
          | none => s
      | _ => s

end Sys2Proof.Machine
end

