-- ==== Sys2Proof/Machine/Weights.lean ====
section
/-! DEFINITION. What an instruction costs and touches: its maximum weight (07 R213), the queue entries it needs (10 R282, 09
R258, 05 R157), and the registers it reads and writes beside its predicate (07 R203, 19 R433). -/

namespace Sys2Proof.Machine

/-- The lane groups a word names. -/
def gcount (g : BitVec 8) : Nat := popCount g

/-- The maximum weight of a word in wu (07 R213, 13 R364); events weigh nothing. -/
def instrWeight : Instr → Nat
  | .nop => 0
  | .br _ => 4
  | .br64 _ => 4
  | .bri _ => 4
  | .call _ => 4
  | .call64 _ => 4
  | .calli _ => 4
  | .ret => 4
  | .lexit => 4
  | .wait _ _ => 4
  | .yield _ => 4
  | .retire => 4
  | .fmtset _ => 4
  | .fmtset64 _ => 4
  | .balset _ => 4
  | .walset _ => 4
  | .opset _ => 4
  | .gjoin _ _ _ => 4
  | .gleave => 4
  | .vjoin => 4
  | .qmark _ => 4
  | .fence _ => 4
  | .fencep _ => 4
  | .trap _ => 4
  | .eret => 4
  | .sysc _ _ => 4
  | .crd _ _ => 4
  | .cwr _ _ => 4
  | .bkpt => 4
  | .add _ _ _ => 4
  | .sub _ _ _ => 4
  | .and _ _ _ => 4
  | .or _ _ _ => 4
  | .xor _ _ _ => 4
  | .andn _ _ _ => 4
  | .shl _ _ _ => 4
  | .shr _ _ _ => 4
  | .sar _ _ _ => 4
  | .rol _ _ _ => 4
  | .min _ _ _ => 4
  | .max _ _ _ => 4
  | .minn _ _ _ => 4
  | .maxn _ _ _ => 4
  | .addi _ _ _ => 4
  | .addi64 _ _ _ => 4
  | .clz _ _ => 4
  | .ctz _ _ => 4
  | .popc _ _ => 4
  | .mov _ _ => 4
  | .bfx _ _ _ _ => 4
  | .bfxs _ _ _ _ => 4
  | .bfi _ _ _ _ => 4
  | .sel _ _ _ _ => 4
  | .movi _ _ => 4
  | .movi64 _ _ => 4
  | .addx _ _ _ _ => 4
  | .addx64 _ _ _ _ _ => 4
  | .cmp _ _ _ _ => 4
  | .cmp64 _ _ _ _ => 4
  | .cmpi _ _ _ _ => 4
  | .cmpi64 _ _ _ _ => 4
  | .fcmp _ _ _ _ => 4
  | .fcmp64 _ _ _ _ => 4
  | .aird _ _ _ => 4
  | .aiwr _ _ _ => 4
  | .pand _ _ _ _ _ => 4
  | .por _ _ _ _ _ => 4
  | .pxor _ _ _ _ _ => 4
  | .pandn _ _ _ _ _ => 4
  | .pnot _ _ _ _ => 4
  | .pmov _ _ _ _ => 4
  | .psetk _ _ _ _ => 4
  | .pcnt _ _ _ => 4
  | .pfirst _ _ _ => 4
  | .pktom _ _ _ => 4
  | .loop _ _ _ _ _ => 8
  | .loopn _ _ _ _ _ _ _ _ => 8
  | .txbegin _ => 8
  | .txcommit _ _ _ => 8
  | .txabort => 8
  | .snapnew _ _ _ => 8
  | .snapset _ _ _ => 8
  | .snapdrop _ _ _ => 8
  | .mul _ _ _ => 8
  | .mulh _ _ _ => 8
  | .mulhn _ _ _ => 8
  | .fadd _ _ _ => 8
  | .fsub _ _ _ => 8
  | .fmul _ _ _ => 8
  | .fmin _ _ _ => 8
  | .fmax _ _ _ => 8
  | .cvtf _ _ _ _ => 8
  | .ld _ _ _ => 8
  | .ld64 _ _ _ _ _ => 8
  | .ldacq _ _ _ => 8
  | .ldacq64 _ _ _ _ _ _ => 8
  | .pref _ _ _ => 8
  | .st _ _ _ => 8
  | .st64 _ _ _ _ => 8
  | .strel _ _ _ => 8
  | .strel64 _ _ _ _ _ => 8
  | .scale _ _ _ _ => 8
  | .scx _ _ _ => 8
  | .sckey _ => 8
  | .vand _ _ _ => 8
  | .vand64 _ _ _ => 8
  | .vor _ _ _ => 8
  | .vor64 _ _ _ => 8
  | .vxor _ _ _ => 8
  | .vxor64 _ _ _ => 8
  | .vnot _ _ => 8
  | .vnot64 _ _ => 8
  | .vshl _ _ _ _ => 8
  | .vshl64 _ _ _ _ => 8
  | .vshr _ _ _ _ => 8
  | .vshr64 _ _ _ _ => 8
  | .vsar _ _ _ _ => 8
  | .vsar64 _ _ _ _ => 8
  | .vcmp _ _ _ _ => 8
  | .vcmp64 _ _ _ _ _ _ => 8
  | .vicmp _ _ _ _ => 8
  | .vicmp64 _ _ _ _ _ _ => 8
  | .vsel _ _ _ _ => 8
  | .vmov _ _ => 8
  | .vmov64 _ _ => 8
  | .vsplat _ _ _ => 8
  | .vsplat64 _ _ _ => 8
  | .viota _ _ _ _ _ => 8
  | .div _ _ _ => 24
  | .divn _ _ _ => 24
  | .rem _ _ _ => 24
  | .remn _ _ _ => 24
  | .cpcoll _ => 24
  | .vadd _ _ _ _ => 24
  | .vadd64 _ _ _ _ => 24
  | .vsub _ _ _ _ => 24
  | .vsub64 _ _ _ _ => 24
  | .vmul _ _ _ _ => 24
  | .vmul64 _ _ _ _ => 24
  | .vmin _ _ _ _ => 24
  | .vmin64 _ _ _ _ => 24
  | .vmax _ _ _ _ => 24
  | .vmax64 _ _ _ _ => 24
  | .vabs _ _ _ => 24
  | .vabs64 _ _ _ => 24
  | .vneg _ _ _ => 24
  | .vneg64 _ _ _ => 24
  | .vimul _ _ _ _ => 24
  | .vimul64 _ _ _ _ => 24
  | .vredadd _ _ _ _ => 24
  | .vredadd64 _ _ _ _ => 24
  | .vcvt _ _ _ _ _ _ _ => 24
  | .vspcomp _ _ _ _ _ => 24
  | .vblkscl _ _ _ _ _ _ => 24
  | .ffma _ _ _ _ => 12
  | .ldl _ _ _ _ _ _ => 12
  | .ldacqLong _ _ _ _ _ _ _ => 12
  | .viadd _ _ _ _ => 12
  | .viadd64 _ _ _ _ => 12
  | .visub _ _ _ _ => 12
  | .visub64 _ _ _ _ => 12
  | .vimin _ _ _ _ => 12
  | .vimin64 _ _ _ _ => 12
  | .vimax _ _ _ _ => 12
  | .vimax64 _ _ _ _ => 12
  | .vpack _ _ _ _ => 12
  | .vunpk _ _ _ _ _ _ => 12
  | .rng _ => 16
  | .vld _ _ _ => 16
  | .vldb _ _ _ => 16
  | .vst _ _ _ => 16
  | .vstm _ _ _ => 16
  | .amode _ _ _ _ => 16
  | .aknot _ _ => 16
  | .cpy _ _ _ _ => 16
  | .cpys _ _ _ => 16
  | .cpacc _ _ _ _ _ _ => 16
  | .cpswap _ _ _ _ _ => 16
  | .cpcas _ _ _ _ _ _ => 16
  | .cpsend _ => 16
  | .cpfill _ _ _ _ => 16
  | .cpbinit _ _ => 16
  | .cparr _ _ _ _ => 16
  | .cprel _ _ _ => 16
  | .cpstat _ _ => 16
  | .vperm _ _ _ _ => 16
  | .vperm64 _ _ _ _ => 16
  | .vredmax _ _ _ _ => 16
  | .vredmax64 _ _ _ => 16
  | .vredmin _ _ _ _ => 16
  | .vredmin64 _ _ _ => 16
  | .vcompress _ _ _ _ => 16
  | .vcompress64 _ _ _ _ _ => 16
  | .vexpand _ _ _ _ => 16
  | .vexpand64 _ _ _ _ _ => 16
  | .vld64 _ _ _ g => 8 + 8 * gcount g
  | .vldb64 _ _ _ g => 8 + 8 * gcount g
  | .tld _ _ g _ _ _ _ => 8 + 8 * gcount g
  | .vst64 _ _ _ g => 8 + 8 * gcount g
  | .tst _ _ g _ _ => 8 + 8 * gcount g
  | .vldl _ _ g _ _ => 12 + 8 * gcount g
  | .vldx _ _ _ g _ _ => 16 + 16 * gcount g
  | .vstx _ _ _ g _ _ => 16 + 16 * gcount g
  | .vstm64 _ _ _ _ l => 8 + 8 * (if l.toNat = 8 then 8 else 1)
  | .ald _ _ _ _ _ => 128
  | .alds _ _ _ _ _ => 128
  | .aextend _ _ => 128
  | .aouts _ _ _ _ _ _ _ => 128
  | .aswap => 32
  | .aoog _ _ => 32
  | .agout _ _ _ _ _ => 32
  | .acout _ _ _ _ _ => 32
  | .vfma _ _ _ _ _ => 32
  | .vfms _ _ _ _ _ => 32
  | .vxcp _ _ _ => 32
  | .vxcp64 _ _ _ => 32
  | .vscan _ _ _ _ => 32
  | .vscan64 _ _ _ _ => 32
  | .vrng _ _ => 32
  | .azero _ => 64
  | .amm _ _ _ _ _ _ w _ _ _ => if w = 2 then 448 else 512
  | .amms _ _ _ _ _ _ _ _ _ _ => 544
  | .aeval _ _ _ _ _ => 640
  | .abwd _ _ _ _ _ _ => 640
  | .agrad _ _ _ _ _ => 704
  | .aupd _ _ => 384
  | .arefine => 256
  | .aout _ _ _ _ _ _ _ => 96
  | .vrcp _ _ _ => 40
  | .vrcp64 _ _ _ => 40
  | .vrsq _ _ _ => 40
  | .vrsq64 _ _ _ => 40
  | .vsqrt _ _ _ => 40
  | .vsqrt64 _ _ _ => 40
  | .vexp2 _ _ _ => 40
  | .vexp264 _ _ _ => 40
  | .vlog2 _ _ _ => 40
  | .vlog264 _ _ _ => 40
  | .vsin _ _ _ => 48
  | .vsin64 _ _ _ => 48
  | .vcos _ _ _ => 48
  | .vcos64 _ _ _ => 48
  | .vtanh _ _ _ => 48
  | .vtanh64 _ _ _ => 48
  | .vsigm _ _ _ => 48
  | .vsigm64 _ _ _ => 48
  | .vsilu _ _ _ => 48
  | .vsilu64 _ _ _ => 48
  | .vrnd _ _ _ _ _ => 20
  | _ => 0

/-- The entries a word whose predicate is true needs: load queue, store queue, landing buffer, copy-command queue (10
R282, 09 R258; a QMARK stands in both queues, 05 R151). -/
def instrNeeds : Instr → Nat × Nat × Nat × Nat
  | .qmark _ => (1, 1, 0, 0)
  | .txbegin _ => (0, 1, 1, 0)
  | .txcommit _ _ _ => (0, 1, 1, 0)
  | .snapnew _ _ _ => (0, 1, 1, 0)
  | .snapset _ _ _ => (0, 1, 1, 0)
  | .snapdrop _ _ _ => (0, 1, 1, 0)
  | .ld _ _ _ => (1, 0, 0, 0)
  | .ld64 _ _ _ _ _ => (1, 0, 0, 0)
  | .ldacq _ _ _ => (1, 0, 0, 0)
  | .ldacq64 _ _ _ _ _ _ => (1, 0, 0, 0)
  | .ldl _ _ _ _ _ _ => (1, 0, 1, 0)
  | .ldacqLong _ _ _ _ _ _ _ => (1, 0, 1, 0)
  | .vld _ _ _ => (1, 0, 0, 0)
  | .vld64 _ _ _ _ => (1, 0, 0, 0)
  | .vldl _ _ _ _ _ => (1, 0, 1, 0)
  | .vldb _ _ _ => (1, 0, 0, 0)
  | .vldb64 _ _ _ _ => (1, 0, 0, 0)
  | .vldx _ _ _ _ _ _ => (1, 0, 0, 0)
  | .tld _ _ _ _ _ _ _ => (1, 0, 0, 0)
  | .st _ _ _ => (0, 1, 0, 0)
  | .st64 _ _ _ _ => (0, 1, 0, 0)
  | .strel _ _ _ => (0, 1, 0, 0)
  | .strel64 _ _ _ _ _ => (0, 1, 0, 0)
  | .vst _ _ _ => (0, 1, 0, 0)
  | .vst64 _ _ _ _ => (0, 1, 0, 0)
  | .vstm _ _ _ => (0, 1, 0, 0)
  | .vstm64 _ _ _ _ _ => (0, 1, 0, 0)
  | .vstx _ _ _ _ _ _ => (0, 1, 0, 0)
  | .tst _ _ _ _ _ => (0, 1, 0, 0)
  | .cpy _ _ _ _ => (0, 1, 0, 1)
  | .cpys _ _ _ => (0, 1, 0, 1)
  | .cpacc _ _ _ _ _ _ => (0, 1, 0, 1)
  | .cpswap _ _ _ _ _ => (0, 1, 1, 1)
  | .cpcas _ _ _ _ _ _ => (0, 1, 1, 1)
  | .cpsend _ => (0, 1, 0, 1)
  | .cpfill _ _ _ _ => (0, 1, 0, 1)
  | .cpbinit _ _ => (0, 1, 0, 1)
  | .cparr _ _ _ _ => (0, 1, 0, 1)
  | .cpcoll _ => (0, 1, 0, 1)
  | .cprel _ _ _ => (0, 1, 0, 1)
  | .cpstat _ _ => (0, 1, 1, 1)
  | _ => (0, 0, 0, 0)

/-- A scalar register as the word at hand names it. -/
def State.srcS (s : State) (n : Nat) : Dst := .sreg (s.sname n)

/-- What a BASE field reads: a scalar register or every field of an iterator. -/
def State.srcBase (s : State) (limit b : Nat) : List Dst :=
  if b < limit then [s.srcS b] else (List.range 6).map fun f => .iter (b - limit) f

/-- One register in each lane group a word names. -/
def State.srcG (_ : State) (g : BitVec 8) (r : Nat) : List Dst := (groups g.toNat).map fun k => .vreg k r

/-- The step a class A word runs: the next one of the pass where it repeats, else 0 (13 R351). -/
def State.passStep (s : State) : Nat :=
  if s.issue.held then (match s.core.array.pass with | some p => p.k | none => 0) else 0

/-- The registers a word reads beside its predicate, as it names them now. -/
def State.sources (σ : State) : Instr → List Dst
  | .bri s => [σ.srcS s.toNat]
  | .calli s => [σ.srcS s.toNat]
  | .ret => [.sreg 47]
  | .loop _ _ n _ _ => [σ.srcS n.toNat]
  | .loopn _ _ n0 n1 n2 n3 _ _ => [σ.srcS n0.toNat] ++ [σ.srcS n1.toNat] ++ [σ.srcS n2.toNat] ++ [σ.srcS n3.toNat]
  | .fmtset r => [σ.srcS r.toNat]
  | .snapset s _ _ => [σ.srcS s.toNat]
  | .snapdrop s _ _ => [σ.srcS s.toNat]
  | .sysc _ _ => [.sreg 8, .sreg 9, .sreg 10, .sreg 11]
  | .cwr s _ => [σ.srcS s.toNat]
  | .add _ a b => [σ.srcS a.toNat] ++ [σ.srcS b.toNat]
  | .sub _ a b => [σ.srcS a.toNat] ++ [σ.srcS b.toNat]
  | .mul _ a b => [σ.srcS a.toNat] ++ [σ.srcS b.toNat]
  | .mulh _ a b => [σ.srcS a.toNat] ++ [σ.srcS b.toNat]
  | .mulhn _ a b => [σ.srcS a.toNat] ++ [σ.srcS b.toNat]
  | .div _ a b => [σ.srcS a.toNat] ++ [σ.srcS b.toNat]
  | .divn _ a b => [σ.srcS a.toNat] ++ [σ.srcS b.toNat]
  | .rem _ a b => [σ.srcS a.toNat] ++ [σ.srcS b.toNat]
  | .remn _ a b => [σ.srcS a.toNat] ++ [σ.srcS b.toNat]
  | .and _ a b => [σ.srcS a.toNat] ++ [σ.srcS b.toNat]
  | .or _ a b => [σ.srcS a.toNat] ++ [σ.srcS b.toNat]
  | .xor _ a b => [σ.srcS a.toNat] ++ [σ.srcS b.toNat]
  | .andn _ a b => [σ.srcS a.toNat] ++ [σ.srcS b.toNat]
  | .shl _ a b => [σ.srcS a.toNat] ++ [σ.srcS b.toNat]
  | .shr _ a b => [σ.srcS a.toNat] ++ [σ.srcS b.toNat]
  | .sar _ a b => [σ.srcS a.toNat] ++ [σ.srcS b.toNat]
  | .rol _ a b => [σ.srcS a.toNat] ++ [σ.srcS b.toNat]
  | .min _ a b => [σ.srcS a.toNat] ++ [σ.srcS b.toNat]
  | .max _ a b => [σ.srcS a.toNat] ++ [σ.srcS b.toNat]
  | .minn _ a b => [σ.srcS a.toNat] ++ [σ.srcS b.toNat]
  | .maxn _ a b => [σ.srcS a.toNat] ++ [σ.srcS b.toNat]
  | .addi _ a _ => [σ.srcS a.toNat]
  | .addi64 _ a _ => [σ.srcS a.toNat]
  | .clz _ a => [σ.srcS a.toNat]
  | .ctz _ a => [σ.srcS a.toNat]
  | .popc _ a => [σ.srcS a.toNat]
  | .mov _ a => [σ.srcS a.toNat]
  | .bfx _ a _ _ => [σ.srcS a.toNat]
  | .bfxs _ a _ _ => [σ.srcS a.toNat]
  | .bfi d a _ _ => [σ.srcS a.toNat] ++ [σ.srcS d.toNat]
  | .sel _ a b k => [σ.srcS a.toNat] ++ [σ.srcS b.toNat] ++ [.kreg k.toNat]
  | .addx _ a b _ => [σ.srcS a.toNat] ++ [σ.srcS b.toNat]
  | .addx64 _ a b _ _ => [σ.srcS a.toNat] ++ [σ.srcS b.toNat]
  | .cmp _ a b _ => [σ.srcS a.toNat] ++ [σ.srcS b.toNat]
  | .cmp64 _ a b _ => [σ.srcS a.toNat] ++ [σ.srcS b.toNat]
  | .cmpi _ a _ _ => [σ.srcS a.toNat]
  | .cmpi64 _ a _ _ => [σ.srcS a.toNat]
  | .fadd _ a b => [σ.srcS a.toNat] ++ [σ.srcS b.toNat]
  | .fsub _ a b => [σ.srcS a.toNat] ++ [σ.srcS b.toNat]
  | .fmul _ a b => [σ.srcS a.toNat] ++ [σ.srcS b.toNat]
  | .ffma _ a b c => [σ.srcS a.toNat] ++ [σ.srcS b.toNat] ++ [σ.srcS c.toNat]
  | .fmin _ a b => [σ.srcS a.toNat] ++ [σ.srcS b.toNat]
  | .fmax _ a b => [σ.srcS a.toNat] ++ [σ.srcS b.toNat]
  | .fcmp _ a b _ => [σ.srcS a.toNat] ++ [σ.srcS b.toNat]
  | .fcmp64 _ a b _ => [σ.srcS a.toNat] ++ [σ.srcS b.toNat]
  | .cvtf _ a _ _ => [σ.srcS a.toNat]
  | .aird _ j f => [.iter j.toNat f.toNat]
  | .aiwr s _ _ => [σ.srcS s.toNat]
  | .ld _ b _ => σ.srcBase 48 b.toNat
  | .ld64 _ b _ _ _ => σ.srcBase 64 b.toNat
  | .ldacq _ b _ => σ.srcBase 48 b.toNat
  | .ldacq64 _ b _ _ _ _ => σ.srcBase 64 b.toNat
  | .ldl _ b _ _ _ _ => σ.srcBase 64 b.toNat
  | .ldacqLong _ b _ _ _ _ _ => σ.srcBase 64 b.toNat
  | .vld _ b _ => σ.srcBase 48 b.toNat
  | .vld64 _ b _ _ => σ.srcBase 64 b.toNat
  | .vldl _ b _ _ _ => σ.srcBase 64 b.toNat
  | .vldb _ b _ => σ.srcBase 48 b.toNat
  | .vldb64 _ b _ _ => σ.srcBase 64 b.toNat
  | .vldx _ x b g _ m => σ.srcBase 64 b.toNat ++ σ.srcG g x.toNat ++ ((groups g.toNat).map fun k => .mreg k m.toNat)
  | .tld _ b _ _ _ _ _ => σ.srcBase 64 b.toNat
  | .pref _ b _ => σ.srcBase 48 b.toNat
  | .st d b _ => σ.srcBase 48 b.toNat ++ [σ.srcS d.toNat]
  | .st64 d b _ _ => σ.srcBase 64 b.toNat ++ [σ.srcS d.toNat]
  | .strel d b _ => σ.srcBase 48 b.toNat ++ [σ.srcS d.toNat]
  | .strel64 d b _ _ _ => σ.srcBase 64 b.toNat ++ [σ.srcS d.toNat]
  | .vst d b _ => σ.srcBase 48 b.toNat ++ [.vreg 0 (σ.vwin d.toNat)]
  | .vst64 d b _ g => σ.srcBase 64 b.toNat ++ σ.srcG g d.toNat
  | .vstm d b _ => σ.srcBase 48 b.toNat ++ [.vreg 0 (σ.vwin d.toNat)] ++ [.mreg 0 1]
  | .vstm64 d b _ m l => σ.srcBase 64 b.toNat ++ ((if l.toNat = 8 then List.range 8 else [l.toNat]).flatMap fun k => [.vreg k d.toNat, .mreg k m.toNat])
  | .vstx d x b g _ m => σ.srcBase 64 b.toNat ++ σ.srcG g x.toNat ++ ((groups g.toNat).map fun k => .mreg k m.toNat) ++ σ.srcG g d.toNat
  | .tst d b g _ r => σ.srcBase 64 b.toNat ++ ((List.range (r.toNat + 1)).flatMap fun i => σ.srcG g (d.toNat + i))
  | .ald b _ _ _ _ => σ.srcBase 64 b.toNat
  | .alds b _ _ _ _ => σ.srcBase 64 b.toNat
  | .amm b _ _ _ _ _ _ l _ z => σ.srcBase 64 b.toNat ++ (if l = 1 then σ.srcBase 64 z.toNat else [])
  | .amms b _ _ _ _ _ _ l _ z => σ.srcBase 64 b.toNat ++ (if l = 1 then σ.srcBase 64 z.toNat else [])
  | .aeval b _ _ _ _ => σ.srcBase 64 b.toNat
  | .abwd b _ z _ _ _ => σ.srcBase 64 b.toNat ++ σ.srcBase 64 z.toNat
  | .agrad b _ z _ _ => σ.srcBase 64 b.toNat ++ σ.srcBase 64 z.toNat
  | .aupd a _ => [σ.srcS a.toNat]
  | .aknot b _ => σ.srcBase 48 b.toNat
  | .aout _ _ _ _ m _ _ => [σ.srcS m.toNat]
  | .aouts b _ _ _ m _ _ => σ.srcBase 64 b.toNat ++ [σ.srcS m.toNat]
  | .scale a _ _ _ => [σ.srcS a.toNat]
  | .scx a _ _ => [σ.srcS a.toNat]
  | .sckey a => [σ.srcS a.toNat]
  | .cpy b a r _ => [σ.srcS b.toNat] ++ [σ.srcS a.toNat] ++ [σ.srcS r.toNat]
  | .cpys b a r => [σ.srcS b.toNat] ++ [σ.srcS a.toNat] ++ [σ.srcS r.toNat] ++ [σ.srcS (r.toNat + 1)]
  | .cpacc b a r _ _ _ => [σ.srcS b.toNat] ++ [σ.srcS a.toNat] ++ [σ.srcS r.toNat]
  | .cpswap _ b v _ _ => [σ.srcS b.toNat] ++ [σ.srcS v.toNat]
  | .cpcas _ b v c _ _ => [σ.srcS b.toNat] ++ [σ.srcS v.toNat] ++ [σ.srcS c.toNat]
  | .cpsend a => (List.range 5).map fun i => σ.srcS (a.toNat + i)
  | .cpfill b a r _ => [σ.srcS b.toNat] ++ [σ.srcS a.toNat] ++ [σ.srcS r.toNat]
  | .cpbinit b a => [σ.srcS b.toNat] ++ ((List.range 3).map fun i => σ.srcS (a.toNat + i))
  | .cparr b r _ _ => [σ.srcS b.toNat] ++ [σ.srcS r.toNat]
  | .cpcoll b => [σ.srcS b.toNat]
  | .cprel a b _ => [σ.srcS a.toNat] ++ [σ.srcS b.toNat]
  | .pand _ a b g k => ([if k = 1 then .kreg a.toNat else .mreg g.toNat a.toNat]) ++ ([if k = 1 then .kreg b.toNat else .mreg g.toNat b.toNat])
  | .por _ a b g k => ([if k = 1 then .kreg a.toNat else .mreg g.toNat a.toNat]) ++ ([if k = 1 then .kreg b.toNat else .mreg g.toNat b.toNat])
  | .pxor _ a b g k => ([if k = 1 then .kreg a.toNat else .mreg g.toNat a.toNat]) ++ ([if k = 1 then .kreg b.toNat else .mreg g.toNat b.toNat])
  | .pandn _ a b g k => ([if k = 1 then .kreg a.toNat else .mreg g.toNat a.toNat]) ++ ([if k = 1 then .kreg b.toNat else .mreg g.toNat b.toNat])
  | .pnot _ a g k => [if k = 1 then .kreg a.toNat else .mreg g.toNat a.toNat]
  | .pmov _ a g k => [if k = 1 then .kreg a.toNat else .mreg g.toNat a.toNat]
  | .psetk _ a g _ => [.mreg g.toNat a.toNat]
  | .pcnt _ a g => [.mreg g.toNat a.toNat]
  | .pfirst _ a g => [.mreg g.toNat a.toNat]
  | .pktom _ a _ => [.kreg a.toNat]
  | .vadd _ a b _ => [.vreg σ.group (σ.vwin a.toNat)] ++ [.vreg σ.group (σ.vwin b.toNat)]
  | .vadd64 _ a b _ => [.vreg σ.group a.toNat] ++ [.vreg σ.group b.toNat]
  | .vsub _ a b _ => [.vreg σ.group (σ.vwin a.toNat)] ++ [.vreg σ.group (σ.vwin b.toNat)]
  | .vsub64 _ a b _ => [.vreg σ.group a.toNat] ++ [.vreg σ.group b.toNat]
  | .vmul _ a b _ => [.vreg σ.group (σ.vwin a.toNat)] ++ [.vreg σ.group (σ.vwin b.toNat)]
  | .vmul64 _ a b _ => [.vreg σ.group a.toNat] ++ [.vreg σ.group b.toNat]
  | .vfma _ a b c _ => [.vreg σ.group a.toNat] ++ [.vreg σ.group b.toNat] ++ [.vreg σ.group c.toNat]
  | .vfms _ a b c _ => [.vreg σ.group a.toNat] ++ [.vreg σ.group b.toNat] ++ [.vreg σ.group c.toNat]
  | .vmin _ a b _ => [.vreg σ.group (σ.vwin a.toNat)] ++ [.vreg σ.group (σ.vwin b.toNat)]
  | .vmin64 _ a b _ => [.vreg σ.group a.toNat] ++ [.vreg σ.group b.toNat]
  | .vmax _ a b _ => [.vreg σ.group (σ.vwin a.toNat)] ++ [.vreg σ.group (σ.vwin b.toNat)]
  | .vmax64 _ a b _ => [.vreg σ.group a.toNat] ++ [.vreg σ.group b.toNat]
  | .vabs _ a _ => [.vreg σ.group (σ.vwin a.toNat)]
  | .vabs64 _ a _ => [.vreg σ.group a.toNat]
  | .vneg _ a _ => [.vreg σ.group (σ.vwin a.toNat)]
  | .vneg64 _ a _ => [.vreg σ.group a.toNat]
  | .vrcp _ a _ => [.vreg σ.group (σ.vwin a.toNat)]
  | .vrcp64 _ a _ => [.vreg σ.group a.toNat]
  | .vrsq _ a _ => [.vreg σ.group (σ.vwin a.toNat)]
  | .vrsq64 _ a _ => [.vreg σ.group a.toNat]
  | .vsqrt _ a _ => [.vreg σ.group (σ.vwin a.toNat)]
  | .vsqrt64 _ a _ => [.vreg σ.group a.toNat]
  | .vexp2 _ a _ => [.vreg σ.group (σ.vwin a.toNat)]
  | .vexp264 _ a _ => [.vreg σ.group a.toNat]
  | .vlog2 _ a _ => [.vreg σ.group (σ.vwin a.toNat)]
  | .vlog264 _ a _ => [.vreg σ.group a.toNat]
  | .vsin _ a _ => [.vreg σ.group (σ.vwin a.toNat)]
  | .vsin64 _ a _ => [.vreg σ.group a.toNat]
  | .vcos _ a _ => [.vreg σ.group (σ.vwin a.toNat)]
  | .vcos64 _ a _ => [.vreg σ.group a.toNat]
  | .vtanh _ a _ => [.vreg σ.group (σ.vwin a.toNat)]
  | .vtanh64 _ a _ => [.vreg σ.group a.toNat]
  | .vsigm _ a _ => [.vreg σ.group (σ.vwin a.toNat)]
  | .vsigm64 _ a _ => [.vreg σ.group a.toNat]
  | .vsilu _ a _ => [.vreg σ.group (σ.vwin a.toNat)]
  | .vsilu64 _ a _ => [.vreg σ.group a.toNat]
  | .vand _ a b => [.vreg σ.group (σ.vwin a.toNat)] ++ [.vreg σ.group (σ.vwin b.toNat)]
  | .vand64 _ a b => [.vreg σ.group a.toNat] ++ [.vreg σ.group b.toNat]
  | .vor _ a b => [.vreg σ.group (σ.vwin a.toNat)] ++ [.vreg σ.group (σ.vwin b.toNat)]
  | .vor64 _ a b => [.vreg σ.group a.toNat] ++ [.vreg σ.group b.toNat]
  | .vxor _ a b => [.vreg σ.group (σ.vwin a.toNat)] ++ [.vreg σ.group (σ.vwin b.toNat)]
  | .vxor64 _ a b => [.vreg σ.group a.toNat] ++ [.vreg σ.group b.toNat]
  | .vnot _ a => [.vreg σ.group (σ.vwin a.toNat)]
  | .vnot64 _ a => [.vreg σ.group a.toNat]
  | .vshl _ a b _ => [.vreg σ.group (σ.vwin a.toNat)] ++ [.vreg σ.group (σ.vwin b.toNat)]
  | .vshl64 _ a b _ => [.vreg σ.group a.toNat] ++ [.vreg σ.group b.toNat]
  | .vshr _ a b _ => [.vreg σ.group (σ.vwin a.toNat)] ++ [.vreg σ.group (σ.vwin b.toNat)]
  | .vshr64 _ a b _ => [.vreg σ.group a.toNat] ++ [.vreg σ.group b.toNat]
  | .vsar _ a b _ => [.vreg σ.group (σ.vwin a.toNat)] ++ [.vreg σ.group (σ.vwin b.toNat)]
  | .vsar64 _ a b _ => [.vreg σ.group a.toNat] ++ [.vreg σ.group b.toNat]
  | .viadd _ a b _ => [.vreg σ.group (σ.vwin a.toNat)] ++ [.vreg σ.group (σ.vwin b.toNat)]
  | .viadd64 _ a b _ => [.vreg σ.group a.toNat] ++ [.vreg σ.group b.toNat]
  | .visub _ a b _ => [.vreg σ.group (σ.vwin a.toNat)] ++ [.vreg σ.group (σ.vwin b.toNat)]
  | .visub64 _ a b _ => [.vreg σ.group a.toNat] ++ [.vreg σ.group b.toNat]
  | .vimul _ a b _ => [.vreg σ.group (σ.vwin a.toNat)] ++ [.vreg σ.group (σ.vwin b.toNat)]
  | .vimul64 _ a b _ => [.vreg σ.group a.toNat] ++ [.vreg σ.group b.toNat]
  | .vimin _ a b _ => [.vreg σ.group (σ.vwin a.toNat)] ++ [.vreg σ.group (σ.vwin b.toNat)]
  | .vimin64 _ a b _ => [.vreg σ.group a.toNat] ++ [.vreg σ.group b.toNat]
  | .vimax _ a b _ => [.vreg σ.group (σ.vwin a.toNat)] ++ [.vreg σ.group (σ.vwin b.toNat)]
  | .vimax64 _ a b _ => [.vreg σ.group a.toNat] ++ [.vreg σ.group b.toNat]
  | .vcmp _ a b _ => [.vreg σ.group (σ.vwin a.toNat)] ++ [.vreg σ.group (σ.vwin b.toNat)]
  | .vcmp64 _ _ a b _ _ => [.vreg σ.group a.toNat] ++ [.vreg σ.group b.toNat]
  | .vicmp _ a b _ => [.vreg σ.group (σ.vwin a.toNat)] ++ [.vreg σ.group (σ.vwin b.toNat)]
  | .vicmp64 _ _ a b _ _ => [.vreg σ.group a.toNat] ++ [.vreg σ.group b.toNat]
  | .vsel _ a b m => [.vreg σ.group a.toNat] ++ [.vreg σ.group b.toNat] ++ [.mreg σ.group m.toNat]
  | .vmov _ a => [.vreg σ.group (σ.vwin a.toNat)]
  | .vmov64 _ a => [.vreg σ.group a.toNat]
  | .vsplat _ s _ => [σ.srcS s.toNat]
  | .viota _ s _ _ _ => [σ.srcS s.toNat]
  | .vperm _ a b _ => [.vreg σ.group (σ.vwin a.toNat)] ++ [.vreg σ.group (σ.vwin b.toNat)]
  | .vperm64 _ a b _ => [.vreg σ.group a.toNat] ++ [.vreg σ.group b.toNat]
  | .vxcp _ a g => [.vreg g.toNat (σ.vwin a.toNat)]
  | .vxcp64 _ a g => [.vreg g.toNat a.toNat]
  | .vredadd _ a _ _ => [.vreg σ.group (σ.vwin a.toNat)]
  | .vredadd64 _ a _ _ => [.vreg σ.group a.toNat]
  | .vredmax _ a _ _ => [.vreg σ.group (σ.vwin a.toNat)]
  | .vredmax64 _ a _ => [.vreg σ.group a.toNat]
  | .vredmin _ a _ _ => [.vreg σ.group (σ.vwin a.toNat)]
  | .vredmin64 _ a _ => [.vreg σ.group a.toNat]
  | .vscan _ a _ _ => [.vreg σ.group (σ.vwin a.toNat)]
  | .vscan64 _ a _ _ => [.vreg σ.group a.toNat]
  | .vcompress _ a _ _ => [.vreg σ.group (σ.vwin a.toNat)]
  | .vcompress64 _ a _ _ _ => [.vreg σ.group a.toNat]
  | .vexpand _ a _ _ => [.vreg σ.group (σ.vwin a.toNat)]
  | .vexpand64 _ a _ _ _ => [.vreg σ.group a.toNat]
  | .vcvt _ a _ _ _ m _ => [.vreg σ.group a.toNat] ++ [σ.srcS m.toNat]
  | .vrnd _ a _ _ _ => [.vreg σ.group a.toNat]
  | .vpack _ a b _ => [.vreg σ.group a.toNat] ++ [.vreg σ.group b.toNat]
  | .vunpk _ a sf _ _ s => .vreg σ.group a.toNat :: if sf.toNat ∈ [3, 4, 5] then [σ.srcS s.toNat] else []
  | .vspcomp _ a _ _ _ => (List.range 4).map fun i => .vreg σ.group (a.toNat + i)
  | .vblkscl d a b o _ _ => .vreg σ.group a.toNat :: (match o.toNat with
    | 0 => [.vreg σ.group d.toNat]
    | 1 => []
    | _ => [.vreg σ.group b.toNat])
  | _ => []

/-- The registers a word writes, as it names them now. -/
def State.dests (σ : State) : Instr → List Dst
  | .call _ => [.sreg 47]
  | .call64 _ => [.sreg 47]
  | .calli _ => [.sreg 47]
  | .gjoin _ _ k => [.kreg k.toNat]
  | .txcommit d k _ => [σ.srcS d.toNat] ++ [.kreg k.toNat]
  | .snapnew d k _ => [σ.srcS d.toNat] ++ [.kreg k.toNat]
  | .snapset _ k _ => [.kreg k.toNat]
  | .snapdrop _ k _ => [.kreg k.toNat]
  | .crd d _ => [σ.srcS d.toNat]
  | .add d _ _ => [σ.srcS d.toNat]
  | .sub d _ _ => [σ.srcS d.toNat]
  | .mul d _ _ => [σ.srcS d.toNat]
  | .mulh d _ _ => [σ.srcS d.toNat]
  | .mulhn d _ _ => [σ.srcS d.toNat]
  | .div d _ _ => [σ.srcS d.toNat]
  | .divn d _ _ => [σ.srcS d.toNat]
  | .rem d _ _ => [σ.srcS d.toNat]
  | .remn d _ _ => [σ.srcS d.toNat]
  | .and d _ _ => [σ.srcS d.toNat]
  | .or d _ _ => [σ.srcS d.toNat]
  | .xor d _ _ => [σ.srcS d.toNat]
  | .andn d _ _ => [σ.srcS d.toNat]
  | .shl d _ _ => [σ.srcS d.toNat]
  | .shr d _ _ => [σ.srcS d.toNat]
  | .sar d _ _ => [σ.srcS d.toNat]
  | .rol d _ _ => [σ.srcS d.toNat]
  | .min d _ _ => [σ.srcS d.toNat]
  | .max d _ _ => [σ.srcS d.toNat]
  | .minn d _ _ => [σ.srcS d.toNat]
  | .maxn d _ _ => [σ.srcS d.toNat]
  | .addi d _ _ => [σ.srcS d.toNat]
  | .addi64 d _ _ => [σ.srcS d.toNat]
  | .clz d _ => [σ.srcS d.toNat]
  | .ctz d _ => [σ.srcS d.toNat]
  | .popc d _ => [σ.srcS d.toNat]
  | .mov d _ => [σ.srcS d.toNat]
  | .bfx d _ _ _ => [σ.srcS d.toNat]
  | .bfxs d _ _ _ => [σ.srcS d.toNat]
  | .bfi d _ _ _ => [σ.srcS d.toNat]
  | .sel d _ _ _ => [σ.srcS d.toNat]
  | .movi d _ => [σ.srcS d.toNat]
  | .movi64 d _ => [σ.srcS d.toNat]
  | .addx d _ _ _ => [σ.srcS d.toNat]
  | .addx64 d _ _ _ _ => [σ.srcS d.toNat]
  | .cmp _ _ _ k => [.kreg k.toNat]
  | .cmp64 _ _ _ k => [.kreg k.toNat]
  | .cmpi _ _ k _ => [.kreg k.toNat]
  | .cmpi64 _ _ k _ => [.kreg k.toNat]
  | .fadd d _ _ => [σ.srcS d.toNat]
  | .fsub d _ _ => [σ.srcS d.toNat]
  | .fmul d _ _ => [σ.srcS d.toNat]
  | .ffma d _ _ _ => [σ.srcS d.toNat]
  | .fmin d _ _ => [σ.srcS d.toNat]
  | .fmax d _ _ => [σ.srcS d.toNat]
  | .fcmp _ _ _ k => [.kreg k.toNat]
  | .fcmp64 _ _ _ k => [.kreg k.toNat]
  | .cvtf d _ _ _ => [σ.srcS d.toNat]
  | .aird d _ _ => [σ.srcS d.toNat]
  | .aiwr _ j f => [.iter j.toNat f.toNat]
  | .rng d => [σ.srcS d.toNat]
  | .ld d _ _ => [σ.srcS d.toNat]
  | .ld64 d _ _ _ _ => [σ.srcS d.toNat]
  | .ldacq d _ _ => [σ.srcS d.toNat]
  | .ldacq64 d _ _ _ _ _ => [σ.srcS d.toNat]
  | .ldl d _ _ _ _ _ => [σ.srcS d.toNat]
  | .ldacqLong d _ _ _ _ _ _ => [σ.srcS d.toNat]
  | .vld d _ _ => [.vreg 0 (σ.vwin d.toNat)]
  | .vld64 d _ _ g => σ.srcG g d.toNat
  | .vldl d _ g _ _ => σ.srcG g d.toNat
  | .vldb d _ _ => [.vreg 0 (σ.vwin d.toNat)]
  | .vldb64 d _ _ g => σ.srcG g d.toNat
  | .vldx d _ _ g _ _ => σ.srcG g d.toNat
  | .tld d _ g _ r _ _ => (List.range (r.toNat + 1)).flatMap fun i => σ.srcG g (d.toNat + i)
  | .aout d g _ _ _ _ _ => (List.range 4).map fun j => .vreg (g.toNat + j) ((d.toNat + σ.passStep) % 1024)
  | .aoog d _ => (List.range 4).map fun j => .vreg j (σ.vwin d.toNat)
  | .agout d g _ _ _ => (List.range 4).map fun j => .vreg (g.toNat + j) ((d.toNat + σ.passStep) % 1024)
  | .acout d g _ _ _ => (List.range 2).map fun j => .vreg (g.toNat + j) ((d.toNat + σ.passStep) % 1024)
  | .cpswap d _ _ _ _ => [σ.srcS d.toNat]
  | .cpcas d _ _ _ _ _ => [σ.srcS d.toNat]
  | .cpstat d _ => [σ.srcS d.toNat]
  | .pand d _ _ g k => [if k = 1 then .kreg d.toNat else .mreg g.toNat d.toNat]
  | .por d _ _ g k => [if k = 1 then .kreg d.toNat else .mreg g.toNat d.toNat]
  | .pxor d _ _ g k => [if k = 1 then .kreg d.toNat else .mreg g.toNat d.toNat]
  | .pandn d _ _ g k => [if k = 1 then .kreg d.toNat else .mreg g.toNat d.toNat]
  | .pnot d _ g k => [if k = 1 then .kreg d.toNat else .mreg g.toNat d.toNat]
  | .pmov d _ g k => [if k = 1 then .kreg d.toNat else .mreg g.toNat d.toNat]
  | .psetk k _ _ _ => [.kreg k.toNat]
  | .pcnt d _ _ => [σ.srcS d.toNat]
  | .pfirst d _ g => [.mreg g.toNat d.toNat]
  | .pktom d _ g => (groups g.toNat).map fun j => .mreg j d.toNat
  | .vadd d _ _ _ => [.vreg σ.group (σ.vwin d.toNat)]
  | .vadd64 d _ _ _ => [.vreg σ.group d.toNat]
  | .vsub d _ _ _ => [.vreg σ.group (σ.vwin d.toNat)]
  | .vsub64 d _ _ _ => [.vreg σ.group d.toNat]
  | .vmul d _ _ _ => [.vreg σ.group (σ.vwin d.toNat)]
  | .vmul64 d _ _ _ => [.vreg σ.group d.toNat]
  | .vfma d _ _ _ _ => [.vreg σ.group d.toNat]
  | .vfms d _ _ _ _ => [.vreg σ.group d.toNat]
  | .vmin d _ _ _ => [.vreg σ.group (σ.vwin d.toNat)]
  | .vmin64 d _ _ _ => [.vreg σ.group d.toNat]
  | .vmax d _ _ _ => [.vreg σ.group (σ.vwin d.toNat)]
  | .vmax64 d _ _ _ => [.vreg σ.group d.toNat]
  | .vabs d _ _ => [.vreg σ.group (σ.vwin d.toNat)]
  | .vabs64 d _ _ => [.vreg σ.group d.toNat]
  | .vneg d _ _ => [.vreg σ.group (σ.vwin d.toNat)]
  | .vneg64 d _ _ => [.vreg σ.group d.toNat]
  | .vrcp d _ _ => [.vreg σ.group (σ.vwin d.toNat)]
  | .vrcp64 d _ _ => [.vreg σ.group d.toNat]
  | .vrsq d _ _ => [.vreg σ.group (σ.vwin d.toNat)]
  | .vrsq64 d _ _ => [.vreg σ.group d.toNat]
  | .vsqrt d _ _ => [.vreg σ.group (σ.vwin d.toNat)]
  | .vsqrt64 d _ _ => [.vreg σ.group d.toNat]
  | .vexp2 d _ _ => [.vreg σ.group (σ.vwin d.toNat)]
  | .vexp264 d _ _ => [.vreg σ.group d.toNat]
  | .vlog2 d _ _ => [.vreg σ.group (σ.vwin d.toNat)]
  | .vlog264 d _ _ => [.vreg σ.group d.toNat]
  | .vsin d _ _ => [.vreg σ.group (σ.vwin d.toNat)]
  | .vsin64 d _ _ => [.vreg σ.group d.toNat]
  | .vcos d _ _ => [.vreg σ.group (σ.vwin d.toNat)]
  | .vcos64 d _ _ => [.vreg σ.group d.toNat]
  | .vtanh d _ _ => [.vreg σ.group (σ.vwin d.toNat)]
  | .vtanh64 d _ _ => [.vreg σ.group d.toNat]
  | .vsigm d _ _ => [.vreg σ.group (σ.vwin d.toNat)]
  | .vsigm64 d _ _ => [.vreg σ.group d.toNat]
  | .vsilu d _ _ => [.vreg σ.group (σ.vwin d.toNat)]
  | .vsilu64 d _ _ => [.vreg σ.group d.toNat]
  | .vand d _ _ => [.vreg σ.group (σ.vwin d.toNat)]
  | .vand64 d _ _ => [.vreg σ.group d.toNat]
  | .vor d _ _ => [.vreg σ.group (σ.vwin d.toNat)]
  | .vor64 d _ _ => [.vreg σ.group d.toNat]
  | .vxor d _ _ => [.vreg σ.group (σ.vwin d.toNat)]
  | .vxor64 d _ _ => [.vreg σ.group d.toNat]
  | .vnot d _ => [.vreg σ.group (σ.vwin d.toNat)]
  | .vnot64 d _ => [.vreg σ.group d.toNat]
  | .vshl d _ _ _ => [.vreg σ.group (σ.vwin d.toNat)]
  | .vshl64 d _ _ _ => [.vreg σ.group d.toNat]
  | .vshr d _ _ _ => [.vreg σ.group (σ.vwin d.toNat)]
  | .vshr64 d _ _ _ => [.vreg σ.group d.toNat]
  | .vsar d _ _ _ => [.vreg σ.group (σ.vwin d.toNat)]
  | .vsar64 d _ _ _ => [.vreg σ.group d.toNat]
  | .viadd d _ _ _ => [.vreg σ.group (σ.vwin d.toNat)]
  | .viadd64 d _ _ _ => [.vreg σ.group d.toNat]
  | .visub d _ _ _ => [.vreg σ.group (σ.vwin d.toNat)]
  | .visub64 d _ _ _ => [.vreg σ.group d.toNat]
  | .vimul d _ _ _ => [.vreg σ.group (σ.vwin d.toNat)]
  | .vimul64 d _ _ _ => [.vreg σ.group d.toNat]
  | .vimin d _ _ _ => [.vreg σ.group (σ.vwin d.toNat)]
  | .vimin64 d _ _ _ => [.vreg σ.group d.toNat]
  | .vimax d _ _ _ => [.vreg σ.group (σ.vwin d.toNat)]
  | .vimax64 d _ _ _ => [.vreg σ.group d.toNat]
  | .vcmp m _ _ _ => [.mreg σ.group m.toNat]
  | .vcmp64 m _ _ _ _ _ => [.mreg σ.group m.toNat]
  | .vicmp m _ _ _ => [.mreg σ.group m.toNat]
  | .vicmp64 m _ _ _ _ _ => [.mreg σ.group m.toNat]
  | .vsel d _ _ _ => [.vreg σ.group d.toNat]
  | .vmov d _ => [.vreg σ.group (σ.vwin d.toNat)]
  | .vmov64 d _ => [.vreg σ.group d.toNat]
  | .vsplat d _ _ => [.vreg σ.group (σ.vwin d.toNat)]
  | .vsplat64 d _ _ => [.vreg σ.group d.toNat]
  | .viota d _ _ _ _ => [.vreg σ.group (σ.vwin d.toNat)]
  | .vperm d _ _ _ => [.vreg σ.group (σ.vwin d.toNat)]
  | .vperm64 d _ _ _ => [.vreg σ.group d.toNat]
  | .vxcp d _ _ => [.vreg σ.group (σ.vwin d.toNat)]
  | .vxcp64 d _ _ => [.vreg σ.group d.toNat]
  | .vredadd d _ _ _ => [.vreg σ.group (σ.vwin d.toNat)]
  | .vredadd64 d _ _ _ => [.vreg σ.group d.toNat]
  | .vredmax d _ _ _ => [.vreg σ.group (σ.vwin d.toNat)]
  | .vredmax64 d _ _ => [.vreg σ.group d.toNat]
  | .vredmin d _ _ _ => [.vreg σ.group (σ.vwin d.toNat)]
  | .vredmin64 d _ _ => [.vreg σ.group d.toNat]
  | .vscan d _ _ _ => [.vreg σ.group (σ.vwin d.toNat)]
  | .vscan64 d _ _ _ => [.vreg σ.group d.toNat]
  | .vcompress d _ s _ => [.vreg σ.group (σ.vwin d.toNat), σ.srcS s.toNat]
  | .vcompress64 d _ s _ _ => [.vreg σ.group d.toNat, σ.srcS s.toNat]
  | .vexpand d _ s _ => [.vreg σ.group (σ.vwin d.toNat), σ.srcS s.toNat]
  | .vexpand64 d _ s _ _ => [.vreg σ.group d.toNat, σ.srcS s.toNat]
  | .vcvt d _ _ _ _ _ _ => [.vreg σ.group d.toNat]
  | .vrnd d _ _ _ _ => [.vreg σ.group d.toNat]
  | .vrng d _ => [.vreg σ.group (σ.vwin d.toNat)]
  | .vpack d _ _ _ => [.vreg σ.group d.toNat]
  | .vunpk d _ _ _ _ _ => [.vreg σ.group d.toNat]
  | .vspcomp d _ x m _ => [.vreg σ.group d.toNat, .vreg σ.group (d.toNat + 1), .vreg σ.group x.toNat, .mreg σ.group m.toNat]
  | .vblkscl d _ _ _ _ _ => [.vreg σ.group d.toNat]
  | _ => []

/-- The predicate or mask a word reads. -/
def State.predSource (s : State) (x : Slot) : Dst :=
  if 9 ≤ x.env.pos.toNat then .mreg (x.env.pos.toNat - 9) x.env.pred.toNat else .kreg x.env.pred.toNat

/-- The latencies of an operation of 19 R431 on A0 and B0: the local loads. -/
def instrLoadLat : Instr → Option (Nat × Nat)
  | .ld _ _ _ | .ld64 _ _ _ _ _ | .ldacq _ _ _ | .ldacq64 _ _ _ _ _ _ | .vld _ _ _ | .vld64 _ _ _ _ | .vldb _ _ _
  | .vldb64 _ _ _ _ => some (4, 6)
  | .vldx _ _ _ _ _ _ => some (8, 10)
  | .tld _ _ _ _ _ t _ => if t = 1 then some (6, 8) else some (4, 6)
  | _ => none

end Sys2Proof.Machine
end

