-- ==== Sys2Proof/Decode.lean ====
section
/-! DEFINITION. Decoding and encoding of slot words, prefixes and bundles (08 R214 to R229). Decoding is total: what is
not an instruction is refused with the opcode, or with the detail code of ILLEGAL_ENCODING (18 R410). -/

namespace Sys2Proof

/-- Why a slot word is not an instruction: an unassigned opcode, or ILLEGAL_ENCODING with its detail code (18 R410). -/
inductive DErr where
  | op (n : Nat)
  | enc (detail : BitVec 8)
  deriving DecidableEq, Repr

/-- Bits `lo + n - 1` to `lo` of a slot word, counted over both of its words. -/
def fld (w : BitVec 64) (lo n : Nat) : BitVec n := w.extractLsb' lo n

/-- A field put in place. -/
def put {n : Nat} (v : BitVec n) (lo : Nat) : BitVec 64 := v.setWidth 64 <<< lo

/-- The opcode, bits 12:7 (08 R219). -/
def opcode (w : BitVec 64) : Nat := (fld w 7 6).toNat

/-- A check that gives ILLEGAL_ENCODING with `detail` where it fails. -/
def ck {α : Type} (b : Bool) (detail : BitVec 8) (k : Except DErr α) : Except DErr α :=
  if b then k else .error (.enc detail)

/-- Reserved operand bits must be zero (08 R222). -/
def zero {α : Type} (w : BitVec 64) (lo n : Nat) (k : Except DErr α) : Except DErr α :=
  ck (fld w lo n == 0) 0x10 k

/-! ### Field values -/

/-- The values FMT may hold in bits 22:0 (07 R211): no format code 7, rounding code 0 to 5, clip code 0 to 2. -/
def fmtValueOk (v : BitVec 23) : Bool :=
  v.extractLsb' 0 4 != 7#4 && v.extractLsb' 4 4 != 7#4 && v.extractLsb' 8 4 != 7#4 &&
    decide ((v.extractLsb' 13 3).toNat ≤ 5) && v.extractLsb' 16 2 != 3#2

/-- The CREG numbers of the table of 09 R266. -/
def cregAssigned (r : BitVec 10) : Bool :=
  let n := r.toNat
  decide (n ≤ 0x12) || (decide (0x20 ≤ n) && decide (n ≤ 0x23)) || (decide (0x28 ≤ n) && decide (n ≤ 0x2F)) ||
    (decide (0x40 ≤ n) && decide (n ≤ 0x47))

/-- A scalar floating-point word takes no RND with code 5 (09 R274). -/
def noSR (e : Env) : Bool := match e.pfx.rnd with | some (c, _) => c != 5 | none => true

/-- Format codes of CVTF (09 R276). -/
def cvtfCode (c : BitVec 4) : Bool := decide (c.toNat ≤ 4) || decide (8 ≤ c.toNat)

/-- The ET codes of the floating-point vector operations (11 R317). -/
def etFloat (c : BitVec 4) : Bool := decide (c.toNat ≤ 2)

/-- The ET codes of the integer vector operations (11 R317). -/
def etInt (c : BitVec 4) : Bool := c == 8 || c == 9 || c == 10 || c == 12 || c == 13 || c == 14

/-- The ET codes of VPERM, VCOMPRESS, VEXPAND and of the operations that take both kinds (11 R317). -/
def etPerm (c : BitVec 4) : Bool := etFloat c || etInt c

/-- The width in bits of a format code's encoding (04 R119, R124). -/
def etWidth (c : BitVec 4) : Nat :=
  match c.toNat with
  | 0 => 32 | 1 => 16 | 2 => 16 | 3 => 8 | 4 => 8 | 5 => 4 | 6 => 32 | 7 => 32
  | 8 => 8 | 9 => 16 | 10 => 32 | 11 => 64 | 12 => 8 | 13 => 16 | 14 => 32 | _ => 64

/-- PART names an element of a lane (11 R326). -/
def partBelow (p : BitVec 3) (e4 : BitVec 4) : Bool := decide (p.toNat < 32 / etWidth e4)

/-- Codes and PART of VCVT (11 R335). -/
def vcvtOk (sf df : BitVec 4) (p : BitVec 3) : Bool :=
  etPerm sf && (decide (df.toNat ≤ 5) || etInt df) &&
    (let ps := 32 / etWidth sf; let pd := 32 / etWidth df
     if ps < pd then decide (p.toNat < pd / ps) else if pd < ps then decide (p.toNat < ps / pd) else p == 0)

/-- Format pairs of VRND (11 R336). -/
def vrndOk (sf tf : BitVec 4) : Bool :=
  match sf.toNat with
  | 0 => decide (tf.toNat ≤ 5)
  | 1 => tf == 1 || tf == 3 || tf == 4 || tf == 5
  | 2 => tf == 2 || tf == 3 || tf == 4 || tf == 5
  | _ => false

/-- Source types of VPACK (11 R338). -/
def vpackOk (sf : BitVec 4) : Bool := sf == 9 || sf == 10 || sf == 13 || sf == 14

/-- Format pairs and PART of VUNPK (11 R339). -/
def vunpkOk (sf df : BitVec 4) (p : BitVec 3) : Bool :=
  (match sf.toNat with
   | 1 | 2 | 3 | 4 | 5 => df == 0
   | 8 => df == 9 || df == 10
   | 9 => df == 10
   | 12 => df == 13 || df == 14
   | 13 => df == 14
   | _ => false) && decide (p.toNat < (32 / etWidth sf) / (32 / etWidth df))

/-- Formats and register limits of VSPCOMP (11 R340). -/
def vspcompOk (sf : BitVec 4) (x a d : BitVec 10) : Bool :=
  (sf == 1 || sf == 3 || sf == 4) && decide (a.toNat ≤ 1020) && decide (d.toNat ≤ 1022) &&
    decide (x.toNat ≠ d.toNat) && decide (x.toNat ≠ d.toNat + 1)

/-- Modes and formats of VBLKSCL (11 R341). -/
def vblksclOk (o : BitVec 2) (df : BitVec 4) : Bool :=
  match o.toNat with
  | 0 => df == 0
  | 1 => df == 3 || df == 4 || df == 5
  | 2 => df == 5
  | _ => false

/-- EW, ROWS and STRIDE of TLD (10 R292, R293). -/
def tldShape (w : BitVec 2) (t : BitVec 1) (r : BitVec 5) (s : BitVec 14) : Bool :=
  if t == 0 then w == 0 else
    match w.toNat with
    | 0 => r == 15
    | 1 => r == 31
    | 2 => r == 15 && s == 1
    | _ => r == 7 && s == 1

/-- KV of AMM lies below the window width of its weight class (13 R356, R364). -/
def ammK (w : BitVec 2) (k : BitVec 9) : Bool := decide (k.toNat < 64 * 2 ^ w.toNat)

/-- Five flags as bits 0 to 4. -/
def acc5 (rnd sat imx sco snp : Bool) : BitVec 5 :=
  put5 rnd 0 ||| put5 sat 1 ||| put5 imx 2 ||| put5 sco 3 ||| put5 snp 4
where
  put5 (b : Bool) (n : Nat) : BitVec 5 := if b then 1#5 <<< n else 0#5

/-! ### Slot words, class by class -/

/-- Class C (08 R231): opcode, form, H where the class forbids it, reserved bits, field values, in the order of R229. -/
def decodeC (e : Env) (f64 : Bool) (w : BitVec 64) : Except DErr Instr :=
  match f64, opcode w with
  | false, 0 => ck (!e.hold) 0x14 <| zero w 13 19 <| .ok (.nop)
  | true, 0 => .error (.enc 0x15)
  | false, 1 => ck (!e.hold) 0x14 <| .ok (.br (fld w 13 19))
  | true, 1 => ck (!e.hold) 0x14 <| .ok (.br64 (fld w 13 51))
  | false, 2 => ck (!e.hold) 0x14 <| zero w 19 13 <| .ok (.bri (fld w 13 6))
  | true, 2 => .error (.enc 0x15)
  | false, 3 => ck (!e.hold) 0x14 <| .ok (.call (fld w 13 19))
  | true, 3 => ck (!e.hold) 0x14 <| .ok (.call64 (fld w 13 51))
  | false, 4 => ck (!e.hold) 0x14 <| zero w 19 13 <| .ok (.calli (fld w 13 6))
  | true, 4 => .error (.enc 0x15)
  | false, 5 => ck (!e.hold) 0x14 <| zero w 13 19 <| .ok (.ret)
  | true, 5 => .error (.enc 0x15)
  | false, 6 => .error (.enc 0x15)
  | true, 6 => ck (!e.hold) 0x14 <| zero w 44 20 <| ck (decide ((fld w 39 5).toNat ≤ 16)) 0x16 <| .ok (.loop (fld w 13 7) (fld w 20 7) (fld w 27 6) (fld w 33 6) (fld w 39 5))
  | false, 7 => .error (.enc 0x15)
  | true, 7 => ck (!e.hold) 0x14 <| zero w 62 2 <| ck (decide ((fld w 57 5).toNat ≤ 16)) 0x16 <| .ok (.loopn (fld w 13 7) (fld w 20 7) (fld w 27 6) (fld w 33 6) (fld w 39 6) (fld w 45 6) (fld w 51 6) (fld w 57 5))
  | false, 8 => ck (!e.hold) 0x14 <| zero w 13 19 <| .ok (.lexit)
  | true, 8 => .error (.enc 0x15)
  | false, 9 => ck (!e.hold) 0x14 <| zero w 19 13 <| .ok (.wait (fld w 13 5) (fld w 18 1))
  | true, 9 => .error (.enc 0x15)
  | false, 10 => ck (!e.hold) 0x14 <| zero w 14 18 <| .ok (.yield (fld w 13 1))
  | true, 10 => .error (.enc 0x15)
  | false, 11 => ck (!e.hold) 0x14 <| zero w 13 19 <| .ok (.retire)
  | true, 11 => .error (.enc 0x15)
  | false, 12 => ck (!e.hold) 0x14 <| zero w 19 13 <| .ok (.fmtset (fld w 13 6))
  | true, 12 => ck (!e.hold) 0x14 <| zero w 36 28 <| ck (fmtValueOk (fld w 13 23)) 0x16 <| .ok (.fmtset64 (fld w 13 23))
  | false, 13 => ck (!e.hold) 0x14 <| zero w 23 9 <| .ok (.balset (fld w 13 10))
  | true, 13 => .error (.enc 0x15)
  | false, 14 => ck (!e.hold) 0x14 <| zero w 26 6 <| .ok (.walset (fld w 13 13))
  | true, 14 => .error (.enc 0x15)
  | false, 15 => ck (!e.hold) 0x14 <| zero w 16 16 <| ck ((fld w 13 3) != 0) 0x16 <| .ok (.opset (fld w 13 3))
  | true, 15 => .error (.enc 0x15)
  | false, 16 => ck (!e.hold) 0x14 <| zero w 28 4 <| .ok (.gjoin (fld w 13 8) (fld w 21 4) (fld w 25 3))
  | true, 16 => .error (.enc 0x15)
  | false, 17 => ck (!e.hold) 0x14 <| zero w 13 19 <| .ok (.gleave)
  | true, 17 => .error (.enc 0x15)
  | false, 18 => ck (!e.hold) 0x14 <| zero w 13 19 <| .ok (.vjoin)
  | true, 18 => .error (.enc 0x15)
  | false, 19 => ck (!e.hold) 0x14 <| zero w 16 16 <| ck (decide ((fld w 13 3).toNat ≤ 5)) 0x16 <| .ok (.qmark (fld w 13 3))
  | true, 19 => .error (.enc 0x15)
  | false, 20 => ck (!e.hold) 0x14 <| zero w 16 16 <| ck (decide ((fld w 13 3).toNat ≤ 5)) 0x16 <| .ok (.fence (fld w 13 3))
  | true, 20 => .error (.enc 0x15)
  | false, 21 => ck (!e.hold) 0x14 <| zero w 16 16 <| .ok (.fencep (fld w 13 3))
  | true, 21 => .error (.enc 0x15)
  | false, 22 => ck (!e.hold) 0x14 <| zero w 23 9 <| ck ((fld w 13 10) != 0) 0x16 <| .ok (.txbegin (fld w 13 10))
  | true, 22 => .error (.enc 0x15)
  | false, 23 => ck (!e.hold) 0x14 <| ck ((fld w 22 10) != 0) 0x16 <| .ok (.txcommit (fld w 13 6) (fld w 19 3) (fld w 22 10))
  | true, 23 => .error (.enc 0x15)
  | false, 24 => ck (!e.hold) 0x14 <| zero w 13 19 <| .ok (.txabort)
  | true, 24 => .error (.enc 0x15)
  | false, 25 => ck (!e.hold) 0x14 <| ck ((fld w 22 10) != 0) 0x16 <| .ok (.snapnew (fld w 13 6) (fld w 19 3) (fld w 22 10))
  | true, 25 => .error (.enc 0x15)
  | false, 26 => ck (!e.hold) 0x14 <| ck ((fld w 22 10) != 0) 0x16 <| .ok (.snapset (fld w 13 6) (fld w 19 3) (fld w 22 10))
  | true, 26 => .error (.enc 0x15)
  | false, 27 => ck (!e.hold) 0x14 <| ck ((fld w 22 10) != 0) 0x16 <| .ok (.snapdrop (fld w 13 6) (fld w 19 3) (fld w 22 10))
  | true, 27 => .error (.enc 0x15)
  | false, 28 => ck (!e.hold) 0x14 <| zero w 29 3 <| .ok (.trap (fld w 13 16))
  | true, 28 => .error (.enc 0x15)
  | false, 29 => ck (!e.hold) 0x14 <| zero w 13 19 <| .ok (.eret)
  | true, 29 => .error (.enc 0x15)
  | false, 30 => ck (!e.hold) 0x14 <| .ok (.sysc (fld w 13 5) (fld w 18 14))
  | true, 30 => .error (.enc 0x15)
  | false, 31 => ck (!e.hold) 0x14 <| zero w 29 3 <| ck (cregAssigned (fld w 19 10)) 0x16 <| .ok (.crd (fld w 13 6) (fld w 19 10))
  | true, 31 => .error (.enc 0x15)
  | false, 32 => ck (!e.hold) 0x14 <| zero w 29 3 <| ck (cregAssigned (fld w 19 10)) 0x16 <| .ok (.cwr (fld w 13 6) (fld w 19 10))
  | true, 32 => .error (.enc 0x15)
  | false, 33 => ck (!e.hold) 0x14 <| zero w 13 19 <| .ok (.bkpt)
  | true, 33 => .error (.enc 0x15)
  | _, n => .error (.op n)

/-- Class S (08 R231): opcode, form, H where the class forbids it, reserved bits, field values, in the order of R229. -/
def decodeS (e : Env) (f64 : Bool) (w : BitVec 64) : Except DErr Instr :=
  match f64, opcode w with
  | false, 0 => zero w 31 1 <| .ok (.add (fld w 13 6) (fld w 19 6) (fld w 25 6))
  | true, 0 => .error (.enc 0x15)
  | false, 1 => zero w 31 1 <| .ok (.sub (fld w 13 6) (fld w 19 6) (fld w 25 6))
  | true, 1 => .error (.enc 0x15)
  | false, 2 => .ok (.addi (fld w 13 6) (fld w 19 6) (fld w 25 7))
  | true, 2 => .ok (.addi64 (fld w 13 6) (fld w 19 6) (fld w 25 39))
  | false, 3 => zero w 31 1 <| .ok (.mul (fld w 13 6) (fld w 19 6) (fld w 25 6))
  | true, 3 => .error (.enc 0x15)
  | false, 4 => zero w 31 1 <| .ok (.mulh (fld w 13 6) (fld w 19 6) (fld w 25 6))
  | true, 4 => .error (.enc 0x15)
  | false, 5 => zero w 31 1 <| .ok (.mulhn (fld w 13 6) (fld w 19 6) (fld w 25 6))
  | true, 5 => .error (.enc 0x15)
  | false, 6 => zero w 31 1 <| .ok (.div (fld w 13 6) (fld w 19 6) (fld w 25 6))
  | true, 6 => .error (.enc 0x15)
  | false, 7 => zero w 31 1 <| .ok (.divn (fld w 13 6) (fld w 19 6) (fld w 25 6))
  | true, 7 => .error (.enc 0x15)
  | false, 8 => zero w 31 1 <| .ok (.rem (fld w 13 6) (fld w 19 6) (fld w 25 6))
  | true, 8 => .error (.enc 0x15)
  | false, 9 => zero w 31 1 <| .ok (.remn (fld w 13 6) (fld w 19 6) (fld w 25 6))
  | true, 9 => .error (.enc 0x15)
  | false, 10 => zero w 31 1 <| .ok (.and (fld w 13 6) (fld w 19 6) (fld w 25 6))
  | true, 10 => .error (.enc 0x15)
  | false, 11 => zero w 31 1 <| .ok (.or (fld w 13 6) (fld w 19 6) (fld w 25 6))
  | true, 11 => .error (.enc 0x15)
  | false, 12 => zero w 31 1 <| .ok (.xor (fld w 13 6) (fld w 19 6) (fld w 25 6))
  | true, 12 => .error (.enc 0x15)
  | false, 13 => zero w 31 1 <| .ok (.andn (fld w 13 6) (fld w 19 6) (fld w 25 6))
  | true, 13 => .error (.enc 0x15)
  | false, 14 => zero w 31 1 <| .ok (.shl (fld w 13 6) (fld w 19 6) (fld w 25 6))
  | true, 14 => .error (.enc 0x15)
  | false, 15 => zero w 31 1 <| .ok (.shr (fld w 13 6) (fld w 19 6) (fld w 25 6))
  | true, 15 => .error (.enc 0x15)
  | false, 16 => zero w 31 1 <| .ok (.sar (fld w 13 6) (fld w 19 6) (fld w 25 6))
  | true, 16 => .error (.enc 0x15)
  | false, 17 => zero w 31 1 <| .ok (.rol (fld w 13 6) (fld w 19 6) (fld w 25 6))
  | true, 17 => .error (.enc 0x15)
  | false, 18 => zero w 31 1 <| .ok (.min (fld w 13 6) (fld w 19 6) (fld w 25 6))
  | true, 18 => .error (.enc 0x15)
  | false, 19 => zero w 31 1 <| .ok (.max (fld w 13 6) (fld w 19 6) (fld w 25 6))
  | true, 19 => .error (.enc 0x15)
  | false, 20 => zero w 31 1 <| .ok (.minn (fld w 13 6) (fld w 19 6) (fld w 25 6))
  | true, 20 => .error (.enc 0x15)
  | false, 21 => zero w 31 1 <| .ok (.maxn (fld w 13 6) (fld w 19 6) (fld w 25 6))
  | true, 21 => .error (.enc 0x15)
  | false, 22 => zero w 25 7 <| .ok (.clz (fld w 13 6) (fld w 19 6))
  | true, 22 => .error (.enc 0x15)
  | false, 23 => zero w 25 7 <| .ok (.ctz (fld w 13 6) (fld w 19 6))
  | true, 23 => .error (.enc 0x15)
  | false, 24 => zero w 25 7 <| .ok (.popc (fld w 13 6) (fld w 19 6))
  | true, 24 => .error (.enc 0x15)
  | false, 25 => .error (.enc 0x15)
  | true, 25 => zero w 37 27 <| .ok (.bfx (fld w 13 6) (fld w 19 6) (fld w 25 6) (fld w 31 6))
  | false, 26 => .error (.enc 0x15)
  | true, 26 => zero w 37 27 <| .ok (.bfxs (fld w 13 6) (fld w 19 6) (fld w 25 6) (fld w 31 6))
  | false, 27 => .error (.enc 0x15)
  | true, 27 => zero w 37 27 <| .ok (.bfi (fld w 13 6) (fld w 19 6) (fld w 25 6) (fld w 31 6))
  | false, 28 => .error (.enc 0x15)
  | true, 28 => zero w 35 29 <| .ok (.sel (fld w 13 6) (fld w 19 6) (fld w 25 6) (fld w 31 4))
  | false, 29 => zero w 25 7 <| .ok (.mov (fld w 13 6) (fld w 19 6))
  | true, 29 => .error (.enc 0x15)
  | false, 30 => .ok (.movi (fld w 13 6) (fld w 19 13))
  | true, 30 => .ok (.movi64 (fld w 13 6) (fld w 19 45))
  | false, 31 => .ok (.addx (fld w 13 6) (fld w 19 6) (fld w 25 6) (fld w 31 1))
  | true, 31 => zero w 38 26 <| .ok (.addx64 (fld w 13 6) (fld w 19 6) (fld w 25 6) (fld w 31 6) (fld w 37 1))
  | false, 32 => ck (decide ((fld w 13 4).toNat ≤ 9)) 0x16 <| .ok (.cmp (fld w 13 4) (fld w 17 6) (fld w 23 6) (fld w 29 3))
  | true, 32 => zero w 33 31 <| ck (decide ((fld w 13 4).toNat ≤ 9)) 0x16 <| .ok (.cmp64 (fld w 13 4) (fld w 17 6) (fld w 23 6) (fld w 29 4))
  | false, 33 => ck (decide ((fld w 13 4).toNat ≤ 9)) 0x16 <| .ok (.cmpi (fld w 13 4) (fld w 17 6) (fld w 23 3) (fld w 26 6))
  | true, 33 => ck (decide ((fld w 13 4).toNat ≤ 9)) 0x16 <| .ok (.cmpi64 (fld w 13 4) (fld w 17 6) (fld w 23 4) (fld w 27 37))
  | false, 34 => zero w 31 1 <| .ok (.fadd (fld w 13 6) (fld w 19 6) (fld w 25 6))
  | true, 34 => .error (.enc 0x15)
  | false, 35 => zero w 31 1 <| .ok (.fsub (fld w 13 6) (fld w 19 6) (fld w 25 6))
  | true, 35 => .error (.enc 0x15)
  | false, 36 => zero w 31 1 <| .ok (.fmul (fld w 13 6) (fld w 19 6) (fld w 25 6))
  | true, 36 => .error (.enc 0x15)
  | false, 37 => .error (.enc 0x15)
  | true, 37 => zero w 37 27 <| .ok (.ffma (fld w 13 6) (fld w 19 6) (fld w 25 6) (fld w 31 6))
  | false, 38 => zero w 31 1 <| .ok (.fmin (fld w 13 6) (fld w 19 6) (fld w 25 6))
  | true, 38 => .error (.enc 0x15)
  | false, 39 => zero w 31 1 <| .ok (.fmax (fld w 13 6) (fld w 19 6) (fld w 25 6))
  | true, 39 => .error (.enc 0x15)
  | false, 40 => ck (decide ((fld w 13 4).toNat ≤ 7)) 0x16 <| .ok (.fcmp (fld w 13 4) (fld w 17 6) (fld w 23 6) (fld w 29 3))
  | true, 40 => zero w 33 31 <| ck (decide ((fld w 13 4).toNat ≤ 7)) 0x16 <| .ok (.fcmp64 (fld w 13 4) (fld w 17 6) (fld w 23 6) (fld w 29 4))
  | false, 41 => .error (.enc 0x15)
  | true, 41 => zero w 33 31 <| ck (cvtfCode (fld w 25 4)) 0x16 <| ck (cvtfCode (fld w 29 4)) 0x16 <| .ok (.cvtf (fld w 13 6) (fld w 19 6) (fld w 25 4) (fld w 29 4))
  | false, 42 => zero w 26 6 <| ck (decide ((fld w 23 3).toNat ≤ 5)) 0x16 <| .ok (.aird (fld w 13 6) (fld w 19 4) (fld w 23 3))
  | true, 42 => .error (.enc 0x15)
  | false, 43 => zero w 26 6 <| ck (decide ((fld w 23 3).toNat ≤ 5)) 0x16 <| .ok (.aiwr (fld w 13 6) (fld w 19 4) (fld w 23 3))
  | true, 43 => .error (.enc 0x15)
  | false, 44 => zero w 19 13 <| .ok (.rng (fld w 13 6))
  | true, 44 => .error (.enc 0x15)
  | _, n => .error (.op n)

/-- Class L (08 R231): opcode, form, H where the class forbids it, reserved bits, field values, in the order of R229. -/
def decodeL (e : Env) (f64 : Bool) (w : BitVec 64) : Except DErr Instr :=
  match f64, opcode w with
  | false, 0 => .ok (.ld (fld w 13 6) (fld w 19 6) (fld w 25 7))
  | true, 0 => zero w 59 5 <| ck (decide ((fld w 13 10).toNat < 64)) 0x16 <| ck (decide ((fld w 23 7).toNat < 80)) 0x16 <| ck (!((fld w 58 1) == 1 && (fld w 56 2) == 3)) 0x16 <| .ok (.ld64 (fld w 13 10) (fld w 23 7) (fld w 30 26) (fld w 56 2) (fld w 58 1))
  | false, 1 => .ok (.ldacq (fld w 13 6) (fld w 19 6) (fld w 25 7))
  | true, 1 => zero w 62 2 <| ck (decide ((fld w 13 10).toNat < 64)) 0x16 <| ck (decide ((fld w 23 7).toNat < 80)) 0x16 <| ck (!((fld w 58 1) == 1 && (fld w 56 2) == 3)) 0x16 <| ck (decide ((fld w 59 3).toNat ≤ 5)) 0x16 <| .ok (.ldacq64 (fld w 13 10) (fld w 23 7) (fld w 30 26) (fld w 56 2) (fld w 58 1) (fld w 59 3))
  | false, 2 => .error (.enc 0x15)
  | true, 2 => if fld w 29 1 == 0 then ck (fld w 30 3 == 0) 0x16 <| ck (decide ((fld w 19 7).toNat < 80)) 0x16 <| ck (!((fld w 28 1) == 1 && (fld w 26 2) == 3)) 0x16 <| ck ((fld w 33 12) != 0) 0x16 <| .ok (.ldl (fld w 13 6) (fld w 19 7) (fld w 26 2) (fld w 28 1) (fld w 33 12) (fld w 45 19)) else ck (decide ((fld w 19 7).toNat < 80)) 0x16 <| ck (!((fld w 28 1) == 1 && (fld w 26 2) == 3)) 0x16 <| ck ((fld w 33 12) != 0) 0x16 <| ck (decide ((fld w 30 3).toNat ≤ 5)) 0x16 <| .ok (.ldacqLong (fld w 13 6) (fld w 19 7) (fld w 26 2) (fld w 28 1) (fld w 30 3) (fld w 33 12) (fld w 45 19))
  | false, 3 => .ok (.vld (fld w 13 6) (fld w 19 6) (fld w 25 7))
  | true, 3 => ck (decide ((fld w 23 7).toNat < 80)) 0x16 <| ck ((fld w 56 8) != 0) 0x16 <| .ok (.vld64 (fld w 13 10) (fld w 23 7) (fld w 30 26) (fld w 56 8))
  | false, 4 => .error (.enc 0x15)
  | true, 4 => ck (decide ((fld w 23 7).toNat < 80)) 0x16 <| ck ((fld w 30 8) != 0) 0x16 <| ck ((fld w 38 12) != 0) 0x16 <| .ok (.vldl (fld w 13 10) (fld w 23 7) (fld w 30 8) (fld w 38 12) (fld w 50 14))
  | false, 5 => .ok (.vldb (fld w 13 6) (fld w 19 6) (fld w 25 7))
  | true, 5 => ck (decide ((fld w 23 7).toNat < 80)) 0x16 <| ck ((fld w 56 8) != 0) 0x16 <| .ok (.vldb64 (fld w 13 10) (fld w 23 7) (fld w 30 26) (fld w 56 8))
  | false, 6 => .error (.enc 0x15)
  | true, 6 => zero w 54 10 <| ck (decide ((fld w 33 7).toNat < 80)) 0x16 <| ck ((fld w 40 8) != 0) 0x16 <| .ok (.vldx (fld w 13 10) (fld w 23 10) (fld w 33 7) (fld w 40 8) (fld w 48 2) (fld w 50 4))
  | false, 7 => .error (.enc 0x15)
  | true, 7 => zero w 60 4 <| ck (decide ((fld w 23 7).toNat < 80)) 0x16 <| ck ((fld w 30 8) != 0) 0x16 <| ck (decide ((fld w 13 10).toNat + (fld w 52 5).toNat ≤ 1023)) 0x16 <| ck (tldShape (fld w 58 2) (fld w 57 1) (fld w 52 5) (fld w 38 14)) 0x16 <| .ok (.tld (fld w 13 10) (fld w 23 7) (fld w 30 8) (fld w 38 14) (fld w 52 5) (fld w 57 1) (fld w 58 2))
  | false, 8 => .ok (.pref (fld w 13 6) (fld w 19 6) (fld w 25 7))
  | true, 8 => .error (.enc 0x15)
  | _, n => .error (.op n)

/-- Class T (08 R231): opcode, form, H where the class forbids it, reserved bits, field values, in the order of R229. -/
def decodeT (e : Env) (f64 : Bool) (w : BitVec 64) : Except DErr Instr :=
  match f64, opcode w with
  | false, 0 => .ok (.st (fld w 13 6) (fld w 19 6) (fld w 25 7))
  | true, 0 => zero w 58 6 <| ck (decide ((fld w 13 10).toNat < 64)) 0x16 <| ck (decide ((fld w 23 7).toNat < 80)) 0x16 <| .ok (.st64 (fld w 13 10) (fld w 23 7) (fld w 30 26) (fld w 56 2))
  | false, 1 => .ok (.strel (fld w 13 6) (fld w 19 6) (fld w 25 7))
  | true, 1 => zero w 61 3 <| ck (decide ((fld w 13 10).toNat < 64)) 0x16 <| ck (decide ((fld w 23 7).toNat < 80)) 0x16 <| ck (decide ((fld w 58 3).toNat ≤ 5)) 0x16 <| .ok (.strel64 (fld w 13 10) (fld w 23 7) (fld w 30 26) (fld w 56 2) (fld w 58 3))
  | false, 2 => .ok (.vst (fld w 13 6) (fld w 19 6) (fld w 25 7))
  | true, 2 => ck (decide ((fld w 23 7).toNat < 80)) 0x16 <| ck ((fld w 56 8) != 0) 0x16 <| .ok (.vst64 (fld w 13 10) (fld w 23 7) (fld w 30 26) (fld w 56 8))
  | false, 3 => .ok (.vstm (fld w 13 6) (fld w 19 6) (fld w 25 7))
  | true, 3 => ck (decide ((fld w 23 7).toNat < 80)) 0x16 <| ck (decide ((fld w 60 4).toNat ≤ 8)) 0x16 <| .ok (.vstm64 (fld w 13 10) (fld w 23 7) (fld w 30 26) (fld w 56 4) (fld w 60 4))
  | false, 4 => .error (.enc 0x15)
  | true, 4 => zero w 54 10 <| ck (decide ((fld w 33 7).toNat < 80)) 0x16 <| ck ((fld w 40 8) != 0) 0x16 <| .ok (.vstx (fld w 13 10) (fld w 23 10) (fld w 33 7) (fld w 40 8) (fld w 48 2) (fld w 50 4))
  | false, 5 => .error (.enc 0x15)
  | true, 5 => zero w 60 4 <| ck (fld w 57 3 == 0) 0x16 <| ck (decide ((fld w 23 7).toNat < 80)) 0x16 <| ck ((fld w 30 8) != 0) 0x16 <| ck (decide ((fld w 13 10).toNat + (fld w 52 5).toNat ≤ 1023)) 0x16 <| .ok (.tst (fld w 13 10) (fld w 23 7) (fld w 30 8) (fld w 38 14) (fld w 52 5))
  | _, n => .error (.op n)

/-- Class A (08 R231): opcode, form, H where the class forbids it, reserved bits, field values, in the order of R229. -/
def decodeA (e : Env) (f64 : Bool) (w : BitVec 64) : Except DErr Instr :=
  match f64, opcode w with
  | false, 0 => .error (.enc 0x15)
  | true, 0 => zero w 38 26 <| ck (decide ((fld w 13 7).toNat < 80)) 0x16 <| ck ((fld w 36 2) != 3) 0x16 <| ck (!((fld w 35 1) == 1 && (fld w 36 2) != 0)) 0x16 <| .ok (.ald (fld w 13 7) (fld w 20 9) (fld w 29 6) (fld w 35 1) (fld w 36 2))
  | false, 1 => .error (.enc 0x15)
  | true, 1 => zero w 38 26 <| ck (decide ((fld w 13 7).toNat < 80)) 0x16 <| ck ((fld w 36 2) != 3) 0x16 <| ck (!((fld w 35 1) == 1 && (fld w 36 2) != 0)) 0x16 <| .ok (.alds (fld w 13 7) (fld w 20 9) (fld w 29 6) (fld w 35 1) (fld w 36 2))
  | false, 2 => zero w 13 19 <| .ok (.aswap)
  | true, 2 => .error (.enc 0x15)
  | false, 3 => zero w 16 16 <| ck (decide ((fld w 13 3).toNat ≤ 5)) 0x16 <| .ok (.azero (fld w 13 3))
  | true, 3 => .error (.enc 0x15)
  | false, 4 => .error (.enc 0x15)
  | true, 4 => zero w 63 1 <| ck (decide ((fld w 13 7).toNat < 80)) 0x16 <| ck (decide ((fld w 56 7).toNat < 80)) 0x16 <| ck ((fld w 54 2) != 3) 0x16 <| ck ((fld w 51 2) != 3) 0x16 <| ck (ammK (fld w 51 2) (fld w 32 9)) 0x16 <| .ok (.amm (fld w 13 7) (fld w 20 12) (fld w 32 9) (fld w 41 8) (fld w 49 1) (fld w 50 1) (fld w 51 2) (fld w 53 1) (fld w 54 2) (fld w 56 7))
  | false, 5 => .error (.enc 0x15)
  | true, 5 => zero w 63 1 <| ck (decide ((fld w 13 7).toNat < 80)) 0x16 <| ck (decide ((fld w 56 7).toNat < 80)) 0x16 <| ck ((fld w 54 2) != 3) 0x16 <| ck ((fld w 51 2) != 3) 0x16 <| .ok (.amms (fld w 13 7) (fld w 20 12) (fld w 32 9) (fld w 41 8) (fld w 49 1) (fld w 50 1) (fld w 51 2) (fld w 53 1) (fld w 54 2) (fld w 56 7))
  | false, 6 => .error (.enc 0x15)
  | true, 6 => zero w 61 3 <| ck (fld w 32 19 == 0) 0x16 <| ck (decide ((fld w 13 7).toNat < 80)) 0x16 <| .ok (.aeval (fld w 13 7) (fld w 20 12) (fld w 51 8) (fld w 59 1) (fld w 60 1))
  | false, 7 => .error (.enc 0x15)
  | true, 7 => zero w 61 3 <| ck (fld w 59 1 == 0) 0x16 <| ck (decide ((fld w 13 7).toNat < 80)) 0x16 <| ck (decide ((fld w 32 7).toNat < 80)) 0x16 <| .ok (.abwd (fld w 13 7) (fld w 20 12) (fld w 32 7) (fld w 39 12) (fld w 51 8) (fld w 60 1))
  | false, 8 => .error (.enc 0x15)
  | true, 8 => zero w 61 3 <| ck (fld w 51 9 == 0) 0x16 <| ck (decide ((fld w 13 7).toNat < 80)) 0x16 <| ck (decide ((fld w 32 7).toNat < 80)) 0x16 <| .ok (.agrad (fld w 13 7) (fld w 20 12) (fld w 32 7) (fld w 39 12) (fld w 60 1))
  | false, 9 => zero w 24 8 <| .ok (.aupd (fld w 13 6) (fld w 19 5))
  | true, 9 => .error (.enc 0x15)
  | false, 10 => zero w 21 11 <| ck (decide ((fld w 18 3).toNat ≤ 4)) 0x16 <| ck ((fld w 16 2) != 3) 0x16 <| ck ((fld w 14 2) != 3) 0x16 <| .ok (.amode (fld w 13 1) (fld w 14 2) (fld w 16 2) (fld w 18 3))
  | true, 10 => .error (.enc 0x15)
  | false, 11 => .ok (.aknot (fld w 13 6) (fld w 19 13))
  | true, 11 => .error (.enc 0x15)
  | false, 12 => zero w 13 19 <| .ok (.arefine)
  | true, 12 => .error (.enc 0x15)
  | false, 13 => zero w 21 11 <| .ok (.aextend (fld w 13 4) (fld w 17 4))
  | true, 13 => .error (.enc 0x15)
  | false, 14 => .error (.enc 0x15)
  | true, 14 => zero w 51 13 <| ck ((fld w 26 2) != 3) 0x16 <| .ok (.aout (fld w 13 10) (fld w 23 3) (fld w 26 2) (fld w 28 8) (fld w 36 6) (fld w 42 8) (fld w 50 1))
  | false, 15 => .error (.enc 0x15)
  | true, 15 => zero w 57 7 <| ck ((fld w 32 2) != 3) 0x16 <| ck (decide ((fld w 13 7).toNat < 80)) 0x16 <| .ok (.aouts (fld w 13 7) (fld w 20 12) (fld w 32 2) (fld w 34 8) (fld w 42 6) (fld w 48 8) (fld w 56 1))
  | false, 16 => zero w 20 12 <| .ok (.aoog (fld w 13 6) (fld w 19 1))
  | true, 16 => .error (.enc 0x15)
  | false, 17 => .error (.enc 0x15)
  | true, 17 => zero w 38 26 <| ck (decide ((fld w 32 5).toNat ≤ 21)) 0x16 <| ck (decide ((fld w 23 3).toNat ≤ 4)) 0x16 <| .ok (.agout (fld w 13 10) (fld w 23 3) (fld w 26 6) (fld w 32 5) (fld w 37 1))
  | false, 18 => .error (.enc 0x15)
  | true, 18 => zero w 38 26 <| ck (decide ((fld w 23 3).toNat ≤ 6)) 0x16 <| .ok (.acout (fld w 13 10) (fld w 23 3) (fld w 26 6) (fld w 32 5) (fld w 37 1))
  | _, n => .error (.op n)

/-- Class K (08 R231): opcode, form, H where the class forbids it, reserved bits, field values, in the order of R229. -/
def decodeK (e : Env) (f64 : Bool) (w : BitVec 64) : Except DErr Instr :=
  match f64, opcode w with
  | false, 0 => zero w 27 5 <| ck (decide ((fld w 20 4).toNat + (fld w 24 3).toNat ≤ (if (fld w 19 1) == 0 then 15 else 1))) 0x16 <| .ok (.scale (fld w 13 6) (fld w 19 1) (fld w 20 4) (fld w 24 3))
  | true, 0 => .error (.enc 0x15)
  | false, 1 => zero w 27 5 <| ck (fld w 19 1 == 0) 0x16 <| ck (decide ((fld w 20 4).toNat + (fld w 24 3).toNat ≤ 15)) 0x16 <| .ok (.scx (fld w 13 6) (fld w 20 4) (fld w 24 3))
  | true, 1 => .error (.enc 0x15)
  | false, 2 => zero w 19 13 <| .ok (.sckey (fld w 13 6))
  | true, 2 => .error (.enc 0x15)
  | _, n => .error (.op n)

/-- Class P (08 R231): opcode, form, H where the class forbids it, reserved bits, field values, in the order of R229. A named field that an
opcode does not use counts among its reserved bits (log 41). -/
def decodeP (e : Env) (f64 : Bool) (w : BitVec 64) : Except DErr Instr :=
  match f64, opcode w with
  | false, 0 => .error (.enc 0x15)
  | true, 0 => zero w 51 13 <| .ok (.cpy (fld w 13 6) (fld w 19 6) (fld w 25 6) (fld w 31 20))
  | false, 1 => .error (.enc 0x15)
  | true, 1 => zero w 31 33 <| ck ((fld w 25 6) != 63) 0x16 <| .ok (.cpys (fld w 13 6) (fld w 19 6) (fld w 25 6))
  | false, 2 => .error (.enc 0x15)
  | true, 2 => zero w 56 8 <| ck (decide ((fld w 51 3).toNat ≤ 5)) 0x16 <| ck (!(decide (3 ≤ (fld w 51 3).toNat) && (fld w 54 2) != 3)) 0x16 <| .ok (.cpacc (fld w 13 6) (fld w 19 6) (fld w 25 6) (fld w 31 20) (fld w 51 3) (fld w 54 2))
  | false, 3 => .error (.enc 0x15)
  | true, 3 => zero w 31 6 <| zero w 50 14 <| ck ((fld w 38 12) != 0) 0x16 <| .ok (.cpswap (fld w 13 6) (fld w 19 6) (fld w 25 6) (fld w 37 1) (fld w 38 12))
  | false, 4 => .error (.enc 0x15)
  | true, 4 => zero w 50 14 <| ck ((fld w 38 12) != 0) 0x16 <| .ok (.cpcas (fld w 13 6) (fld w 19 6) (fld w 25 6) (fld w 31 6) (fld w 37 1) (fld w 38 12))
  | false, 5 => zero w 19 13 <| ck (decide ((fld w 13 6).toNat ≤ 59)) 0x16 <| .ok (.cpsend (fld w 13 6))
  | true, 5 => .error (.enc 0x15)
  | false, 6 => .error (.enc 0x15)
  | true, 6 => zero w 51 13 <| .ok (.cpfill (fld w 13 6) (fld w 19 6) (fld w 25 6) (fld w 31 20))
  | false, 7 => zero w 25 7 <| ck (decide ((fld w 19 6).toNat ≤ 61)) 0x16 <| .ok (.cpbinit (fld w 13 6) (fld w 19 6))
  | true, 7 => .error (.enc 0x15)
  | false, 8 => zero w 29 3 <| ck (decide ((fld w 26 3).toNat ≤ 5)) 0x16 <| .ok (.cparr (fld w 13 6) (fld w 19 6) (fld w 25 1) (fld w 26 3))
  | true, 8 => .error (.enc 0x15)
  | false, 9 => zero w 19 13 <| .ok (.cpcoll (fld w 13 6))
  | true, 9 => .error (.enc 0x15)
  | false, 10 => zero w 28 4 <| ck (decide ((fld w 25 3).toNat ≤ 5)) 0x16 <| .ok (.cprel (fld w 13 6) (fld w 19 6) (fld w 25 3))
  | true, 10 => .error (.enc 0x15)
  | false, 11 => zero w 29 3 <| ck ((fld w 19 10) != 0) 0x16 <| .ok (.cpstat (fld w 13 6) (fld w 19 10))
  | true, 11 => .error (.enc 0x15)
  | _, n => .error (.op n)

/-- Class Q (08 R231): opcode, form, H where the class forbids it, reserved bits, field values, in the order of R229. A named field that an
opcode does not use counts among its reserved bits (log 41). -/
def decodeQ (e : Env) (f64 : Bool) (w : BitVec 64) : Except DErr Instr :=
  match f64, opcode w with
  | false, 0 => zero w 29 3 <| ck (!((fld w 28 1) == 1 && (fld w 25 3) != 0)) 0x16 <| .ok (.pand (fld w 13 4) (fld w 17 4) (fld w 21 4) (fld w 25 3) (fld w 28 1))
  | true, 0 => .error (.enc 0x15)
  | false, 1 => zero w 29 3 <| ck (!((fld w 28 1) == 1 && (fld w 25 3) != 0)) 0x16 <| .ok (.por (fld w 13 4) (fld w 17 4) (fld w 21 4) (fld w 25 3) (fld w 28 1))
  | true, 1 => .error (.enc 0x15)
  | false, 2 => zero w 29 3 <| ck (!((fld w 28 1) == 1 && (fld w 25 3) != 0)) 0x16 <| .ok (.pxor (fld w 13 4) (fld w 17 4) (fld w 21 4) (fld w 25 3) (fld w 28 1))
  | true, 2 => .error (.enc 0x15)
  | false, 3 => zero w 29 3 <| ck (!((fld w 28 1) == 1 && (fld w 25 3) != 0)) 0x16 <| .ok (.pandn (fld w 13 4) (fld w 17 4) (fld w 21 4) (fld w 25 3) (fld w 28 1))
  | true, 3 => .error (.enc 0x15)
  | false, 4 => zero w 21 4 <| zero w 29 3 <| ck (!((fld w 28 1) == 1 && (fld w 25 3) != 0)) 0x16 <| .ok (.pnot (fld w 13 4) (fld w 17 4) (fld w 25 3) (fld w 28 1))
  | true, 4 => .error (.enc 0x15)
  | false, 5 => zero w 21 4 <| zero w 29 3 <| ck (!((fld w 28 1) == 1 && (fld w 25 3) != 0)) 0x16 <| .ok (.pmov (fld w 13 4) (fld w 17 4) (fld w 25 3) (fld w 28 1))
  | true, 5 => .error (.enc 0x15)
  | false, 6 => zero w 26 6 <| ck ((fld w 24 2) != 3) 0x16 <| .ok (.psetk (fld w 13 4) (fld w 17 4) (fld w 21 3) (fld w 24 2))
  | true, 6 => .error (.enc 0x15)
  | false, 7 => zero w 26 6 <| .ok (.pcnt (fld w 13 6) (fld w 19 4) (fld w 23 3))
  | true, 7 => .error (.enc 0x15)
  | false, 8 => zero w 24 8 <| .ok (.pfirst (fld w 13 4) (fld w 17 4) (fld w 21 3))
  | true, 8 => .error (.enc 0x15)
  | false, 9 => zero w 29 3 <| ck ((fld w 21 8) != 0) 0x16 <| .ok (.pktom (fld w 13 4) (fld w 17 4) (fld w 21 8))
  | true, 9 => .error (.enc 0x15)
  | _, n => .error (.op n)

/-- Class V (08 R231): opcode, form, H where the class forbids it, reserved bits, field values, in the order of R229. A named field that an
opcode does not use counts among its reserved bits (log 41). -/
def decodeV (e : Env) (f64 : Bool) (w : BitVec 64) : Except DErr Instr :=
  match f64, opcode w with
  | false, 0 => .ok (.vadd (fld w 13 6) (fld w 19 6) (fld w 25 6) (fld w 31 1))
  | true, 0 => zero w 43 10 <| zero w 57 7 <| ck (etFloat (fld w 53 4)) 0x16 <| .ok (.vadd64 (fld w 13 10) (fld w 23 10) (fld w 33 10) (fld w 53 4))
  | false, 1 => .ok (.vsub (fld w 13 6) (fld w 19 6) (fld w 25 6) (fld w 31 1))
  | true, 1 => zero w 43 10 <| zero w 57 7 <| ck (etFloat (fld w 53 4)) 0x16 <| .ok (.vsub64 (fld w 13 10) (fld w 23 10) (fld w 33 10) (fld w 53 4))
  | false, 2 => .ok (.vmul (fld w 13 6) (fld w 19 6) (fld w 25 6) (fld w 31 1))
  | true, 2 => zero w 43 10 <| zero w 57 7 <| ck (etFloat (fld w 53 4)) 0x16 <| .ok (.vmul64 (fld w 13 10) (fld w 23 10) (fld w 33 10) (fld w 53 4))
  | false, 3 => .error (.enc 0x15)
  | true, 3 => zero w 57 7 <| ck (etFloat (fld w 53 4)) 0x16 <| .ok (.vfma (fld w 13 10) (fld w 23 10) (fld w 33 10) (fld w 43 10) (fld w 53 4))
  | false, 4 => .error (.enc 0x15)
  | true, 4 => zero w 57 7 <| ck (etFloat (fld w 53 4)) 0x16 <| .ok (.vfms (fld w 13 10) (fld w 23 10) (fld w 33 10) (fld w 43 10) (fld w 53 4))
  | false, 5 => .ok (.vmin (fld w 13 6) (fld w 19 6) (fld w 25 6) (fld w 31 1))
  | true, 5 => zero w 43 10 <| zero w 57 7 <| ck (etFloat (fld w 53 4)) 0x16 <| .ok (.vmin64 (fld w 13 10) (fld w 23 10) (fld w 33 10) (fld w 53 4))
  | false, 6 => .ok (.vmax (fld w 13 6) (fld w 19 6) (fld w 25 6) (fld w 31 1))
  | true, 6 => zero w 43 10 <| zero w 57 7 <| ck (etFloat (fld w 53 4)) 0x16 <| .ok (.vmax64 (fld w 13 10) (fld w 23 10) (fld w 33 10) (fld w 53 4))
  | false, 7 => zero w 25 6 <| .ok (.vabs (fld w 13 6) (fld w 19 6) (fld w 31 1))
  | true, 7 => zero w 33 20 <| zero w 57 7 <| ck (etFloat (fld w 53 4)) 0x16 <| .ok (.vabs64 (fld w 13 10) (fld w 23 10) (fld w 53 4))
  | false, 8 => zero w 25 6 <| .ok (.vneg (fld w 13 6) (fld w 19 6) (fld w 31 1))
  | true, 8 => zero w 33 20 <| zero w 57 7 <| ck (etFloat (fld w 53 4)) 0x16 <| .ok (.vneg64 (fld w 13 10) (fld w 23 10) (fld w 53 4))
  | false, 9 => zero w 25 6 <| .ok (.vrcp (fld w 13 6) (fld w 19 6) (fld w 31 1))
  | true, 9 => zero w 33 20 <| zero w 57 7 <| ck (etFloat (fld w 53 4)) 0x16 <| .ok (.vrcp64 (fld w 13 10) (fld w 23 10) (fld w 53 4))
  | false, 10 => zero w 25 6 <| .ok (.vrsq (fld w 13 6) (fld w 19 6) (fld w 31 1))
  | true, 10 => zero w 33 20 <| zero w 57 7 <| ck (etFloat (fld w 53 4)) 0x16 <| .ok (.vrsq64 (fld w 13 10) (fld w 23 10) (fld w 53 4))
  | false, 11 => zero w 25 6 <| .ok (.vsqrt (fld w 13 6) (fld w 19 6) (fld w 31 1))
  | true, 11 => zero w 33 20 <| zero w 57 7 <| ck (etFloat (fld w 53 4)) 0x16 <| .ok (.vsqrt64 (fld w 13 10) (fld w 23 10) (fld w 53 4))
  | false, 12 => zero w 25 6 <| .ok (.vexp2 (fld w 13 6) (fld w 19 6) (fld w 31 1))
  | true, 12 => zero w 33 20 <| zero w 57 7 <| ck (etFloat (fld w 53 4)) 0x16 <| .ok (.vexp264 (fld w 13 10) (fld w 23 10) (fld w 53 4))
  | false, 13 => zero w 25 6 <| .ok (.vlog2 (fld w 13 6) (fld w 19 6) (fld w 31 1))
  | true, 13 => zero w 33 20 <| zero w 57 7 <| ck (etFloat (fld w 53 4)) 0x16 <| .ok (.vlog264 (fld w 13 10) (fld w 23 10) (fld w 53 4))
  | false, 14 => zero w 25 6 <| .ok (.vsin (fld w 13 6) (fld w 19 6) (fld w 31 1))
  | true, 14 => zero w 33 20 <| zero w 57 7 <| ck (etFloat (fld w 53 4)) 0x16 <| .ok (.vsin64 (fld w 13 10) (fld w 23 10) (fld w 53 4))
  | false, 15 => zero w 25 6 <| .ok (.vcos (fld w 13 6) (fld w 19 6) (fld w 31 1))
  | true, 15 => zero w 33 20 <| zero w 57 7 <| ck (etFloat (fld w 53 4)) 0x16 <| .ok (.vcos64 (fld w 13 10) (fld w 23 10) (fld w 53 4))
  | false, 16 => zero w 25 6 <| .ok (.vtanh (fld w 13 6) (fld w 19 6) (fld w 31 1))
  | true, 16 => zero w 33 20 <| zero w 57 7 <| ck (etFloat (fld w 53 4)) 0x16 <| .ok (.vtanh64 (fld w 13 10) (fld w 23 10) (fld w 53 4))
  | false, 17 => zero w 25 6 <| .ok (.vsigm (fld w 13 6) (fld w 19 6) (fld w 31 1))
  | true, 17 => zero w 33 20 <| zero w 57 7 <| ck (etFloat (fld w 53 4)) 0x16 <| .ok (.vsigm64 (fld w 13 10) (fld w 23 10) (fld w 53 4))
  | false, 18 => zero w 25 6 <| .ok (.vsilu (fld w 13 6) (fld w 19 6) (fld w 31 1))
  | true, 18 => zero w 33 20 <| zero w 57 7 <| ck (etFloat (fld w 53 4)) 0x16 <| .ok (.vsilu64 (fld w 13 10) (fld w 23 10) (fld w 53 4))
  | false, 19 => ck (fld w 31 1 == 0) 0x16 <| .ok (.vand (fld w 13 6) (fld w 19 6) (fld w 25 6))
  | true, 19 => zero w 43 10 <| zero w 57 7 <| ck (fld w 53 4 == 0) 0x16 <| .ok (.vand64 (fld w 13 10) (fld w 23 10) (fld w 33 10))
  | false, 20 => ck (fld w 31 1 == 0) 0x16 <| .ok (.vor (fld w 13 6) (fld w 19 6) (fld w 25 6))
  | true, 20 => zero w 43 10 <| zero w 57 7 <| ck (fld w 53 4 == 0) 0x16 <| .ok (.vor64 (fld w 13 10) (fld w 23 10) (fld w 33 10))
  | false, 21 => ck (fld w 31 1 == 0) 0x16 <| .ok (.vxor (fld w 13 6) (fld w 19 6) (fld w 25 6))
  | true, 21 => zero w 43 10 <| zero w 57 7 <| ck (fld w 53 4 == 0) 0x16 <| .ok (.vxor64 (fld w 13 10) (fld w 23 10) (fld w 33 10))
  | false, 22 => zero w 25 6 <| ck (fld w 31 1 == 0) 0x16 <| .ok (.vnot (fld w 13 6) (fld w 19 6))
  | true, 22 => zero w 33 20 <| zero w 57 7 <| ck (fld w 53 4 == 0) 0x16 <| .ok (.vnot64 (fld w 13 10) (fld w 23 10))
  | false, 23 => .ok (.vshl (fld w 13 6) (fld w 19 6) (fld w 25 6) (fld w 31 1))
  | true, 23 => zero w 43 10 <| zero w 57 7 <| ck (etInt (fld w 53 4)) 0x16 <| .ok (.vshl64 (fld w 13 10) (fld w 23 10) (fld w 33 10) (fld w 53 4))
  | false, 24 => .ok (.vshr (fld w 13 6) (fld w 19 6) (fld w 25 6) (fld w 31 1))
  | true, 24 => zero w 43 10 <| zero w 57 7 <| ck (etInt (fld w 53 4)) 0x16 <| .ok (.vshr64 (fld w 13 10) (fld w 23 10) (fld w 33 10) (fld w 53 4))
  | false, 25 => .ok (.vsar (fld w 13 6) (fld w 19 6) (fld w 25 6) (fld w 31 1))
  | true, 25 => zero w 43 10 <| zero w 57 7 <| ck (etInt (fld w 53 4)) 0x16 <| .ok (.vsar64 (fld w 13 10) (fld w 23 10) (fld w 33 10) (fld w 53 4))
  | false, 26 => .ok (.viadd (fld w 13 6) (fld w 19 6) (fld w 25 6) (fld w 31 1))
  | true, 26 => zero w 43 10 <| zero w 57 7 <| ck (etInt (fld w 53 4)) 0x16 <| .ok (.viadd64 (fld w 13 10) (fld w 23 10) (fld w 33 10) (fld w 53 4))
  | false, 27 => .ok (.visub (fld w 13 6) (fld w 19 6) (fld w 25 6) (fld w 31 1))
  | true, 27 => zero w 43 10 <| zero w 57 7 <| ck (etInt (fld w 53 4)) 0x16 <| .ok (.visub64 (fld w 13 10) (fld w 23 10) (fld w 33 10) (fld w 53 4))
  | false, 28 => .ok (.vimul (fld w 13 6) (fld w 19 6) (fld w 25 6) (fld w 31 1))
  | true, 28 => zero w 43 10 <| zero w 57 7 <| ck (etInt (fld w 53 4)) 0x16 <| .ok (.vimul64 (fld w 13 10) (fld w 23 10) (fld w 33 10) (fld w 53 4))
  | false, 29 => .ok (.vimin (fld w 13 6) (fld w 19 6) (fld w 25 6) (fld w 31 1))
  | true, 29 => zero w 43 10 <| zero w 57 7 <| ck (etInt (fld w 53 4)) 0x16 <| .ok (.vimin64 (fld w 13 10) (fld w 23 10) (fld w 33 10) (fld w 53 4))
  | false, 30 => .ok (.vimax (fld w 13 6) (fld w 19 6) (fld w 25 6) (fld w 31 1))
  | true, 30 => zero w 43 10 <| zero w 57 7 <| ck (etInt (fld w 53 4)) 0x16 <| .ok (.vimax64 (fld w 13 10) (fld w 23 10) (fld w 33 10) (fld w 53 4))
  | false, 31 => .ok (.vcmp (fld w 13 4) (fld w 17 6) (fld w 23 6) (fld w 29 3))
  | true, 31 => zero w 47 17 <| ck (etFloat (fld w 40 4)) 0x16 <| ck (partBelow (fld w 44 3) (fld w 40 4)) 0x16 <| .ok (.vcmp64 (fld w 13 4) (fld w 17 3) (fld w 20 10) (fld w 30 10) (fld w 40 4) (fld w 44 3))
  | false, 32 => ck (decide ((fld w 29 3).toNat ≤ 5)) 0x16 <| .ok (.vicmp (fld w 13 4) (fld w 17 6) (fld w 23 6) (fld w 29 3))
  | true, 32 => zero w 47 17 <| ck (etInt (fld w 40 4)) 0x16 <| ck (partBelow (fld w 44 3) (fld w 40 4)) 0x16 <| ck (decide ((fld w 17 3).toNat ≤ 5)) 0x16 <| .ok (.vicmp64 (fld w 13 4) (fld w 17 3) (fld w 20 10) (fld w 30 10) (fld w 40 4) (fld w 44 3))
  | false, 33 => .error (.enc 0x15)
  | true, 33 => zero w 47 17 <| .ok (.vsel (fld w 13 10) (fld w 23 10) (fld w 33 10) (fld w 43 4))
  | false, 34 => zero w 25 6 <| ck (fld w 31 1 == 0) 0x16 <| .ok (.vmov (fld w 13 6) (fld w 19 6))
  | true, 34 => zero w 33 20 <| zero w 57 7 <| ck (fld w 53 4 == 0) 0x16 <| .ok (.vmov64 (fld w 13 10) (fld w 23 10))
  | false, 35 => zero w 27 5 <| ck ((fld w 25 2) != 3) 0x16 <| .ok (.vsplat (fld w 13 6) (fld w 19 6) (fld w 25 2))
  | true, 35 => zero w 57 7 <| ck ((fld w 55 2) != 3) 0x16 <| .ok (.vsplat64 (fld w 13 10) (fld w 23 32) (fld w 55 2))
  | false, 36 => ck ((fld w 29 2) != 3) 0x16 <| .ok (.viota (fld w 13 6) (fld w 19 6) (fld w 25 4) (fld w 29 2) (fld w 31 1))
  | true, 36 => .error (.enc 0x15)
  | false, 37 => .ok (.vperm (fld w 13 6) (fld w 19 6) (fld w 25 6) (fld w 31 1))
  | true, 37 => zero w 43 10 <| zero w 57 7 <| ck (etPerm (fld w 53 4)) 0x16 <| .ok (.vperm64 (fld w 13 10) (fld w 23 10) (fld w 33 10) (fld w 53 4))
  | false, 38 => zero w 28 4 <| .ok (.vxcp (fld w 13 6) (fld w 19 6) (fld w 25 3))
  | true, 38 => zero w 36 28 <| .ok (.vxcp64 (fld w 13 10) (fld w 23 10) (fld w 33 3))
  | false, 39 => zero w 26 5 <| .ok (.vredadd (fld w 13 6) (fld w 19 6) (fld w 25 1) (fld w 31 1))
  | true, 39 => zero w 33 20 <| zero w 58 6 <| ck (etPerm (fld w 53 4)) 0x16 <| ck (!((fld w 57 1) == 1 && etWidth (fld w 53 4) == 32)) 0x16 <| .ok (.vredadd64 (fld w 13 10) (fld w 23 10) (fld w 53 4) (fld w 57 1))
  | false, 40 => zero w 26 5 <| .ok (.vredmax (fld w 13 6) (fld w 19 6) (fld w 25 1) (fld w 31 1))
  | true, 40 => zero w 33 20 <| zero w 57 7 <| ck (etPerm (fld w 53 4)) 0x16 <| .ok (.vredmax64 (fld w 13 10) (fld w 23 10) (fld w 53 4))
  | false, 41 => zero w 26 5 <| .ok (.vredmin (fld w 13 6) (fld w 19 6) (fld w 25 1) (fld w 31 1))
  | true, 41 => zero w 33 20 <| zero w 57 7 <| ck (etPerm (fld w 53 4)) 0x16 <| .ok (.vredmin64 (fld w 13 10) (fld w 23 10) (fld w 53 4))
  | false, 42 => zero w 26 5 <| .ok (.vscan (fld w 13 6) (fld w 19 6) (fld w 25 1) (fld w 31 1))
  | true, 42 => zero w 33 20 <| zero w 58 6 <| ck (etPerm (fld w 53 4)) 0x16 <| .ok (.vscan64 (fld w 13 10) (fld w 23 10) (fld w 53 4) (fld w 57 1))
  | false, 43 => .ok (.vcompress (fld w 13 6) (fld w 19 6) (fld w 25 6) (fld w 31 1))
  | true, 43 => zero w 44 20 <| ck (etPerm (fld w 40 4)) 0x16 <| .ok (.vcompress64 (fld w 13 10) (fld w 23 10) (fld w 33 6) (fld w 39 1) (fld w 40 4))
  | false, 44 => .ok (.vexpand (fld w 13 6) (fld w 19 6) (fld w 25 6) (fld w 31 1))
  | true, 44 => zero w 44 20 <| ck (etPerm (fld w 40 4)) 0x16 <| .ok (.vexpand64 (fld w 13 10) (fld w 23 10) (fld w 33 6) (fld w 39 1) (fld w 40 4))
  | false, 45 => .error (.enc 0x15)
  | true, 45 => zero w 58 6 <| ck (vcvtOk (fld w 33 4) (fld w 37 4) (fld w 41 3)) 0x16 <| .ok (.vcvt (fld w 13 10) (fld w 23 10) (fld w 33 4) (fld w 37 4) (fld w 41 3) (fld w 44 6) (fld w 50 8))
  | false, 46 => .error (.enc 0x15)
  | true, 46 => zero w 46 18 <| ck (vrndOk (fld w 33 4) (fld w 37 4)) 0x16 <| .ok (.vrnd (fld w 13 10) (fld w 23 10) (fld w 33 4) (fld w 37 4) (fld w 41 5))
  | false, 47 => zero w 21 11 <| ck (decide ((fld w 19 2).toNat ≤ 1)) 0x16 <| .ok (.vrng (fld w 13 6) (fld w 19 2))
  | true, 47 => .error (.enc 0x15)
  | false, 48 => .error (.enc 0x15)
  | true, 48 => zero w 47 17 <| ck (vpackOk (fld w 43 4)) 0x16 <| .ok (.vpack (fld w 13 10) (fld w 23 10) (fld w 33 10) (fld w 43 4))
  | false, 49 => .error (.enc 0x15)
  | true, 49 => zero w 50 14 <| ck (vunpkOk (fld w 33 4) (fld w 37 4) (fld w 41 3)) 0x16 <| .ok (.vunpk (fld w 13 10) (fld w 23 10) (fld w 33 4) (fld w 37 4) (fld w 41 3) (fld w 44 6))
  | false, 50 => .error (.enc 0x15)
  | true, 50 => zero w 51 13 <| ck (e.pred == 0) 0x16 <| ck (vspcompOk (fld w 47 4) (fld w 33 10) (fld w 23 10) (fld w 13 10)) 0x16 <| .ok (.vspcomp (fld w 13 10) (fld w 23 10) (fld w 33 10) (fld w 43 4) (fld w 47 4))
  | false, 51 => .error (.enc 0x15)
  | true, 51 => zero w 52 12 <| ck (vblksclOk (fld w 43 2) (fld w 45 4)) 0x16 <| .ok (.vblkscl (fld w 13 10) (fld w 23 10) (fld w 33 10) (fld w 43 2) (fld w 45 4) (fld w 49 3))
  | _, n => .error (.op n)

/-- A slot word at a position: the position fixes the class (08 R217, R218). -/
def decodeAt (e : Env) (f64 : Bool) (w : BitVec 64) : Except DErr Instr :=
  match e.pos.toNat with
  | 0 => decodeC e f64 w
  | 1 | 2 => decodeS e f64 w
  | 3 => decodeL e f64 w
  | 4 => decodeT e f64 w
  | 5 => decodeA e f64 w
  | 6 => decodeK e f64 w
  | 7 => decodeP e f64 w
  | 8 => decodeQ e f64 w
  | _ => decodeV e f64 w

/-- The prefix kinds a slot word accepts (09 R279, 10 R313, 11 R344, 13 R381), in the order RND, SAT, IMX, SCO, SNP. -/
def Instr.accepts : Instr → BitVec 5
  | .br _ => 4#5
  | .call _ => 4#5
  | .qmark _ => 8#5
  | .fence _ => 8#5
  | .add _ _ _ => 2#5
  | .sub _ _ _ => 2#5
  | .mul _ _ _ => 2#5
  | .addi _ _ _ => 6#5
  | .addi64 _ _ _ => 2#5
  | .movi _ _ => 4#5
  | .cmpi _ _ _ _ => 4#5
  | .fadd _ _ _ => 1#5
  | .fsub _ _ _ => 1#5
  | .fmul _ _ _ => 1#5
  | .ffma _ _ _ _ => 1#5
  | .cvtf _ _ _ _ => 3#5
  | .ld _ _ _ => 20#5
  | .ld64 _ _ _ _ _ => 16#5
  | .ldacq _ _ _ => 28#5
  | .ldacq64 _ _ _ _ _ _ => 24#5
  | .ldl _ _ _ _ _ _ => 16#5
  | .ldacqLong _ _ _ _ _ _ _ => 24#5
  | .vld _ _ _ => 20#5
  | .vld64 _ _ _ _ => 16#5
  | .vldl _ _ _ _ _ => 16#5
  | .vldb _ _ _ => 20#5
  | .vldb64 _ _ _ _ => 16#5
  | .vldx _ _ _ _ _ _ => 16#5
  | .tld _ _ _ _ _ _ _ => 16#5
  | .pref _ _ _ => 4#5
  | .st _ _ _ => 4#5
  | .strel _ _ _ => 12#5
  | .strel64 _ _ _ _ _ => 8#5
  | .vst _ _ _ => 4#5
  | .vstm _ _ _ => 4#5
  | .aout _ _ _ _ _ _ _ => 3#5
  | .aouts _ _ _ _ _ _ _ => 3#5
  | .cpy _ _ _ _ => 16#5
  | .cpys _ _ _ => 16#5
  | .cpacc _ _ _ _ _ _ => 16#5
  | .cpswap _ _ _ _ _ => 16#5
  | .cpcas _ _ _ _ _ _ => 16#5
  | .cpsend _ => 16#5
  | .cparr _ _ _ _ => 8#5
  | .cpcoll _ => 16#5
  | .cprel _ _ _ => 8#5
  | .vadd _ _ _ _ => 3#5
  | .vadd64 _ _ _ _ => 3#5
  | .vsub _ _ _ _ => 3#5
  | .vsub64 _ _ _ _ => 3#5
  | .vmul _ _ _ _ => 3#5
  | .vmul64 _ _ _ _ => 3#5
  | .vfma _ _ _ _ _ => 3#5
  | .vfms _ _ _ _ _ => 3#5
  | .viadd _ _ _ _ => 2#5
  | .viadd64 _ _ _ _ => 2#5
  | .visub _ _ _ _ => 2#5
  | .visub64 _ _ _ _ => 2#5
  | .vimul _ _ _ _ => 2#5
  | .vimul64 _ _ _ _ => 2#5
  | .vredadd _ _ k _ => acc5 (k == 0) true false false false
  | .vredadd64 _ _ e4 _ => acc5 (etFloat e4) true false false false
  | .vscan _ _ k _ => acc5 (k == 0) true false false false
  | .vscan64 _ _ e4 _ => acc5 (etFloat e4) true false false false
  | .vcvt _ _ _ _ _ _ _ => 3#5
  | .vrnd _ _ _ _ _ => 2#5
  | .vpack _ _ _ _ => 2#5
  | _ => 0#5

/-- Whether a slot word has the 64-bit form, its opcode, and its operand bits 63:13 in place (08 R219, R222). -/
def Instr.code : Instr → Bool × BitVec 6 × BitVec 64
  | .nop => (false, 0#6, 0)
  | .br f => (false, 1#6, put f 13)
  | .br64 f => (true, 1#6, put f 13)
  | .bri s => (false, 2#6, put s 13)
  | .call f => (false, 3#6, put f 13)
  | .call64 f => (true, 3#6, put f 13)
  | .calli s => (false, 4#6, put s 13)
  | .ret => (false, 5#6, 0)
  | .loop b ii n vr sr => (true, 6#6, put b 13 ||| put ii 20 ||| put n 27 ||| put vr 33 ||| put sr 39)
  | .loopn b ii n0 n1 n2 n3 vr sr => (true, 7#6, put b 13 ||| put ii 20 ||| put n0 27 ||| put n1 33 ||| put n2 39 ||| put n3 45 ||| put vr 51 ||| put sr 57)
  | .lexit => (false, 8#6, 0)
  | .wait f c => (false, 9#6, put f 13 ||| put c 18)
  | .yield d => (false, 10#6, put d 13)
  | .retire => (false, 11#6, 0)
  | .fmtset r => (false, 12#6, put r 13)
  | .fmtset64 i => (true, 12#6, put i 13)
  | .balset a => (false, 13#6, put a 13)
  | .walset a => (false, 14#6, put a 13)
  | .opset t => (false, 15#6, put t 13)
  | .gjoin g c k => (false, 16#6, put g 13 ||| put c 21 ||| put k 25)
  | .gleave => (false, 17#6, 0)
  | .vjoin => (false, 18#6, 0)
  | .qmark s => (false, 19#6, put s 13)
  | .fence s => (false, 20#6, put s 13)
  | .fencep d => (false, 21#6, put d 13)
  | .txbegin a => (false, 22#6, put a 13)
  | .txcommit d k a => (false, 23#6, put d 13 ||| put k 19 ||| put a 22)
  | .txabort => (false, 24#6, 0)
  | .snapnew d k a => (false, 25#6, put d 13 ||| put k 19 ||| put a 22)
  | .snapset s k a => (false, 26#6, put s 13 ||| put k 19 ||| put a 22)
  | .snapdrop s k a => (false, 27#6, put s 13 ||| put k 19 ||| put a 22)
  | .trap c => (false, 28#6, put c 13)
  | .eret => (false, 29#6, 0)
  | .sysc f v => (false, 30#6, put f 13 ||| put v 18)
  | .crd d r => (false, 31#6, put d 13 ||| put r 19)
  | .cwr s r => (false, 32#6, put s 13 ||| put r 19)
  | .bkpt => (false, 33#6, 0)
  | .add d a b => (false, 0#6, put d 13 ||| put a 19 ||| put b 25)
  | .sub d a b => (false, 1#6, put d 13 ||| put a 19 ||| put b 25)
  | .mul d a b => (false, 3#6, put d 13 ||| put a 19 ||| put b 25)
  | .mulh d a b => (false, 4#6, put d 13 ||| put a 19 ||| put b 25)
  | .mulhn d a b => (false, 5#6, put d 13 ||| put a 19 ||| put b 25)
  | .div d a b => (false, 6#6, put d 13 ||| put a 19 ||| put b 25)
  | .divn d a b => (false, 7#6, put d 13 ||| put a 19 ||| put b 25)
  | .rem d a b => (false, 8#6, put d 13 ||| put a 19 ||| put b 25)
  | .remn d a b => (false, 9#6, put d 13 ||| put a 19 ||| put b 25)
  | .and d a b => (false, 10#6, put d 13 ||| put a 19 ||| put b 25)
  | .or d a b => (false, 11#6, put d 13 ||| put a 19 ||| put b 25)
  | .xor d a b => (false, 12#6, put d 13 ||| put a 19 ||| put b 25)
  | .andn d a b => (false, 13#6, put d 13 ||| put a 19 ||| put b 25)
  | .shl d a b => (false, 14#6, put d 13 ||| put a 19 ||| put b 25)
  | .shr d a b => (false, 15#6, put d 13 ||| put a 19 ||| put b 25)
  | .sar d a b => (false, 16#6, put d 13 ||| put a 19 ||| put b 25)
  | .rol d a b => (false, 17#6, put d 13 ||| put a 19 ||| put b 25)
  | .min d a b => (false, 18#6, put d 13 ||| put a 19 ||| put b 25)
  | .max d a b => (false, 19#6, put d 13 ||| put a 19 ||| put b 25)
  | .minn d a b => (false, 20#6, put d 13 ||| put a 19 ||| put b 25)
  | .maxn d a b => (false, 21#6, put d 13 ||| put a 19 ||| put b 25)
  | .addi d a i => (false, 2#6, put d 13 ||| put a 19 ||| put i 25)
  | .addi64 d a i => (true, 2#6, put d 13 ||| put a 19 ||| put i 25)
  | .clz d a => (false, 22#6, put d 13 ||| put a 19)
  | .ctz d a => (false, 23#6, put d 13 ||| put a 19)
  | .popc d a => (false, 24#6, put d 13 ||| put a 19)
  | .mov d a => (false, 29#6, put d 13 ||| put a 19)
  | .bfx d a o l => (true, 25#6, put d 13 ||| put a 19 ||| put o 25 ||| put l 31)
  | .bfxs d a o l => (true, 26#6, put d 13 ||| put a 19 ||| put o 25 ||| put l 31)
  | .bfi d a o l => (true, 27#6, put d 13 ||| put a 19 ||| put o 25 ||| put l 31)
  | .sel d a b k => (true, 28#6, put d 13 ||| put a 19 ||| put b 25 ||| put k 31)
  | .movi d i => (false, 30#6, put d 13 ||| put i 19)
  | .movi64 d i => (true, 30#6, put d 13 ||| put i 19)
  | .addx d a b s => (false, 31#6, put d 13 ||| put a 19 ||| put b 25 ||| put s 31)
  | .addx64 d a b h x => (true, 31#6, put d 13 ||| put a 19 ||| put b 25 ||| put h 31 ||| put x 37)
  | .cmp c a b k => (false, 32#6, put c 13 ||| put a 17 ||| put b 23 ||| put k 29)
  | .cmp64 c a b k => (true, 32#6, put c 13 ||| put a 17 ||| put b 23 ||| put k 29)
  | .cmpi c a k i => (false, 33#6, put c 13 ||| put a 17 ||| put k 23 ||| put i 26)
  | .cmpi64 c a k i => (true, 33#6, put c 13 ||| put a 17 ||| put k 23 ||| put i 27)
  | .fadd d a b => (false, 34#6, put d 13 ||| put a 19 ||| put b 25)
  | .fsub d a b => (false, 35#6, put d 13 ||| put a 19 ||| put b 25)
  | .fmul d a b => (false, 36#6, put d 13 ||| put a 19 ||| put b 25)
  | .ffma d a b c => (true, 37#6, put d 13 ||| put a 19 ||| put b 25 ||| put c 31)
  | .fmin d a b => (false, 38#6, put d 13 ||| put a 19 ||| put b 25)
  | .fmax d a b => (false, 39#6, put d 13 ||| put a 19 ||| put b 25)
  | .fcmp c a b k => (false, 40#6, put c 13 ||| put a 17 ||| put b 23 ||| put k 29)
  | .fcmp64 c a b k => (true, 40#6, put c 13 ||| put a 17 ||| put b 23 ||| put k 29)
  | .cvtf d a sf df => (true, 41#6, put d 13 ||| put a 19 ||| put sf 25 ||| put df 29)
  | .aird d j f => (false, 42#6, put d 13 ||| put j 19 ||| put f 23)
  | .aiwr s j f => (false, 43#6, put s 13 ||| put j 19 ||| put f 23)
  | .rng d => (false, 44#6, put d 13)
  | .ld d b i => (false, 0#6, put d 13 ||| put b 19 ||| put i 25)
  | .ld64 d b i z x => (true, 0#6, put d 13 ||| put b 23 ||| put i 30 ||| put z 56 ||| put x 58)
  | .ldacq d b i => (false, 1#6, put d 13 ||| put b 19 ||| put i 25)
  | .ldacq64 d b i z x s => (true, 1#6, put d 13 ||| put b 23 ||| put i 30 ||| put z 56 ||| put x 58 ||| put s 59)
  | .ldl d b z x a i => (true, 2#6, put d 13 ||| put b 19 ||| put z 26 ||| put x 28 ||| put a 33 ||| put i 45)
  | .ldacqLong d b z x s a i => (true, 2#6, put d 13 ||| put b 19 ||| put z 26 ||| put x 28 ||| put s 30 ||| put a 33 ||| put i 45 ||| put 1#1 29)
  | .vld d b i => (false, 3#6, put d 13 ||| put b 19 ||| put i 25)
  | .vld64 d b i g => (true, 3#6, put d 13 ||| put b 23 ||| put i 30 ||| put g 56)
  | .vldl d b g a i => (true, 4#6, put d 13 ||| put b 23 ||| put g 30 ||| put a 38 ||| put i 50)
  | .vldb d b i => (false, 5#6, put d 13 ||| put b 19 ||| put i 25)
  | .vldb64 d b i g => (true, 5#6, put d 13 ||| put b 23 ||| put i 30 ||| put g 56)
  | .vldx d x b g s m => (true, 6#6, put d 13 ||| put x 23 ||| put b 33 ||| put g 40 ||| put s 48 ||| put m 50)
  | .tld d b g s r t w => (true, 7#6, put d 13 ||| put b 23 ||| put g 30 ||| put s 38 ||| put r 52 ||| put t 57 ||| put w 58)
  | .pref c b i => (false, 8#6, put c 13 ||| put b 19 ||| put i 25)
  | .st d b i => (false, 0#6, put d 13 ||| put b 19 ||| put i 25)
  | .st64 d b i z => (true, 0#6, put d 13 ||| put b 23 ||| put i 30 ||| put z 56)
  | .strel d b i => (false, 1#6, put d 13 ||| put b 19 ||| put i 25)
  | .strel64 d b i z s => (true, 1#6, put d 13 ||| put b 23 ||| put i 30 ||| put z 56 ||| put s 58)
  | .vst d b i => (false, 2#6, put d 13 ||| put b 19 ||| put i 25)
  | .vst64 d b i g => (true, 2#6, put d 13 ||| put b 23 ||| put i 30 ||| put g 56)
  | .vstm d b i => (false, 3#6, put d 13 ||| put b 19 ||| put i 25)
  | .vstm64 d b i m l => (true, 3#6, put d 13 ||| put b 23 ||| put i 30 ||| put m 56 ||| put l 60)
  | .vstx d x b g s m => (true, 4#6, put d 13 ||| put x 23 ||| put b 33 ||| put g 40 ||| put s 48 ||| put m 50)
  | .tst d b g s r => (true, 5#6, put d 13 ||| put b 23 ||| put g 30 ||| put s 38 ||| put r 52)
  | .ald b k n t l => (true, 0#6, put b 13 ||| put k 20 ||| put n 29 ||| put t 35 ||| put l 36)
  | .alds b k n t l => (true, 1#6, put b 13 ||| put k 20 ||| put n 29 ||| put t 35 ||| put l 36)
  | .aswap => (false, 2#6, 0)
  | .azero t => (false, 3#6, put t 13)
  | .amm b r k o n c w l y z => (true, 4#6, put b 13 ||| put r 20 ||| put k 32 ||| put o 41 ||| put n 49 ||| put c 50 ||| put w 51 ||| put l 53 ||| put y 54 ||| put z 56)
  | .amms b r k o n c w l y z => (true, 5#6, put b 13 ||| put r 20 ||| put k 32 ||| put o 41 ||| put n 49 ||| put c 50 ||| put w 51 ||| put l 53 ||| put y 54 ||| put z 56)
  | .aeval b r o n c => (true, 6#6, put b 13 ||| put r 20 ||| put o 51 ||| put n 59 ||| put c 60)
  | .abwd b r z q o c => (true, 7#6, put b 13 ||| put r 20 ||| put z 32 ||| put q 39 ||| put o 51 ||| put c 60)
  | .agrad b r z q c => (true, 8#6, put b 13 ||| put r 20 ||| put z 32 ||| put q 39 ||| put c 60)
  | .aupd a r => (false, 9#6, put a 13 ||| put r 19)
  | .amode m b c g => (false, 10#6, put m 13 ||| put b 14 ||| put c 16 ||| put g 18)
  | .aknot b d => (false, 11#6, put b 13 ||| put d 19)
  | .arefine => (false, 12#6, 0)
  | .aextend l u => (false, 13#6, put l 13 ||| put u 17)
  | .aout d g s o m e8 c => (true, 14#6, put d 13 ||| put g 23 ||| put s 26 ||| put o 28 ||| put m 36 ||| put e8 42 ||| put c 50)
  | .aouts b r s o m e8 c => (true, 15#6, put b 13 ||| put r 20 ||| put s 32 ||| put o 34 ||| put m 42 ||| put e8 48 ||| put c 56)
  | .aoog d c => (false, 16#6, put d 13 ||| put c 19)
  | .agout d g o q c => (true, 17#6, put d 13 ||| put g 23 ||| put o 26 ||| put q 32 ||| put c 37)
  | .acout d g o q p => (true, 18#6, put d 13 ||| put g 23 ||| put o 26 ||| put q 32 ||| put p 37)
  | .scale a s f n => (false, 0#6, put a 13 ||| put s 19 ||| put f 20 ||| put n 24)
  | .scx a f n => (false, 1#6, put a 13 ||| put f 20 ||| put n 24)
  | .sckey a => (false, 2#6, put a 13)
  | .cpy b a r n => (true, 0#6, put b 13 ||| put a 19 ||| put r 25 ||| put n 31)
  | .cpys b a r => (true, 1#6, put b 13 ||| put a 19 ||| put r 25)
  | .cpacc b a r n o t => (true, 2#6, put b 13 ||| put a 19 ||| put r 25 ||| put n 31 ||| put o 51 ||| put t 54)
  | .cpswap d b v w a => (true, 3#6, put d 13 ||| put b 19 ||| put v 25 ||| put w 37 ||| put a 38)
  | .cpcas d b v c w a => (true, 4#6, put d 13 ||| put b 19 ||| put v 25 ||| put c 31 ||| put w 37 ||| put a 38)
  | .cpsend a => (false, 5#6, put a 13)
  | .cpfill b a r n => (true, 6#6, put b 13 ||| put a 19 ||| put r 25 ||| put n 31)
  | .cpbinit b a => (false, 7#6, put b 13 ||| put a 19)
  | .cparr b r i s => (false, 8#6, put b 13 ||| put r 19 ||| put i 25 ||| put s 26)
  | .cpcoll b => (false, 9#6, put b 13)
  | .cprel a b s => (false, 10#6, put a 13 ||| put b 19 ||| put s 25)
  | .cpstat d a => (false, 11#6, put d 13 ||| put a 19)
  | .pand d a b g k => (false, 0#6, put d 13 ||| put a 17 ||| put b 21 ||| put g 25 ||| put k 28)
  | .por d a b g k => (false, 1#6, put d 13 ||| put a 17 ||| put b 21 ||| put g 25 ||| put k 28)
  | .pxor d a b g k => (false, 2#6, put d 13 ||| put a 17 ||| put b 21 ||| put g 25 ||| put k 28)
  | .pandn d a b g k => (false, 3#6, put d 13 ||| put a 17 ||| put b 21 ||| put g 25 ||| put k 28)
  | .pnot d a g k => (false, 4#6, put d 13 ||| put a 17 ||| put g 25 ||| put k 28)
  | .pmov d a g k => (false, 5#6, put d 13 ||| put a 17 ||| put g 25 ||| put k 28)
  | .psetk k a g c => (false, 6#6, put k 13 ||| put a 17 ||| put g 21 ||| put c 24)
  | .pcnt d a g => (false, 7#6, put d 13 ||| put a 19 ||| put g 23)
  | .pfirst d a g => (false, 8#6, put d 13 ||| put a 17 ||| put g 21)
  | .pktom d a g => (false, 9#6, put d 13 ||| put a 17 ||| put g 21)
  | .vadd d a b et => (false, 0#6, put d 13 ||| put a 19 ||| put b 25 ||| put et 31)
  | .vadd64 d a b e4 => (true, 0#6, put d 13 ||| put a 23 ||| put b 33 ||| put e4 53)
  | .vsub d a b et => (false, 1#6, put d 13 ||| put a 19 ||| put b 25 ||| put et 31)
  | .vsub64 d a b e4 => (true, 1#6, put d 13 ||| put a 23 ||| put b 33 ||| put e4 53)
  | .vmul d a b et => (false, 2#6, put d 13 ||| put a 19 ||| put b 25 ||| put et 31)
  | .vmul64 d a b e4 => (true, 2#6, put d 13 ||| put a 23 ||| put b 33 ||| put e4 53)
  | .vfma d a b c e4 => (true, 3#6, put d 13 ||| put a 23 ||| put b 33 ||| put c 43 ||| put e4 53)
  | .vfms d a b c e4 => (true, 4#6, put d 13 ||| put a 23 ||| put b 33 ||| put c 43 ||| put e4 53)
  | .vmin d a b et => (false, 5#6, put d 13 ||| put a 19 ||| put b 25 ||| put et 31)
  | .vmin64 d a b e4 => (true, 5#6, put d 13 ||| put a 23 ||| put b 33 ||| put e4 53)
  | .vmax d a b et => (false, 6#6, put d 13 ||| put a 19 ||| put b 25 ||| put et 31)
  | .vmax64 d a b e4 => (true, 6#6, put d 13 ||| put a 23 ||| put b 33 ||| put e4 53)
  | .vabs d a et => (false, 7#6, put d 13 ||| put a 19 ||| put et 31)
  | .vabs64 d a e4 => (true, 7#6, put d 13 ||| put a 23 ||| put e4 53)
  | .vneg d a et => (false, 8#6, put d 13 ||| put a 19 ||| put et 31)
  | .vneg64 d a e4 => (true, 8#6, put d 13 ||| put a 23 ||| put e4 53)
  | .vrcp d a et => (false, 9#6, put d 13 ||| put a 19 ||| put et 31)
  | .vrcp64 d a e4 => (true, 9#6, put d 13 ||| put a 23 ||| put e4 53)
  | .vrsq d a et => (false, 10#6, put d 13 ||| put a 19 ||| put et 31)
  | .vrsq64 d a e4 => (true, 10#6, put d 13 ||| put a 23 ||| put e4 53)
  | .vsqrt d a et => (false, 11#6, put d 13 ||| put a 19 ||| put et 31)
  | .vsqrt64 d a e4 => (true, 11#6, put d 13 ||| put a 23 ||| put e4 53)
  | .vexp2 d a et => (false, 12#6, put d 13 ||| put a 19 ||| put et 31)
  | .vexp264 d a e4 => (true, 12#6, put d 13 ||| put a 23 ||| put e4 53)
  | .vlog2 d a et => (false, 13#6, put d 13 ||| put a 19 ||| put et 31)
  | .vlog264 d a e4 => (true, 13#6, put d 13 ||| put a 23 ||| put e4 53)
  | .vsin d a et => (false, 14#6, put d 13 ||| put a 19 ||| put et 31)
  | .vsin64 d a e4 => (true, 14#6, put d 13 ||| put a 23 ||| put e4 53)
  | .vcos d a et => (false, 15#6, put d 13 ||| put a 19 ||| put et 31)
  | .vcos64 d a e4 => (true, 15#6, put d 13 ||| put a 23 ||| put e4 53)
  | .vtanh d a et => (false, 16#6, put d 13 ||| put a 19 ||| put et 31)
  | .vtanh64 d a e4 => (true, 16#6, put d 13 ||| put a 23 ||| put e4 53)
  | .vsigm d a et => (false, 17#6, put d 13 ||| put a 19 ||| put et 31)
  | .vsigm64 d a e4 => (true, 17#6, put d 13 ||| put a 23 ||| put e4 53)
  | .vsilu d a et => (false, 18#6, put d 13 ||| put a 19 ||| put et 31)
  | .vsilu64 d a e4 => (true, 18#6, put d 13 ||| put a 23 ||| put e4 53)
  | .vand d a b => (false, 19#6, put d 13 ||| put a 19 ||| put b 25)
  | .vand64 d a b => (true, 19#6, put d 13 ||| put a 23 ||| put b 33)
  | .vor d a b => (false, 20#6, put d 13 ||| put a 19 ||| put b 25)
  | .vor64 d a b => (true, 20#6, put d 13 ||| put a 23 ||| put b 33)
  | .vxor d a b => (false, 21#6, put d 13 ||| put a 19 ||| put b 25)
  | .vxor64 d a b => (true, 21#6, put d 13 ||| put a 23 ||| put b 33)
  | .vnot d a => (false, 22#6, put d 13 ||| put a 19)
  | .vnot64 d a => (true, 22#6, put d 13 ||| put a 23)
  | .vshl d a b et => (false, 23#6, put d 13 ||| put a 19 ||| put b 25 ||| put et 31)
  | .vshl64 d a b e4 => (true, 23#6, put d 13 ||| put a 23 ||| put b 33 ||| put e4 53)
  | .vshr d a b et => (false, 24#6, put d 13 ||| put a 19 ||| put b 25 ||| put et 31)
  | .vshr64 d a b e4 => (true, 24#6, put d 13 ||| put a 23 ||| put b 33 ||| put e4 53)
  | .vsar d a b et => (false, 25#6, put d 13 ||| put a 19 ||| put b 25 ||| put et 31)
  | .vsar64 d a b e4 => (true, 25#6, put d 13 ||| put a 23 ||| put b 33 ||| put e4 53)
  | .viadd d a b et => (false, 26#6, put d 13 ||| put a 19 ||| put b 25 ||| put et 31)
  | .viadd64 d a b e4 => (true, 26#6, put d 13 ||| put a 23 ||| put b 33 ||| put e4 53)
  | .visub d a b et => (false, 27#6, put d 13 ||| put a 19 ||| put b 25 ||| put et 31)
  | .visub64 d a b e4 => (true, 27#6, put d 13 ||| put a 23 ||| put b 33 ||| put e4 53)
  | .vimul d a b et => (false, 28#6, put d 13 ||| put a 19 ||| put b 25 ||| put et 31)
  | .vimul64 d a b e4 => (true, 28#6, put d 13 ||| put a 23 ||| put b 33 ||| put e4 53)
  | .vimin d a b et => (false, 29#6, put d 13 ||| put a 19 ||| put b 25 ||| put et 31)
  | .vimin64 d a b e4 => (true, 29#6, put d 13 ||| put a 23 ||| put b 33 ||| put e4 53)
  | .vimax d a b et => (false, 30#6, put d 13 ||| put a 19 ||| put b 25 ||| put et 31)
  | .vimax64 d a b e4 => (true, 30#6, put d 13 ||| put a 23 ||| put b 33 ||| put e4 53)
  | .vcmp m a b c => (false, 31#6, put m 13 ||| put a 17 ||| put b 23 ||| put c 29)
  | .vcmp64 m c a b e4 p => (true, 31#6, put m 13 ||| put c 17 ||| put a 20 ||| put b 30 ||| put e4 40 ||| put p 44)
  | .vicmp m a b c => (false, 32#6, put m 13 ||| put a 17 ||| put b 23 ||| put c 29)
  | .vicmp64 m c a b e4 p => (true, 32#6, put m 13 ||| put c 17 ||| put a 20 ||| put b 30 ||| put e4 40 ||| put p 44)
  | .vsel d a b m => (true, 33#6, put d 13 ||| put a 23 ||| put b 33 ||| put m 43)
  | .vmov d a => (false, 34#6, put d 13 ||| put a 19)
  | .vmov64 d a => (true, 34#6, put d 13 ||| put a 23)
  | .vsplat d s w => (false, 35#6, put d 13 ||| put s 19 ||| put w 25)
  | .vsplat64 d i w => (true, 35#6, put d 13 ||| put i 23 ||| put w 55)
  | .viota d s t w g => (false, 36#6, put d 13 ||| put s 19 ||| put t 25 ||| put w 29 ||| put g 31)
  | .vperm d a b et => (false, 37#6, put d 13 ||| put a 19 ||| put b 25 ||| put et 31)
  | .vperm64 d a b e4 => (true, 37#6, put d 13 ||| put a 23 ||| put b 33 ||| put e4 53)
  | .vxcp d a g => (false, 38#6, put d 13 ||| put a 19 ||| put g 25)
  | .vxcp64 d a g => (true, 38#6, put d 13 ||| put a 23 ||| put g 33)
  | .vredadd d a k et => (false, 39#6, put d 13 ||| put a 19 ||| put k 25 ||| put et 31)
  | .vredadd64 d a e4 w => (true, 39#6, put d 13 ||| put a 23 ||| put e4 53 ||| put w 57)
  | .vredmax d a k et => (false, 40#6, put d 13 ||| put a 19 ||| put k 25 ||| put et 31)
  | .vredmax64 d a e4 => (true, 40#6, put d 13 ||| put a 23 ||| put e4 53)
  | .vredmin d a k et => (false, 41#6, put d 13 ||| put a 19 ||| put k 25 ||| put et 31)
  | .vredmin64 d a e4 => (true, 41#6, put d 13 ||| put a 23 ||| put e4 53)
  | .vscan d a k et => (false, 42#6, put d 13 ||| put a 19 ||| put k 25 ||| put et 31)
  | .vscan64 d a e4 x => (true, 42#6, put d 13 ||| put a 23 ||| put e4 53 ||| put x 57)
  | .vcompress d a s z => (false, 43#6, put d 13 ||| put a 19 ||| put s 25 ||| put z 31)
  | .vcompress64 d a s z e4 => (true, 43#6, put d 13 ||| put a 23 ||| put s 33 ||| put z 39 ||| put e4 40)
  | .vexpand d a s z => (false, 44#6, put d 13 ||| put a 19 ||| put s 25 ||| put z 31)
  | .vexpand64 d a s z e4 => (true, 44#6, put d 13 ||| put a 23 ||| put s 33 ||| put z 39 ||| put e4 40)
  | .vcvt d a sf df p m x => (true, 45#6, put d 13 ||| put a 23 ||| put sf 33 ||| put df 37 ||| put p 41 ||| put m 44 ||| put x 50)
  | .vrnd d a sf tf r => (true, 46#6, put d 13 ||| put a 23 ||| put sf 33 ||| put tf 37 ||| put r 41)
  | .vrng d k => (false, 47#6, put d 13 ||| put k 19)
  | .vpack d a b sf => (true, 48#6, put d 13 ||| put a 23 ||| put b 33 ||| put sf 43)
  | .vunpk d a sf df p s => (true, 49#6, put d 13 ||| put a 23 ||| put sf 33 ||| put df 37 ||| put p 41 ||| put s 44)
  | .vspcomp d a x m sf => (true, 50#6, put d 13 ||| put a 23 ||| put x 33 ||| put m 43 ||| put sf 47)
  | .vblkscl d a b o df p => (true, 51#6, put d 13 ||| put a 23 ||| put b 33 ||| put o 43 ||| put df 45 ||| put p 49)
  | _ => (false, 0#6, 0)

/-- The class of slot positions a slot word may stand in (08 R217): its letter's first position and the number of them. -/
def Instr.slots : Instr → Nat × Nat
  | .nop => (0, 1)
  | .br _ => (0, 1)
  | .br64 _ => (0, 1)
  | .bri _ => (0, 1)
  | .call _ => (0, 1)
  | .call64 _ => (0, 1)
  | .calli _ => (0, 1)
  | .ret => (0, 1)
  | .loop _ _ _ _ _ => (0, 1)
  | .loopn _ _ _ _ _ _ _ _ => (0, 1)
  | .lexit => (0, 1)
  | .wait _ _ => (0, 1)
  | .yield _ => (0, 1)
  | .retire => (0, 1)
  | .fmtset _ => (0, 1)
  | .fmtset64 _ => (0, 1)
  | .balset _ => (0, 1)
  | .walset _ => (0, 1)
  | .opset _ => (0, 1)
  | .gjoin _ _ _ => (0, 1)
  | .gleave => (0, 1)
  | .vjoin => (0, 1)
  | .qmark _ => (0, 1)
  | .fence _ => (0, 1)
  | .fencep _ => (0, 1)
  | .txbegin _ => (0, 1)
  | .txcommit _ _ _ => (0, 1)
  | .txabort => (0, 1)
  | .snapnew _ _ _ => (0, 1)
  | .snapset _ _ _ => (0, 1)
  | .snapdrop _ _ _ => (0, 1)
  | .trap _ => (0, 1)
  | .eret => (0, 1)
  | .sysc _ _ => (0, 1)
  | .crd _ _ => (0, 1)
  | .cwr _ _ => (0, 1)
  | .bkpt => (0, 1)
  | .add _ _ _ => (1, 2)
  | .sub _ _ _ => (1, 2)
  | .mul _ _ _ => (1, 2)
  | .mulh _ _ _ => (1, 2)
  | .mulhn _ _ _ => (1, 2)
  | .div _ _ _ => (1, 2)
  | .divn _ _ _ => (1, 2)
  | .rem _ _ _ => (1, 2)
  | .remn _ _ _ => (1, 2)
  | .and _ _ _ => (1, 2)
  | .or _ _ _ => (1, 2)
  | .xor _ _ _ => (1, 2)
  | .andn _ _ _ => (1, 2)
  | .shl _ _ _ => (1, 2)
  | .shr _ _ _ => (1, 2)
  | .sar _ _ _ => (1, 2)
  | .rol _ _ _ => (1, 2)
  | .min _ _ _ => (1, 2)
  | .max _ _ _ => (1, 2)
  | .minn _ _ _ => (1, 2)
  | .maxn _ _ _ => (1, 2)
  | .addi _ _ _ => (1, 2)
  | .addi64 _ _ _ => (1, 2)
  | .clz _ _ => (1, 2)
  | .ctz _ _ => (1, 2)
  | .popc _ _ => (1, 2)
  | .mov _ _ => (1, 2)
  | .bfx _ _ _ _ => (1, 2)
  | .bfxs _ _ _ _ => (1, 2)
  | .bfi _ _ _ _ => (1, 2)
  | .sel _ _ _ _ => (1, 2)
  | .movi _ _ => (1, 2)
  | .movi64 _ _ => (1, 2)
  | .addx _ _ _ _ => (1, 2)
  | .addx64 _ _ _ _ _ => (1, 2)
  | .cmp _ _ _ _ => (1, 2)
  | .cmp64 _ _ _ _ => (1, 2)
  | .cmpi _ _ _ _ => (1, 2)
  | .cmpi64 _ _ _ _ => (1, 2)
  | .fadd _ _ _ => (1, 2)
  | .fsub _ _ _ => (1, 2)
  | .fmul _ _ _ => (1, 2)
  | .ffma _ _ _ _ => (1, 2)
  | .fmin _ _ _ => (1, 2)
  | .fmax _ _ _ => (1, 2)
  | .fcmp _ _ _ _ => (1, 2)
  | .fcmp64 _ _ _ _ => (1, 2)
  | .cvtf _ _ _ _ => (1, 2)
  | .aird _ _ _ => (1, 2)
  | .aiwr _ _ _ => (1, 2)
  | .rng _ => (1, 2)
  | .ld _ _ _ => (3, 1)
  | .ld64 _ _ _ _ _ => (3, 1)
  | .ldacq _ _ _ => (3, 1)
  | .ldacq64 _ _ _ _ _ _ => (3, 1)
  | .ldl _ _ _ _ _ _ => (3, 1)
  | .ldacqLong _ _ _ _ _ _ _ => (3, 1)
  | .vld _ _ _ => (3, 1)
  | .vld64 _ _ _ _ => (3, 1)
  | .vldl _ _ _ _ _ => (3, 1)
  | .vldb _ _ _ => (3, 1)
  | .vldb64 _ _ _ _ => (3, 1)
  | .vldx _ _ _ _ _ _ => (3, 1)
  | .tld _ _ _ _ _ _ _ => (3, 1)
  | .pref _ _ _ => (3, 1)
  | .st _ _ _ => (4, 1)
  | .st64 _ _ _ _ => (4, 1)
  | .strel _ _ _ => (4, 1)
  | .strel64 _ _ _ _ _ => (4, 1)
  | .vst _ _ _ => (4, 1)
  | .vst64 _ _ _ _ => (4, 1)
  | .vstm _ _ _ => (4, 1)
  | .vstm64 _ _ _ _ _ => (4, 1)
  | .vstx _ _ _ _ _ _ => (4, 1)
  | .tst _ _ _ _ _ => (4, 1)
  | .ald _ _ _ _ _ => (5, 1)
  | .alds _ _ _ _ _ => (5, 1)
  | .aswap => (5, 1)
  | .azero _ => (5, 1)
  | .amm _ _ _ _ _ _ _ _ _ _ => (5, 1)
  | .amms _ _ _ _ _ _ _ _ _ _ => (5, 1)
  | .aeval _ _ _ _ _ => (5, 1)
  | .abwd _ _ _ _ _ _ => (5, 1)
  | .agrad _ _ _ _ _ => (5, 1)
  | .aupd _ _ => (5, 1)
  | .amode _ _ _ _ => (5, 1)
  | .aknot _ _ => (5, 1)
  | .arefine => (5, 1)
  | .aextend _ _ => (5, 1)
  | .aout _ _ _ _ _ _ _ => (5, 1)
  | .aouts _ _ _ _ _ _ _ => (5, 1)
  | .aoog _ _ => (5, 1)
  | .agout _ _ _ _ _ => (5, 1)
  | .acout _ _ _ _ _ => (5, 1)
  | .scale _ _ _ _ => (6, 1)
  | .scx _ _ _ => (6, 1)
  | .sckey _ => (6, 1)
  | .cpy _ _ _ _ => (7, 1)
  | .cpys _ _ _ => (7, 1)
  | .cpacc _ _ _ _ _ _ => (7, 1)
  | .cpswap _ _ _ _ _ => (7, 1)
  | .cpcas _ _ _ _ _ _ => (7, 1)
  | .cpsend _ => (7, 1)
  | .cpfill _ _ _ _ => (7, 1)
  | .cpbinit _ _ => (7, 1)
  | .cparr _ _ _ _ => (7, 1)
  | .cpcoll _ => (7, 1)
  | .cprel _ _ _ => (7, 1)
  | .cpstat _ _ => (7, 1)
  | .pand _ _ _ _ _ => (8, 1)
  | .por _ _ _ _ _ => (8, 1)
  | .pxor _ _ _ _ _ => (8, 1)
  | .pandn _ _ _ _ _ => (8, 1)
  | .pnot _ _ _ _ => (8, 1)
  | .pmov _ _ _ _ => (8, 1)
  | .psetk _ _ _ _ => (8, 1)
  | .pcnt _ _ _ => (8, 1)
  | .pfirst _ _ _ => (8, 1)
  | .pktom _ _ _ => (8, 1)
  | .vadd _ _ _ _ => (9, 8)
  | .vadd64 _ _ _ _ => (9, 8)
  | .vsub _ _ _ _ => (9, 8)
  | .vsub64 _ _ _ _ => (9, 8)
  | .vmul _ _ _ _ => (9, 8)
  | .vmul64 _ _ _ _ => (9, 8)
  | .vfma _ _ _ _ _ => (9, 8)
  | .vfms _ _ _ _ _ => (9, 8)
  | .vmin _ _ _ _ => (9, 8)
  | .vmin64 _ _ _ _ => (9, 8)
  | .vmax _ _ _ _ => (9, 8)
  | .vmax64 _ _ _ _ => (9, 8)
  | .vabs _ _ _ => (9, 8)
  | .vabs64 _ _ _ => (9, 8)
  | .vneg _ _ _ => (9, 8)
  | .vneg64 _ _ _ => (9, 8)
  | .vrcp _ _ _ => (9, 8)
  | .vrcp64 _ _ _ => (9, 8)
  | .vrsq _ _ _ => (9, 8)
  | .vrsq64 _ _ _ => (9, 8)
  | .vsqrt _ _ _ => (9, 8)
  | .vsqrt64 _ _ _ => (9, 8)
  | .vexp2 _ _ _ => (9, 8)
  | .vexp264 _ _ _ => (9, 8)
  | .vlog2 _ _ _ => (9, 8)
  | .vlog264 _ _ _ => (9, 8)
  | .vsin _ _ _ => (9, 8)
  | .vsin64 _ _ _ => (9, 8)
  | .vcos _ _ _ => (9, 8)
  | .vcos64 _ _ _ => (9, 8)
  | .vtanh _ _ _ => (9, 8)
  | .vtanh64 _ _ _ => (9, 8)
  | .vsigm _ _ _ => (9, 8)
  | .vsigm64 _ _ _ => (9, 8)
  | .vsilu _ _ _ => (9, 8)
  | .vsilu64 _ _ _ => (9, 8)
  | .vand _ _ _ => (9, 8)
  | .vand64 _ _ _ => (9, 8)
  | .vor _ _ _ => (9, 8)
  | .vor64 _ _ _ => (9, 8)
  | .vxor _ _ _ => (9, 8)
  | .vxor64 _ _ _ => (9, 8)
  | .vnot _ _ => (9, 8)
  | .vnot64 _ _ => (9, 8)
  | .vshl _ _ _ _ => (9, 8)
  | .vshl64 _ _ _ _ => (9, 8)
  | .vshr _ _ _ _ => (9, 8)
  | .vshr64 _ _ _ _ => (9, 8)
  | .vsar _ _ _ _ => (9, 8)
  | .vsar64 _ _ _ _ => (9, 8)
  | .viadd _ _ _ _ => (9, 8)
  | .viadd64 _ _ _ _ => (9, 8)
  | .visub _ _ _ _ => (9, 8)
  | .visub64 _ _ _ _ => (9, 8)
  | .vimul _ _ _ _ => (9, 8)
  | .vimul64 _ _ _ _ => (9, 8)
  | .vimin _ _ _ _ => (9, 8)
  | .vimin64 _ _ _ _ => (9, 8)
  | .vimax _ _ _ _ => (9, 8)
  | .vimax64 _ _ _ _ => (9, 8)
  | .vcmp _ _ _ _ => (9, 8)
  | .vcmp64 _ _ _ _ _ _ => (9, 8)
  | .vicmp _ _ _ _ => (9, 8)
  | .vicmp64 _ _ _ _ _ _ => (9, 8)
  | .vsel _ _ _ _ => (9, 8)
  | .vmov _ _ => (9, 8)
  | .vmov64 _ _ => (9, 8)
  | .vsplat _ _ _ => (9, 8)
  | .vsplat64 _ _ _ => (9, 8)
  | .viota _ _ _ _ _ => (9, 8)
  | .vperm _ _ _ _ => (9, 8)
  | .vperm64 _ _ _ _ => (9, 8)
  | .vxcp _ _ _ => (9, 8)
  | .vxcp64 _ _ _ => (9, 8)
  | .vredadd _ _ _ _ => (9, 8)
  | .vredadd64 _ _ _ _ => (9, 8)
  | .vredmax _ _ _ _ => (9, 8)
  | .vredmax64 _ _ _ => (9, 8)
  | .vredmin _ _ _ _ => (9, 8)
  | .vredmin64 _ _ _ => (9, 8)
  | .vscan _ _ _ _ => (9, 8)
  | .vscan64 _ _ _ _ => (9, 8)
  | .vcompress _ _ _ _ => (9, 8)
  | .vcompress64 _ _ _ _ _ => (9, 8)
  | .vexpand _ _ _ _ => (9, 8)
  | .vexpand64 _ _ _ _ _ => (9, 8)
  | .vcvt _ _ _ _ _ _ _ => (9, 8)
  | .vrnd _ _ _ _ _ => (9, 8)
  | .vrng _ _ => (9, 8)
  | .vpack _ _ _ _ => (9, 8)
  | .vunpk _ _ _ _ _ _ => (9, 8)
  | .vspcomp _ _ _ _ _ => (9, 8)
  | .vblkscl _ _ _ _ _ _ => (9, 8)
  | _ => (0, 0)

/-! ### Prefixes -/

/-- The kind of a prefix word, bits 5:2 (08 R225). -/
def pfxKind (w : W32) : Nat := (w.extractLsb' 2 4).toNat

/-- A prefix word's own kind and payload (08 R225, R228): none where they are good, else the detail code. -/
def pfxOwn (w : W32) : Option (BitVec 8) :=
  let z (lo n : Nat) : Bool := w.extractLsb' lo n == 0
  match pfxKind w with
  | 0 =>
    if !z 14 18 then some 0x10
    else if w.extractLsb' 6 3 == 7#3 then some 0x16
    else if w.extractLsb' 6 3 != 5#3 && !z 9 5 then some 0x16 else none
  | 1 =>
    if w.extractLsb' 6 2 == 3#2 then some 0x16
    else if w.extractLsb' 6 2 != 2#2 && !z 8 24 then some 0x16 else none
  | 2 => none
  | 3 => if !z 9 23 then some 0x10 else if decide (5 < (w.extractLsb' 6 3).toNat) then some 0x16 else none
  | 4 => if !z 8 24 then some 0x10 else if w.extractLsb' 6 2 == 3#2 then some 0x16 else none
  | _ => some 0x16

/-- A prefix word added to the prefixes before it. -/
def Pfx.add (p : Pfx) (w : W32) : Pfx :=
  match pfxKind w with
  | 0 => { p with rnd := some (w.extractLsb' 6 3, w.extractLsb' 9 5) }
  | 1 => { p with sat := some (w.extractLsb' 6 2, w.extractLsb' 8 24) }
  | 2 => { p with imx := some (w.extractLsb' 6 26) }
  | 3 => { p with sco := some (w.extractLsb' 6 3) }
  | 4 => { p with snp := some (w.extractLsb' 6 2) }
  | _ => p

/-- The prefix words of a slot word, in the assembler's order (08 R233). -/
def Pfx.words (p : Pfx) : List W32 :=
  (match p.rnd with | some (c, r) => [2#32 ||| (c.setWidth 32 <<< 6) ||| (r.setWidth 32 <<< 9)] | none => []) ++
  (match p.sat with | some (m, b) => [6#32 ||| (m.setWidth 32 <<< 6) ||| (b.setWidth 32 <<< 8)] | none => []) ++
  (match p.sco with | some c => [14#32 ||| (c.setWidth 32 <<< 6)] | none => []) ++
  (match p.snp with | some c => [18#32 ||| (c.setWidth 32 <<< 6)] | none => []) ++
  (match p.imx with | some h => [10#32 ||| (h.setWidth 32 <<< 6)] | none => [])

/-- A word that accepts RND but not with code SR (09 R274). -/
def Instr.refusesSR : Instr → Bool
  | .fadd _ _ _ => true
  | .fsub _ _ _ => true
  | .fmul _ _ _ => true
  | .ffma _ _ _ _ => true
  | _ => false

/-- The first prefix of a run, in word order, that the slot word does not accept, with its detail code: an orphan (08 R227:
a kind not accepted, the kind of the prefix it follows, or a third prefix in a row), or SR where `sr` refuses it (09 R274).
`n` counts the prefixes before it. -/
def orphanAt (acc : BitVec 5) (sr : Bool) (prev : Option Nat) (n : Nat) : List W32 → Option (Nat × BitVec 8)
  | [] => none
  | w :: ws =>
    let k := pfxKind w
    if 2 ≤ n || prev == some k || !acc.getLsbD k then some (n, 0x12)
    else if sr && k == 0 && w.extractLsb' 6 3 == 5#3 then some (n, 0x16)
    else orphanAt acc sr (some k) (n + 1) ws

/-- The first bad prefix of a run by its own kind and payload: its place and its detail code. -/
def badPfx (n : Nat) : List W32 → Option (Nat × BitVec 8)
  | [] => none
  | w :: ws => match pfxOwn w with | some d => some (n, d) | none => badPfx (n + 1) ws

/-! ### Encoding -/

/-- The slot word's 64 bits: selector, H, PRED, OP and operands (08 R219). -/
def Instr.word (e : Env) (i : Instr) : BitVec 64 :=
  (if i.code.1 then 1#64 else 0#64) ||| (if e.hold then 4#64 else 0#64) ||| put e.pred 3 ||| put i.code.2.1 7 ||| i.code.2.2

/-- Whether an instruction is a slot word: events have no encoding. -/
def Instr.isWord (i : Instr) : Bool := i.slots.2 != 0

/-- The words of one slot word, prefixes first (08 R218, R236). Empty for an event, which has no encoding. -/
def encode (e : Env) (i : Instr) : List W32 :=
  if i.isWord then
    e.pfx.words ++ ((i.word e).setWidth 32 :: (if i.code.1 then [(i.word e >>> 32).setWidth 32] else []))
  else []

/-! ### One item -/

/-- The prefixes at the front of a list of words. -/
def leadPfx : List W32 → List W32
  | [] => []
  | w :: ws => if w.extractLsb' 0 2 == 2#2 then w :: leadPfx ws else []

/-- One slot word with its prefixes: what it is, or the first fault of R229 as its detail and the place of the faulty
word among the item's words. -/
def decodeItem (pos : BitVec 5) (pfx : List W32) (lo : W32) (hi : W32) : Except (Nat × DErr) Slot :=
  match badPfx 0 pfx with
  | some (n, d) => .error (n, .enc d)
  | none =>
    let f64 := lo.extractLsb' 0 2 == 1#2
    let w : BitVec 64 := if f64 then hi ++ lo else lo.setWidth 64
    let e : Env := ⟨pos, lo.extractLsb' 3 4, lo.getLsbD 2, pfx.foldl Pfx.add Pfx.empty⟩
    match decodeAt e f64 w with
    | .error d => .error (pfx.length, d)
    | .ok i =>
      match orphanAt i.accepts i.refusesSR none 0 pfx with
      | some (n, d) => .error (n, .enc d)
      | none => .ok ⟨e, i⟩

/-- An item read from the front of a list of words, at a slot position. -/
def decodeWords (pos : BitVec 5) (ws : List W32) : Option Slot :=
  let pfx := leadPfx ws
  match ws.drop pfx.length with
  | [] => none
  | lo :: rest => if lo.extractLsb' 0 2 == 3#2 then none else
      match decodeItem pos pfx lo (rest.headD 0) with
      | .ok i => if lo.extractLsb' 0 2 == 1#2 && rest.isEmpty then none else some i
      | .error _ => none

/-! ### Bundles -/

/-- One word of code as the fetch finds it: the word, or the cause and code of the fetch fault (01 R38). -/
inductive Fetch where
  | word (w : W32)
  | fault (cause : BitVec 8) (code : BitVec 16)
  deriving DecidableEq, Repr

/-- The items of a bundle before they are decoded: position, first word index, prefixes, the slot word. -/
structure RawSlot where
  pos : Nat
  idx : Nat
  pfx : List W32
  lo : W32
  hi : W32
  deriving DecidableEq, Repr

/-- What walking a bundle's words gives (08 R218): a fetch fault; or its items, a header met too early with the prefixes
before it, and the word index after the last item. -/
inductive Scan where
  | fault (cause : BitVec 8) (code : BitVec 16)
  | ok (slots : List RawSlot) (early : Option (Nat × List W32)) (len : Nat)
  deriving DecidableEq, Repr

/-- The prefix words from word index `n` on, and the word that ends them; the count stands for the words of the address space. -/
def scanPfx (rd : Nat → Fetch) : Nat → Nat → List W32 → Except (BitVec 8 × BitVec 16) (List W32 × Nat × W32)
  | 0, n, acc => .ok (acc.reverse, n, 3#32)
  | fuel + 1, n, acc =>
    match rd n with
    | .fault c d => .error (c, d)
    | .word w => if w.extractLsb' 0 2 == 2#2 then scanPfx rd fuel (n + 1) (w :: acc) else .ok (acc.reverse, n, w)

/-- The items for the slot positions of `ps`, from word index `n` on. -/
def scanSlots (rd : Nat → Fetch) : List Nat → Nat → List RawSlot → Scan
  | [], n, acc => .ok acc.reverse none n
  | p :: ps, n, acc =>
    match scanPfx rd (2 ^ 50) n [] with
    | .error (c, d) => .fault c d
    | .ok (pfx, m, w) =>
      if w.extractLsb' 0 2 == 3#2 then .ok acc.reverse (some (n, pfx)) m
      else if w.extractLsb' 0 2 == 1#2 then
        match rd (m + 1) with
        | .fault c d => .fault c d
        | .word h => scanSlots rd ps (m + 2) (⟨p, n, pfx, w, h⟩ :: acc)
      else scanSlots rd ps (m + 1) (⟨p, n, pfx, w, 0⟩ :: acc)

/-- The slot positions of a present mask, in increasing order (08 R216). -/
def presentSlots (h : W32) : List Nat := (List.range 17).filter fun n => h.getLsbD (2 + n)

/-- A decoded bundle: header fields, slot words in slot order, and its length in words up to the next header. -/
structure Bundle where
  bw : Nat
  g : Bool
  t : Bool
  words : List Slot
  len : Nat
  deriving DecidableEq, Repr

/-- Why a bundle cannot be issued: a fetch fault; a word that is no header; or the first fault of R229, as cause
ILLEGAL_OPCODE or ILLEGAL_ENCODING with its DETAIL (18 R410). -/
inductive BErr where
  | fetch (cause : BitVec 8) (code : BitVec 16)
  | notHeader
  | opcode (detail : BitVec 16)
  | encoding (detail : BitVec 16)
  deriving DecidableEq, Repr

/-- DETAIL of a fault at word index `n` (18 R410). -/
def detailAt (n : Nat) (d : BitVec 8) : BitVec 16 := BitVec.ofNat 8 n ++ d

/-- A slot fault as the bundle's fault, its item starting at word index `n`. -/
def slotErr (n : Nat) : Nat × DErr → BErr
  | (k, .op o) => .opcode (detailAt (n + k) (BitVec.ofNat 8 o))
  | (k, .enc d) => .encoding (detailAt (n + k) d)

/-- The slot words decoded in slot order; the first fault stops (08 R229). -/
def decodeSlots : List RawSlot → Except BErr (List Slot)
  | [] => .ok []
  | r :: rs =>
    match decodeItem (BitVec.ofNat 5 r.pos) r.pfx r.lo r.hi with
    | .error x => .error (slotErr r.idx x)
    | .ok i => match decodeSlots rs with | .error x => .error x | .ok is => .ok (i :: is)

/-- A bundle whose words `rd` gives by word index from the header on (08 R218, R228, R229), its BW not yet checked. -/
def decodeBundle (rd : Nat → Fetch) : Except BErr Bundle :=
  match rd 0 with
  | .fault c d => .error (.fetch c d)
  | .word h =>
    if h.extractLsb' 0 2 != 3#2 then .error .notHeader else
    match scanSlots rd (presentSlots h) 1 [] with
    | .fault c d => .error (.fetch c d)
    | .ok rs early n =>
      if h.extractLsb' 21 3 != 0#3 then .error (.encoding (detailAt 0 0x10)) else
      match decodeSlots rs with
      | .error x => .error x
      | .ok is =>
        match early with
        | some (k, []) => .error (.encoding (detailAt k 0x11))
        | some (k, pfx) =>
          match badPfx 0 pfx with
          | some (j, d) => .error (.encoding (detailAt (k + j) d))
          | none => .error (.encoding (detailAt k 0x12))
        | none =>
          match rd n with
          | .fault _ _ => .ok ⟨(h.extractLsb' 24 8).toNat, h.getLsbD 20, h.getLsbD 19, is, n⟩
          | .word t =>
            if t.extractLsb' 0 2 == 3#2 then .ok ⟨(h.extractLsb' 24 8).toNat, h.getLsbD 20, h.getLsbD 19, is, n⟩
            else .error (.encoding (detailAt n (if t.extractLsb' 0 2 == 2#2 then 0x12 else 0x11)))

/-- A header word (08 R216). -/
def headerWord (bw : Nat) (g t : Bool) (pm : BitVec 17) : W32 :=
  3#32 ||| (pm.setWidth 32 <<< 2) ||| (if t then 1#32 <<< 19 else 0) ||| (if g then 1#32 <<< 20 else 0) |||
    (BitVec.ofNat 32 bw <<< 24)

/-- The present mask of slot words. -/
def presentMask (is : List Slot) : BitVec 17 := is.foldl (fun m i => m ||| (1#17 <<< i.env.pos.toNat)) 0

/-- A whole bundle's words, from slot words in slot order. -/
def encodeBundle (bw : Nat) (g t : Bool) (is : List Slot) : List W32 :=
  headerWord bw g t (presentMask is) :: is.flatMap fun i => encode i.env i.op

/-- The words of an instruction of `nbits` bits given as one number, first word lowest. -/
def tableWords (nbits w : Nat) : List W32 :=
  (List.range ((nbits + 31) / 32)).map fun k => BitVec.ofNat 32 (w >>> (32 * k))

/-- The slot positions tried for a word given without its position, one for each class, in slot order (08 R217). -/
def tableSlots : List (BitVec 5) := [0, 1, 3, 4, 5, 6, 7, 8, 9]

/-- The instruction read from a slot word given as a number. A slot word's class is fixed by its position and never by
its bits (08 R218), so of the classes that have such a word the first in slot order is taken (log 13). -/
def decodeTableWord (nbits w : Nat) : Option Instr :=
  let ws := (tableWords nbits w)
  let ws := if (ws.headD 0).extractLsb' 0 2 == 1#2 && ws.length == 1 then ws ++ [0#32] else ws
  tableSlots.findSome? fun p => (decodeWords p ws).map Slot.op

end Sys2Proof
end

