-- ==== Sys2Proof/WellFormed.lean ====
section
/-! DEFINITION. Well-formed instructions: the values every field of a slot word may hold (08 R222, R228 and each
description), the positions it may stand in, H, and the prefixes before it. -/

namespace Sys2Proof

/-- The field values an instruction may hold (08 R228 and its own description). -/
def Instr.fieldsOk (e : Env) : Instr → Bool
  | .loop _ _ _ _ sr => decide (sr.toNat ≤ 16)
  | .loopn _ _ _ _ _ _ _ sr => decide (sr.toNat ≤ 16)
  | .fmtset64 i => fmtValueOk i
  | .opset t => t != 0
  | .qmark s => decide (s.toNat ≤ 5)
  | .fence s => decide (s.toNat ≤ 5)
  | .txbegin a => a != 0
  | .txcommit _ _ a => a != 0
  | .snapnew _ _ a => a != 0
  | .snapset _ _ a => a != 0
  | .snapdrop _ _ a => a != 0
  | .crd _ r => cregAssigned r
  | .cwr _ r => cregAssigned r
  | .cmp c _ _ _ => decide (c.toNat ≤ 9)
  | .cmp64 c _ _ _ => decide (c.toNat ≤ 9)
  | .cmpi c _ _ _ => decide (c.toNat ≤ 9)
  | .cmpi64 c _ _ _ => decide (c.toNat ≤ 9)
  | .fadd _ _ _ => noSR e
  | .fsub _ _ _ => noSR e
  | .fmul _ _ _ => noSR e
  | .ffma _ _ _ _ => noSR e
  | .fcmp c _ _ _ => decide (c.toNat ≤ 7)
  | .fcmp64 c _ _ _ => decide (c.toNat ≤ 7)
  | .cvtf _ _ sf df => (cvtfCode sf) && (cvtfCode df)
  | .aird _ _ f => decide (f.toNat ≤ 5)
  | .aiwr _ _ f => decide (f.toNat ≤ 5)
  | .ld64 d b _ z x => (decide (d.toNat < 64)) && (decide (b.toNat < 80)) && (!(x == 1 && z == 3))
  | .ldacq64 d b _ z x s => (decide (d.toNat < 64)) && (decide (b.toNat < 80)) && (!(x == 1 && z == 3)) && (decide (s.toNat ≤ 5))
  | .ldl _ b z x a _ => (decide (b.toNat < 80)) && (!(x == 1 && z == 3)) && (a != 0)
  | .ldacqLong _ b z x s a _ => (decide (b.toNat < 80)) && (!(x == 1 && z == 3)) && (a != 0) && (decide (s.toNat ≤ 5))
  | .vld64 _ b _ g => (decide (b.toNat < 80)) && (g != 0)
  | .vldl _ b g a _ => (decide (b.toNat < 80)) && (g != 0) && (a != 0)
  | .vldb64 _ b _ g => (decide (b.toNat < 80)) && (g != 0)
  | .vldx _ _ b g _ _ => (decide (b.toNat < 80)) && (g != 0)
  | .tld d b g s r t w => (decide (b.toNat < 80)) && (g != 0) && (decide (d.toNat + r.toNat ≤ 1023)) && (tldShape w t r s)
  | .st64 d b _ _ => (decide (d.toNat < 64)) && (decide (b.toNat < 80))
  | .strel64 d b _ _ s => (decide (d.toNat < 64)) && (decide (b.toNat < 80)) && (decide (s.toNat ≤ 5))
  | .vst64 _ b _ g => (decide (b.toNat < 80)) && (g != 0)
  | .vstm64 _ b _ _ l => (decide (b.toNat < 80)) && (decide (l.toNat ≤ 8))
  | .vstx _ _ b g _ _ => (decide (b.toNat < 80)) && (g != 0)
  | .tst d b g _ r => (decide (b.toNat < 80)) && (g != 0) && (decide (d.toNat + r.toNat ≤ 1023))
  | .ald b _ _ t l => (decide (b.toNat < 80)) && (l != 3) && (!(t == 1 && l != 0))
  | .alds b _ _ t l => (decide (b.toNat < 80)) && (l != 3) && (!(t == 1 && l != 0))
  | .azero t => decide (t.toNat ≤ 5)
  | .amm b _ k _ _ _ w _ y z => (decide (b.toNat < 80)) && (decide (z.toNat < 80)) && (y != 3) && (w != 3) && (ammK w k)
  | .amms b _ _ _ _ _ w _ y z => (decide (b.toNat < 80)) && (decide (z.toNat < 80)) && (y != 3) && (w != 3)
  | .aeval b _ _ _ _ => decide (b.toNat < 80)
  | .abwd b _ z _ _ _ => (decide (b.toNat < 80)) && (decide (z.toNat < 80))
  | .agrad b _ z _ _ => (decide (b.toNat < 80)) && (decide (z.toNat < 80))
  | .amode _ b c g => (decide (g.toNat ≤ 4)) && (c != 3) && (b != 3)
  | .aout _ _ s _ _ _ _ => s != 3
  | .aouts b _ s _ _ _ _ => (s != 3) && (decide (b.toNat < 80))
  | .agout _ g _ q _ => (decide (q.toNat ≤ 21)) && (decide (g.toNat ≤ 4))
  | .acout _ g _ _ _ => decide (g.toNat ≤ 6)
  | .scale _ s f n => decide (f.toNat + n.toNat ≤ (if s == 0 then 15 else 1))
  | .scx _ f n => decide (f.toNat + n.toNat ≤ 15)
  | .cpys _ _ r => r != 63
  | .cpacc _ _ _ _ o t => (decide (o.toNat ≤ 5)) && (!(decide (3 ≤ o.toNat) && t != 3))
  | .cpswap _ _ _ _ a => a != 0
  | .cpcas _ _ _ _ _ a => a != 0
  | .cpsend a => decide (a.toNat ≤ 59)
  | .cpbinit _ a => decide (a.toNat ≤ 61)
  | .cparr _ _ _ s => decide (s.toNat ≤ 5)
  | .cprel _ _ s => decide (s.toNat ≤ 5)
  | .cpstat _ a => a != 0
  | .pand _ _ _ g k => !(k == 1 && g != 0)
  | .por _ _ _ g k => !(k == 1 && g != 0)
  | .pxor _ _ _ g k => !(k == 1 && g != 0)
  | .pandn _ _ _ g k => !(k == 1 && g != 0)
  | .pnot _ _ g k => !(k == 1 && g != 0)
  | .pmov _ _ g k => !(k == 1 && g != 0)
  | .psetk _ _ _ c => c != 3
  | .pktom _ _ g => g != 0
  | .vadd64 _ _ _ e4 => etFloat e4
  | .vsub64 _ _ _ e4 => etFloat e4
  | .vmul64 _ _ _ e4 => etFloat e4
  | .vfma _ _ _ _ e4 => etFloat e4
  | .vfms _ _ _ _ e4 => etFloat e4
  | .vmin64 _ _ _ e4 => etFloat e4
  | .vmax64 _ _ _ e4 => etFloat e4
  | .vabs64 _ _ e4 => etFloat e4
  | .vneg64 _ _ e4 => etFloat e4
  | .vrcp64 _ _ e4 => etFloat e4
  | .vrsq64 _ _ e4 => etFloat e4
  | .vsqrt64 _ _ e4 => etFloat e4
  | .vexp264 _ _ e4 => etFloat e4
  | .vlog264 _ _ e4 => etFloat e4
  | .vsin64 _ _ e4 => etFloat e4
  | .vcos64 _ _ e4 => etFloat e4
  | .vtanh64 _ _ e4 => etFloat e4
  | .vsigm64 _ _ e4 => etFloat e4
  | .vsilu64 _ _ e4 => etFloat e4
  | .vshl64 _ _ _ e4 => etInt e4
  | .vshr64 _ _ _ e4 => etInt e4
  | .vsar64 _ _ _ e4 => etInt e4
  | .viadd64 _ _ _ e4 => etInt e4
  | .visub64 _ _ _ e4 => etInt e4
  | .vimul64 _ _ _ e4 => etInt e4
  | .vimin64 _ _ _ e4 => etInt e4
  | .vimax64 _ _ _ e4 => etInt e4
  | .vcmp64 _ _ _ _ e4 p => (etFloat e4) && (partBelow p e4)
  | .vicmp _ _ _ c => decide (c.toNat ≤ 5)
  | .vicmp64 _ c _ _ e4 p => (etInt e4) && (partBelow p e4) && (decide (c.toNat ≤ 5))
  | .vsplat _ _ w => w != 3
  | .vsplat64 _ _ w => w != 3
  | .viota _ _ _ w _ => w != 3
  | .vperm64 _ _ _ e4 => etPerm e4
  | .vredadd64 _ _ e4 w => (etPerm e4) && (!(w == 1 && etWidth e4 == 32))
  | .vredmax64 _ _ e4 => etPerm e4
  | .vredmin64 _ _ e4 => etPerm e4
  | .vscan64 _ _ e4 _ => etPerm e4
  | .vcompress64 _ _ _ _ e4 => etPerm e4
  | .vexpand64 _ _ _ _ e4 => etPerm e4
  | .vcvt _ _ sf df p _ _ => vcvtOk sf df p
  | .vrnd _ _ sf tf _ => vrndOk sf tf
  | .vrng _ k => decide (k.toNat ≤ 1)
  | .vpack _ _ _ sf => vpackOk sf
  | .vunpk _ _ sf df p _ => vunpkOk sf df p
  | .vspcomp d a x _ sf => (e.pred == 0) && (vspcompOk sf x a d)
  | .vblkscl _ _ _ o df _ => vblksclOk o df
  | _ => true

/-- A set of prefixes a word may carry: at most two, each with a good payload (08 R225, R226). -/
def Pfx.ok (p : Pfx) : Bool :=
  p.words.all (fun w => pfxOwn w == none) && decide (p.words.length ≤ 2)

/-- The kinds a set of prefixes holds, as bits. -/
def Pfx.kinds (p : Pfx) : BitVec 5 := acc5 p.rnd.isSome p.sat.isSome p.imx.isSome p.sco.isSome p.snp.isSome

/-- The slot word's position lies in its class, and H is clear in class C (08 R217, R221). -/
def Instr.placeOk (e : Env) (i : Instr) : Bool :=
  decide (i.slots.1 ≤ e.pos.toNat) && decide (e.pos.toNat < i.slots.1 + i.slots.2) && !(i.slots.1 == 0 && e.hold)

/-- A well-formed instruction: a slot word whose fields, place and prefixes are good in its envelope. Events are
well-formed whatever the envelope. -/
def Instr.wf (e : Env) (i : Instr) : Bool :=
  !i.isWord || (i.fieldsOk e && i.placeOk e && e.pfx.ok && (e.pfx.kinds &&& ~~~ i.accepts == 0))

end Sys2Proof
end

