-- ==== Sys2Proof/Machine/Front.lean ====
section
/-! DEFINITION. Issue: what a context issues next, the checks before it (18 R411), its commitment, and what is done after
its words have taken effect (07 R185 to R213). The words themselves are run by `step`. -/

namespace Sys2Proof.Machine

/-! ### Code fetch -/

/-- Word `n` of the code from an address on (01 R38, 18 R411), as fetched ahead or else as memory has it: poisoned code is
MCHK. -/
def State.codeWord (s : State) (addr n : Nat) : Fetch :=
  match NatMap.find? s.ctx.fetched (addr + 4 * n) with
  | some w => .word w
  | none => match (s.translateCtx (addr + 4 * n) .exec).2 with
    | .fault c k => .fault c k
    | .ok pa _ =>
      if NatMap.get false s.memPoison (pa / 8) then .fault mchk (BitVec.ofNat 16 (coreBank s.cur))
      else .word (ofBytes 32 (s.bytes pa 4))

/-- The address of the first word of a bundle that cannot be fetched. -/
def State.fetchVa (s : State) (addr : Nat) : Nat :=
  match (List.range 70).find? fun n => match s.codeWord addr n with | .fault _ _ => true | .word _ => false with
  | some n => addr + 4 * n
  | none => addr

/-- The two words of one granule of code are fetched, unless they have been (02 R65, R76, 05 R149, R150, R167, 18 R422): the
walk's leaf is installed, the stores on their way that the context sees reach their homes, the line goes through the cellar
cache, errors waiting there are found, the watchpoints at the home see the read. The words stay what they were then until the
bundle issues or a fence discards them; poisoned ones are not kept. -/
def State.fetchG (s : State) (va : Nat) : State :=
  if (NatMap.find? s.ctx.fetched va).isSome then s
  else match s.translateCtx va .exec with
    | (s, .fault _ _) => s
    | (s, .ok pa leaf) =>
      let s := (((s.flushAt pa).visit pa false (!leaf.getLsbD 8)).1).noteHome pa 8 false (s.tidOf s.ctx) 0 s.cur
      if NatMap.get false s.memPoison (pa / 8) then s
      else
        let l := NatMap.put s.ctx.fetched va (ofBytes 32 (s.bytes pa 4))
        { s with ctx := { s.ctx with fetched := NatMap.put l (va + 4) (ofBytes 32 (s.bytes (pa + 4) 4)) } }

/-- `len` words from an address on are fetched, granule by granule. -/
def State.fetchCodeAt (s : State) (addr len : Nat) : State :=
  (List.range ((addr % 8 + 4 * len + 7) / 8)).foldl (fun s n => s.fetchG (addr / 8 * 8 + 8 * n)) s

/-- The first `n` words of the bundle due, with what follows it, are fetched ahead of its issue (05 R167). -/
def State.prefetch (s : State) (n : Nat) : State :=
  if s.ctx.seq.isSome ∨ 2 ^ 52 ≤ s.ctx.pc then s else s.fetchCodeAt s.ctx.pc (min n 5000)

/-! ### The bundle due -/

/-- A reason to trap before a bundle: cause, DETAIL, faulting address. -/
abbrev Before := BitVec 8 × BitVec 16 × Nat

/-- A bundle about to issue: its address, the bundle after it, the words that run in slot order with their iterations and
whether they repeat as held, the holds after it, its actual weight, the words it squashes, the code words it spans (0 for a
loop tick), its G bit, and the bundle addresses it covers. -/
structure Plan where
  addr : Nat
  next : Nat
  words : List (Slot × Option Nat × Bool)
  holds : List Hold
  weight : Nat
  squashed : Nat
  len : Nat
  g : Bool
  addrs : List Nat
  deriving DecidableEq, Repr

/-- A slot word's position. -/
def slotPos (x : Slot) : Nat := x.env.pos.toNat

/-- The sum of some weights. -/
def sumNat (l : List Nat) : Nat := l.foldl (· + ·) 0

/-- Words in slot order. -/
def inSlotOrder (l : List (Slot × Option Nat × Bool)) : List (Slot × Option Nat × Bool) :=
  (List.range 17).flatMap fun p => l.filter fun x => slotPos x.1 == p

/-- A hold, marked when a register its word reads has been written since it last ran (07 R203). -/
def State.touch (s : State) (h : Hold) : Hold :=
  let l := State.sources { s with env := h.slot.env } h.slot.op
  { h with touched := h.touched || l.any s.ctx.written.contains }

/-- The holds that repeat: those whose position is not taken (07 R194). -/
def State.repeats (s : State) (present : List Nat) : List Hold :=
  (s.ctx.holds.filter fun h => !present.contains (slotPos h.slot)).map s.touch

/-- The holds after a bundle: those that repeat, and its own words with H. -/
def newHolds (repeats : List Hold) (words : List Slot) : List Hold :=
  repeats ++ (words.filter fun x => x.env.hold).map fun x => ⟨x, true⟩

/-- The plan of a decoded bundle. -/
def State.planOf (s : State) (addr : Nat) (b : Bundle) : Plan :=
  let present := b.words.map slotPos
  let r := s.repeats present
  { addr := addr, next := addr + 4 * b.len
    words := inSlotOrder (b.words.map (fun x => (x, none, false)) ++ r.map fun h => (h.slot, none, true))
    holds := newHolds r b.words
    weight := sumNat (b.words.map fun x => instrWeight x.op) + sumNat (r.map fun h => instrWeight h.slot.op)
    squashed := 0, len := b.len, g := b.g, addrs := [addr] }

/-- The words of body bundle `b` in loop tick `t`: its iteration where it runs (07 R196, R198). -/
def Seq.iterOf (q : Seq) (t b : Nat) : Option Nat :=
  if b ≤ t ∧ (t - b) / q.ii < q.rounds then some ((t - b) / q.ii) else none

/-- The plan of the loop tick due (07 R196 to R200). -/
def State.planTick (s : State) (q : Seq) : Plan :=
  let phase := ((List.range q.body.length).zip q.body).filter fun x => x.1 % q.ii == q.tick % q.ii
  let run := phase.flatMap fun x => match q.iterOf q.tick x.1 with
    | some i => x.2.2.2.2.map fun w => (w, some i, false)
    | none => []
  let squashed := sumNat (phase.map fun x => if (q.iterOf q.tick x.1).isNone then x.2.2.2.2.length else 0)
  let present := phase.flatMap fun x => x.2.2.2.2.map slotPos
  let r := s.repeats present
  { addr := q.tickAddr q.tick, next := q.tickAddr (q.tick + 1)
    words := inSlotOrder (run ++ r.map fun h => (h.slot, none, true))
    holds := newHolds r []
    weight := sumNat (phase.map fun x => x.2.2.1) + sumNat (r.map fun h => instrWeight h.slot.op)
    squashed := squashed, len := 0, g := phase.any fun x => x.2.2.2.1
    addrs := (phase.filter fun x => (q.iterOf q.tick x.1).isSome).map fun x => x.2.1 }

/-- A decoding fault as a trap; `base` is the word index of the bundle's header (18 R410). -/
def berrTrap (va base : Nat) : BErr → Before
  | .fetch c d => (c, d, va)
  | .notHeader => (illegalEncoding, 0x0002, 0)
  | .opcode d => (illegalOpcode, d + BitVec.ofNat 16 (256 * base), 0)
  | .encoding d => (illegalEncoding, d + BitVec.ofNat 16 (256 * base), 0)

/-- The bundle due and its decoding (18 R411 items 4 and 5, 09 R244, 08 R215, R229, 07 R200). BW is checked here, before the values
that words read at issue, which `State.planBad` checks (log 41). -/
def State.planNext (s : State) : Except Before Plan :=
  match s.ctx.seq with
  | some q => .ok (s.planTick q)
  | none =>
    let a := s.ctx.pc
    if 2 ^ 52 ≤ a then .error (0x08, 3, a)
    else if a % 4 ≠ 0 then .error (illegalEncoding, 0x0002, 0)
    else match decodeBundle (s.codeWord a) with
      | .error .notHeader => .error (illegalEncoding, 0x0002, 0)
      | .error e =>
        match e, s.ctx.checked, s.codeWord a 0 with
        | .fetch c d, _, _ => .error (c, d, s.fetchVa a)
        | _, true, .word h => if h.getLsbD 19 then .error (berrTrap 0 0 e) else .error (illegalEncoding, 0x0001, 0)
        | _, _, _ => .error (berrTrap 0 0 e)
      | .ok b =>
        if s.ctx.checked ∧ b.t = false then .error (illegalEncoding, 0x0001, 0)
        else
          let p := s.planOf a b
          if 4 * b.bw ≠ p.weight then .error (illegalEncoding, detailAt 0 0x13, 0) else .ok p

/-! ### Checks on register values (07 R211, 09 R264, 13 R358, R364, R378) -/

/-- The window width Kw of a B format: 64 × P (13 R356). -/
def kWidth (fmt : Nat) : Nat := if fmt = 5 then 256 else if fmt = 3 ∨ fmt = 4 then 128 else 64

/-- The weight class of a format code: 16-bit, 8-bit, E2M1X (13 R364). -/
def weightClass (fmt : Nat) : Nat := if fmt = 5 then 2 else if fmt = 3 ∨ fmt = 4 then 1 else 0

/-- ALD and ALDS at step 0: BFMT is code 1 to 5, and KV lies below Kw; for LAY 2 a KV of at most 63 (13 R358). -/
def aldFmtOk (fmt : Word) (lay kv : Nat) : Bool :=
  let b := fmtB fmt
  if lay = 2 then decide (kv ≤ 63) else (decide (1 ≤ b) && decide (b ≤ 5) && (lay == 1 || kv == 511 || decide (kv < kWidth b)))

/-- AMM and AMMS at step 0: AFMT and BFMT lie in the class WF names (13 R364); the companion's checks are ALDS's. -/
def ammFmtOk (fmt : Word) (wf : Nat) : Bool :=
  let ok (c : Nat) : Bool := decide (1 ≤ c) && decide (c ≤ 5) && weightClass c == wf
  ok (fmtA fmt) && ok (fmtB fmt)

/-- OFMT of AOUT and AOUTS at step 0 (13 R378). -/
def outFmtOk (fmt : Word) : Bool :=
  let o := fmtO fmt
  decide (o ≤ 5) || (decide (8 ≤ o) && decide (o ≤ 10)) || (decide (12 ≤ o) && decide (o ≤ 14))

/-- The last lane group AOUT writes: a row of 64 × w bits (13 R378, R379). -/
def outGroups (fmt : Word) : Nat := codeWidth (fmtO fmt) / 8

/-- The lane groups a row of `w`-bit elements takes fit from `g` on. -/
def outFits (fmt : Word) (g : Nat) : Bool := decide (g + max 1 (outGroups fmt) ≤ 8)

/-- The ILLEGAL_ENCODING code a word raises for a value it reads at issue; `none` where it is good. -/
def State.valueBad (s : State) (i : Instr) : Option (BitVec 8) :=
  let fmtBad (v : Word) : Option (BitVec 8) :=
    if 2 ^ 23 ≤ v.toNat then some 0x10 else if fmtWordOk v then none else some 0x16
  let need (b : Bool) : Option (BitVec 8) := if b then none else some 0x16
  let fmt := s.ctx.c.fmt
  match i with
  | .fmtset r => if s.spois r.toNat then none else fmtBad (s.sreg r.toNat)
  | .cwr r c => if c = 1 ∧ s.spois r.toNat = false then fmtBad (s.sreg r.toNat) else none
  | .ald _ k _ _ l => need (aldFmtOk fmt l.toNat k.toNat)
  | .alds _ k _ _ l => need (aldFmtOk fmt l.toNat k.toNat)
  | .amm _ _ _ _ _ _ w l y _ => need (ammFmtOk fmt w.toNat && (l == 0 || aldFmtOk fmt y.toNat 0))
  | .amms _ _ _ _ _ _ w l y _ => need (ammFmtOk fmt w.toNat && (l == 0 || aldFmtOk fmt y.toNat 0))
  | .aout _ g _ _ _ _ _ => need (outFmtOk fmt && outFits fmt g.toNat)
  | .aouts _ _ _ _ _ _ _ => need (outFmtOk fmt)
  | _ => none

/-- The words of an item: its prefixes and its slot word. -/
def slotSize (x : Slot) : Nat := x.env.pfx.words.length + (if x.op.code.1 then 2 else 1)

/-- The first word that reads a value it may not: as cause and DETAIL. Array words are checked at step 0 only. -/
def State.firstBad (s : State) : Nat → List (Slot × Option Nat × Bool) → Option Before
  | _, [] => none
  | n, x :: xs =>
    if x.2.2 then s.firstBad n xs
    else
      let s1 : State := { s with env := x.1.env, issue := { s.issue with iter := x.2.1 } }
      let run := !(slotPos x.1 < 9) || s1.pred
      let n' := n + slotSize x.1
      let bad : Option (BitVec 16) :=
        if !run then none
        else if x.1.op == .eret && !s.inh then some 0x0003
        else (s1.valueBad x.1.op).map fun d => detailAt (n' - (if x.1.op.code.1 then 2 else 1)) d
      match bad with
      | some d => some (illegalEncoding, d, 0)
      | none => s.firstBad n' xs

/-! ### Loops (07 R195 to R201) -/

/-- The body bundles from an address on: address, weight, G, words; and the address after them. `idx` counts words from
the LOOP bundle's header (07 R198). -/
def State.decodeBody (s : State) : Nat → Nat → Nat → Except Before (List (Nat × Nat × Bool × Bool × List Slot) × Nat)
  | 0, addr, _ => .ok ([], addr)
  | n + 1, addr, idx =>
    match decodeBundle (s.codeWord addr) with
    | .error e => .error (berrTrap (s.fetchVa addr) idx e)
    | .ok b =>
      let w := sumNat (b.words.map fun x => instrWeight x.op)
      if 4 * b.bw ≠ w then .error (illegalEncoding, detailAt idx 0x13, 0)
      else match s.decodeBody n (addr + 4 * b.len) (idx + b.len) with
        | .error e => .error e
        | .ok (l, a) => .ok ((addr, w, b.g, b.t, b.words) :: l, a)

/-- The code words of `n` bundles from an address on, as far as they decode. -/
def State.spanOf (s : State) : Nat → Nat → Nat
  | 0, _ => 0
  | n + 1, addr => match decodeBundle (s.codeWord addr) with
    | .error _ => 1
    | .ok b => b.len + s.spanOf n (addr + 4 * b.len)

/-- The operations a loop body may not hold (07 R198). -/
def notInLoop : Instr → Bool
  | .br _ | .br64 _ | .bri _ | .call _ | .call64 _ | .calli _ | .ret | .loop _ _ _ _ _ | .loopn _ _ _ _ _ _ _ _
  | .trap _ | .eret => true
  | _ => false

/-- No number stands twice. -/
def noDup (l : List Nat) : Bool := decide (l.eraseDups.length = l.length)

/-- LOOP_CONFLICT (07 R198). -/
def loopBad (b ii : Nat) (holds : List Hold) (body : List (Nat × Nat × Bool × Bool × List Slot)) : Bool :=
  let words := body.flatMap fun x => x.2.2.2.2
  b == 0 || decide (64 < b) || ii == 0 || decide (64 < ii) ||
    body.any (fun x => x.2.2.2.1) || words.any (fun w => w.env.hold || notInLoop w.op) ||
    holds.any (fun h => words.any fun w => slotPos w == slotPos h.slot) ||
    (List.range ii).any fun p =>
      !noDup ((((List.range body.length).zip body).filter fun x => x.1 % ii == p).flatMap fun x =>
        x.2.2.2.2.2.map slotPos)

/-- The body of a loop, decoded and checked; `next` is the bundle after the LOOP bundle, `len` the LOOP bundle's words. -/
def State.loopBody (s : State) (next len b ii : Nat) (holds : List Hold) :
    Except Before (List (Nat × Nat × Bool × List Slot) × Nat) :=
  match s.decodeBody b next len with
  | .error e => .error e
  | .ok (body, after) =>
    if loopBad b ii holds body then .error (loopConflict, 0, 0)
    else .ok (body.map fun x => (x.1, x.2.1, x.2.2.1, x.2.2.2.2), after)

/-- The body of a running loop is fetched again after a fence discarded it (05 R167); what is no loop body any more leaves the
old one (log 77). -/
def State.reload (s : State) : State := match s.ctx.seq with
  | none => s
  | some q =>
    if !q.stale then s
    else
      let first := (q.body.map Prod.fst).headD q.after
      let s := s.fetchCodeAt first (s.spanOf q.body.length first)
      let q' := match s.loopBody first 0 q.body.length q.ii [] with
        | .ok (body, after) => { q with body := body, after := after }
        | .error _ => q
      { s with ctx := { s.ctx with fetched := [], seq := some { q' with stale := false } } }

/-! ### Energy (07 R201, R208, 12 R346) -/

/-- The allowances in force: BAL, WAL, and whether they are the settling ones (07 R208). -/
def State.allowances (s : State) : Nat × Nat × Bool :=
  let b := bits s.ctx.c.bal 0 10
  let w := bits s.ctx.c.wal 0 13
  let set := s.clu.oper.settling && !s.clu.oper.byMgmt
  if set then (min b 512, min w 4096, true) else (b, w, false)

/-- DETAIL of ENERGY (12 R346). -/
def energyDetail (w : Nat) (setl phase wnd bun : Bool) : BitVec 16 :=
  BitVec.ofNat 16 (min 255 (w / 4) * 256 + setl.toNat * 8 + phase.toNat * 4 + wnd.toNat * 2 + bun.toNat)

/-- The heaviest phase of a loop (07 R200). -/
def heaviest (ii : Nat) (holds : List Hold) (body : List (Nat × Nat × Bool × List Slot)) : Nat :=
  let held := sumNat (holds.map fun h => instrWeight h.slot.op)
  (List.range ii).foldl (fun m p =>
    max m (held + sumNat ((((List.range body.length).zip body).filter fun x => x.1 % ii == p).map fun x => x.2.2.1))) 0

/-- ENERGY of a bundle of a weight, with the heaviest phase of a loop that it starts (07 R201, 12 R346): every check that
fails shows in DETAIL. The phases are checked against the BAL in force, while an OPSET settles the settling one (log 41). -/
def State.energyBad (s : State) (w : Nat) (phase : Option Nat) : Option Before :=
  let (bal, wal, set) := s.allowances
  let ph := match phase with | some p => decide (bal < p) | none => false
  let bun := decide (bal < w)
  let wnd := decide (wal < w + sumNat s.ctx.window)
  if bun || wnd || ph then
    some (energyCause, energyDetail (if ph then phase.getD w else w) set ph wnd (bun || ph), 0)
  else none

/-- B and II of the LOOP or LOOPN a bundle runs, if it has one whose predicate is true. -/
def State.loopWord (s : State) (l : List (Slot × Option Nat × Bool)) : Option (Nat × Nat) :=
  l.findSome? fun x => if s.kreg x.1.env.pred.toNat then match x.1.op with
      | .loop b ii _ _ _ => some (b.toNat, ii.toNat)
      | .loopn b ii _ _ _ _ _ _ => some (b.toNat, ii.toNat)
      | _ => none
    else none

/-- Items 5 and 6 of 18 R411 on register values, the loop body, LOOP_CONFLICT, then ENERGY. -/
def State.planBad (s : State) (p : Plan) : Option Before :=
  match s.firstBad 1 p.words with
  | some e => some e
  | none => match s.loopWord p.words with
    | none => s.energyBad p.weight none
    | some (b, ii) => match s.loopBody p.next p.len b ii p.holds with
      | .error e => some e
      | .ok (body, _) => s.energyBad p.weight (some (heaviest ii p.holds body))

/-! ### Full queues (07 R186) -/

/-- The entries the words of a plan need. -/
def State.planNeeds (s : State) (p : Plan) : Nat × Nat × Nat × Nat :=
  p.words.foldl (fun a x =>
    if s.kreg x.1.env.pred.toNat then
      let n := instrNeeds x.1.op
      (a.1 + n.1, a.2.1 + n.2.1, a.2.2.1 + n.2.2.1, a.2.2.2 + n.2.2.2)
    else a) (0, 0, 0, 0)

/-- A store-queue entry is a class P command. -/
def StoreEntry.isCmd (e : StoreEntry) : Bool := match e.kind with | .cmd _ => true | _ => false

/-- The queues have room for what a plan needs: 32 loads, 32 stores, 32 landings, 16 commands. -/
def State.roomForPlan (s : State) (p : Plan) : Bool :=
  let n := s.planNeeds p
  let q := s.ctx.q
  let cmds := (q.sq.filter StoreEntry.isCmd).length + (q.csq.filter StoreEntry.isCmd).length + q.copyq.length
  let ok (need have_ cap : Nat) : Bool := need == 0 || decide (have_ + need ≤ cap)
  ok n.1 (q.lq.filter fun e => !e.hold).length 32 && ok n.2.1 q.sq.length 32 && ok n.2.2.1 q.landing.length 32 &&
    ok n.2.2.2 cmds 16

/-! ### Interlocked compatibility mode (19 R433) -/

/-- A word of a plan at hand before it issues. -/
def State.facing (s : State) (x : Slot × Option Nat × Bool) : State :=
  { s with env := x.1.env, issue := { s.issue with iter := x.2.1, held := x.2.2 } }

/-- The registers a plan reads, predicates among them. -/
def State.planReads (s : State) (p : Plan) : List Dst :=
  p.words.flatMap fun x => (s.facing x).predSource x.1 :: (s.facing x).sources x.1.op

/-- The registers a plan reads or writes. -/
def State.planRegs (s : State) (p : Plan) : List Dst :=
  s.planReads p ++ p.words.flatMap fun x => (s.facing x).dests x.1.op

/-- The registers of the loads that a plan issues, which the interlock watches. -/
def State.newIcms (s : State) (l : List (Slot × Option Nat × Bool)) : List Icm :=
  match s.ctx.icm with
  | none => []
  | some sst =>
    if sst == s.stepping then [] else l.flatMap fun x =>
      match instrLoadLat x.1.op with
      | none => []
      | some (a, b) =>
        if s.kreg x.1.env.pred.toNat then ((s.facing x).dests x.1.op).map fun d =>
          (⟨d, if sst then b else a, if sst then a else b, s.inh⟩ : Icm)
        else []

/-- What the interlock counts, one bundle on: a bundle of its own mode is one of the schedule's, and every bundle takes a tick. -/
def tickIcms (l : List Icm) (inh : Bool) : List Icm :=
  (l.map fun x => { x with early := if x.handler == inh then x.early - 1 else x.early, late := x.late - 1 }).filter
    fun x => x.late != 0

/-- A plan reads or writes a register whose load is due by the schedule and not there yet on the running stepping. -/
def State.icmWaits (s : State) (p : Plan) : Bool :=
  let late := (s.ctx.icms.filter fun x => x.early == 0 && x.late != 0).map Icm.dst
  !late.isEmpty && (s.planRegs p).any late.contains

/-! ### The power limits (07 R204 to R210) -/

/-- The weight the core issued in the 7 ticks before (07 R204). -/
def State.recent (s : State) : Nat :=
  sumNat ((s.core.ticks.filter fun x => decide (x.1 < s.clu.tick) && decide (s.clu.tick ≤ x.1 + 7)).map Prod.snd)

/-- The ceiling holds a bundle of a weight (07 R204). -/
def State.ceilingHolds (s : State) (w : Nat) : Bool :=
  s.recent != 0 && decide (bits s.clu.ceil 0 13 < s.recent + w)

/-- A management transition's settling holds a bundle of a weight (07 R210). -/
def State.mgmtHolds (s : State) (w : Nat) : Bool :=
  s.clu.oper.settling && s.clu.oper.byMgmt &&
    (decide (min (bits s.ctx.c.bal 0 10) 512 < w) || decide (min (bits s.ctx.c.wal 0 13) 4096 < w + sumNat s.ctx.window))

/-- The slew limiter withholds a bundle of a weight; UP acts as at least 1,020 (07 R205, R206). -/
def State.slewHolds (s : State) (w : Nat) : Bool :=
  w != 0 && decide (s.clu.slew.prev + max (bits (s.clu.rampOf s.clu.oper.cur) 0 16) 1020 < s.clu.slew.p + w)

/-! ### Issue -/

/-- Freezes that are looked at again at every tick (02 R54, 05 R158, 07 R204, R206, R210). -/
def Freeze.again : Freeze → Bool
  | .ceiling => true
  | .slew => true
  | .management => true
  | .arbitration => true
  | .stream => true
  | _ => false

/-- Something that must happen before the next bundle (02 R68, R69, 07 R202, R211, 18 R411 items 1 to 3, R412). -/
def State.dueNow (s : State) : Bool :=
  s.isLate || s.ctx.q.landing.any (fun l => l.left == 0 && s.sameMode l.handler) ||
    (!s.inh && s.ctx.q.capture.any fun x => x.left == 0) ||
    s.ctx.settings.any (fun x => x.left == 0) || s.ctx.pend.any fun x => s.sameMode x.handler

/-- The focused context's launch is stopped to be saved (18 R413): its contexts issue no more, but for a member of a lock-step
group that is to reach the group's next tick. -/
def State.stopped (s : State) : Bool :=
  (match s.launchOf s.ctx with | some l => l.halt.isSome | none => false) &&
    (!s.ctx.c.gid.getLsbD 8 || s.ctx.freezes.contains .lockstep)

/-- The focused context may issue, its next bundle's own checks apart. -/
def State.mayIssue (s : State) : Bool :=
  !s.stopped &&
  s.ctx.st == .issuing && !s.ctx.stop && !s.halted && s.clu.oper.cur != 0 && !s.clu.gated && !s.core.ecc &&
    s.ctx.freezes.all Freeze.again && !s.dueNow && !s.issue.live

/-- A trap before the bundle due (09 R261); MCHK is logged first (02 R78). A double trap gives up the core. -/
def State.trapDue (s : State) (addr : Nat) (e : Before) : State :=
  let s := if e.1 = mchk then
      s.logError (coreBank s.cur) 2 0x0008 false 0 0 (some (s.originOf s.cur)) else s
  (s.takeTrap e.1 e.2.1 addr addr e.2.2).leave

/-- The word of a plan comes to hand where its predicate is true. -/
def State.live (s : State) (x : Slot × Option Nat × Bool) : Bool := s.kreg x.1.env.pred.toNat

/-- The array streams of a word: it reads the scratchpad, or AOUTS writes it. -/
def streams : Instr → Bool
  | .ald _ _ _ _ _ | .alds _ _ _ _ _ | .amm _ _ _ _ _ _ _ _ _ _ | .amms _ _ _ _ _ _ _ _ _ _ | .aeval .. | .abwd ..
  | .agrad .. | .aouts .. | .aknot .. => true
  | _ => false

/-- A plan has a live array stream in it. -/
def State.streaming (s : State) (p : Plan) : Bool := p.words.any fun x => streams x.1.op && s.live x

/-- A stream stands behind an acquire that binds other agents' events (05 R153, R158), or behind a TXCOMMIT whose answer has not
come (15 R386, log 57). -/
def State.streamWaits (s : State) : Bool :=
  s.ctx.q.lq.any (fun x => !s.apart x s.inh && (match x.acq with | some sc => decide (1 ≤ sc) | none => false)) ||
    s.ctx.q.landing.any fun l => match l.kind with
      | .txCommit _ _ => l.answer == .waiting &&
        !(s.inh && !l.handler && s.ctx.q.csq.any fun x => x.kind == .txCommit l.id)
      | _ => false

/-- The flag that a bundle with an array stream in it waits for before it issues: a WAIT in its own control slot comes first in
program order (05 R151, R158), and the stream acts at issue. -/
def State.streamFlag (s : State) (p : Plan) : Option Nat :=
  if !s.streaming p then none
  else p.words.findSome? fun x => if !s.live x then none else match x.1.op with
    | .wait f _ => if s.ctx.c.flg.getLsbD f.toNat then none else some f.toNat
    | _ => none

/-- What holds a bundle with an array stream in it (02 R54, 05 R153, R157, R158): what comes first in program order, a VJOIN or
FENCE in its own control slot among it, for the stream acts at issue. -/
def State.streamHeld (s : State) (p : Plan) : Option Freeze :=
  if !s.streaming p then none
  else
    let b := s.ctx.q.nextId
    let ctl := p.words.findSome? fun x => if !s.live x then none else match x.1.op with
      | .vjoin => if s.joined b then none else some (Freeze.vjoin b)
      | .fence c =>
        let sc := State.scopeOf { s with env := x.1.env } c.toNat
        if s.fenced sc b then none else some (Freeze.fence sc b)
      | .fencep d => if s.dieDrained d.toNat b then none else some (Freeze.fencep d.toNat b)
      | _ => none
    if (s.clu.denied.any fun x => x.1 == s.coreId % 8) then some .arbitration
    else if s.streamWaits then some .stream
    else ctl

/-- The granules of the own window from `a` on that an array stream of the bundle due reads ahead (05 R149): a stream's reads are
unordered, so each may stand anywhere after what comes before the bundle. -/
def State.streamAhead (s : State) (a n : Nat) : State := match s.ctx.st, s.planNext with
  | .waiting _ _ _, _ => s
  | _, .error _ => s
  | _, .ok p =>
    if !s.streaming p || (s.streamHeld p).isSome || (s.streamFlag p).isSome || s.dueNow || !s.ctx.freezes.all Freeze.again then s
    else (List.range (min n 4096)).foldl (fun s i =>
      let pa := localPa s.clusterId (swizzle ((a / 8 * 8 + 8 * i) % 0x1000000))
      let r := s.flushPad.findUpset pa
      let s := if r.2 then r.1.freezeCore s.coreId else r.1
      { s with ctx := { s.ctx with streamed := NatMap.put s.ctx.streamed (pa / 8) (s.granule pa) } }) s

/-- The registers of the bundle due that hold an error are read (02 R76, R77): a correctable one freezes the core, an
uncorrectable one leaves poison for the words that consume it. -/
def State.regsFound (s : State) (p : Plan) : State :=
  if s.upsets.isEmpty then s
  else
    let reads := s.planReads p
    let mine (u : Upset) : Bool := match u.site with
      | .sreg c n => c == s.cur && reads.contains (.sreg n)
      | .vreg c g r _ => c == s.cur && reads.contains (.vreg g r)
      | .kreg c n => c == s.cur && reads.contains (.kreg n)
      | .iter c j f => c == s.cur && reads.contains (.iter j f)
      | .mreg c g n => c == s.cur && reads.contains (.mreg g n)
      | _ => false
    let dead (s : State) (d : Dst) : State := s.modR fun r => { r with dead := deadSet r.dead d true }
    (s.upsets.filter mine).foldl (fun s u =>
      let s := s.foundInCore s.cur u.unc
      if !u.unc then s
      else match u.site with
        | .sreg _ n => s.modR fun r => { r with spoison := NatMap.set false r.spoison n true }
        | .vreg _ g r k => s.modR fun q => { q with
            vpoison := setLanes false q.vpoison (vkey g r 0) (3#16 <<< (2 * k)) fun _ => true }
        | .kreg _ n => dead s (.kreg n)
        | .iter _ j f => dead s (.iter j f)
        | .mreg _ g n => dead s (.mreg g n)
        | _ => s) { s with upsets := s.upsets.filter fun u => !mine u }

/-- The code words that deciding on the bundle due reads: the bundle's own, and the body of a loop it starts. -/
def State.fetchDue (s : State) : State :=
  if s.ctx.seq.isSome ∨ 2 ^ 52 ≤ s.ctx.pc ∨ s.ctx.pc % 4 ≠ 0 then s
  else
    let s := s.fetchCodeAt s.ctx.pc (s.spanOf 1 s.ctx.pc)
    match s.planNext with
    | .error _ => s
    | .ok p => match s.loopWord p.words with
      | none => s
      | some (b, _) => s.fetchCodeAt p.next (s.spanOf b p.next)

/-- What the core does with the bundle due in the tick at hand, before the slew limiter is asked: nothing while frozen; a trap
before it; blocking on a full queue; a freeze; or the plan to issue. -/
def State.offer (s : State) : State × Option Plan :=
  if !s.mayIssue then (s, none) else
    let s := ((s.thaw Freeze.again).boundary.reload).fetchDue
    match s.planNext with
    | .error e => (s.trapDue s.dueAddr e, none)
    | .ok p =>
      match s.planBad p with
      | some e => (s.trapDue p.addr e, none)
      | none =>
        if !s.roomForPlan p then
          (if s.ctx.c.gid.getLsbD 9 then s
           else State.leave { s with ctx := { s.ctx with st := .blocked } }, none)
        else if s.icmWaits p then (s.freeze .icm, none)
        else match s.streamFlag p with
        | some f => (State.leave { s with ctx := { s.ctx with st := .waiting f false s.ctx.q.nextId } }, none)
        | none => match s.streamHeld p with
          | some f => (s.freeze f, none)
          | none =>
            if s.ctx.c.gid.getLsbD 9 && !s.ctx.c.gid.getLsbD 8 && p.g then (s.freeze .lockstep, none)
            else
              let s := s.regsFound p
              if s.core.ecc then (s, none)
              else if s.mgmtHolds p.weight then (s.freeze .management, none)
              else if s.ceilingHolds p.weight then (s.freeze .ceiling, none)
              else (s, some p)

/-- A cluster's tick may pass: no core of it that has not issued in the tick offers a bundle that the limiter has not
withheld (07 R206, 14 R385). -/
def State.tickOver (s : State) (p : Nat) : Bool := (List.range 8).all fun c =>
  let core := 8 * p + c
  s.issuedIn core || ((List.range 4).all fun x =>
    let f := s.focus (4 * core + x)
    f.ctx.freezes.any Freeze.again || f.offer.2.isNone)

/-- A tick of a cluster passes, and what its limits held is looked at again. -/
def State.nextTick (s : State) (p : Nat) : State :=
  let s := s.setClu p (s.getClu p).pass
  (List.range 32).foldl (fun s i => s.modCtx (32 * p + i) fun c => { c with freezes := c.freezes.filter fun f => !f.again }) s

/-- What the core does with the bundle due before the slew limiter is asked (`State.offer`): in the present tick, or, where the
core has issued in it, in the next one, once this one may pass (07 R206, 14 R383, R385). -/
def State.offered (s : State) : State × Option Plan :=
  if !s.mayIssue then (s, none)
  else if !s.issuedNow then s.offer
  else if s.tickOver s.clusterId then (s.nextTick s.clusterId).offer
  else (s, none)

/-- A word reads FILLC. -/
def isFillc : Instr → Bool
  | .crd _ r => r == 0x23#10
  | _ => false

/-- A plan reads FILLC, which the read clears (09 R266). -/
def State.readsFillc (s : State) (p : Plan) : Bool := p.words.any fun x => isFillc x.1.op && s.live x

/-- The cluster's cores below the focused one that have not issued in this tick and offer a bundle: its plan, with the
context. -/
def State.lowerOffers (s : State) : List (State × Plan) :=
  (List.range (s.coreId % 8)).filterMap fun c =>
    let core := s.coreId / 8 * 8 + c
    if s.issuedIn core then none
    else ((List.range 4).map fun x => 4 * core + x).findSome? fun id =>
      let f := s.focus id
      if f.ctx.freezes.contains .slew then none
      else match f.offer with
        | (t, some p) => some (t, p)
        | _ => none

/-- The weight granted in the step once the cores below the focused one have been considered (07 R206). -/
def State.grantedBelow (s : State) : Nat :=
  let limit := s.clu.slew.prev + max (bits (s.clu.rampOf s.clu.oper.cur) 0 16) 1020
  s.lowerOffers.foldl (fun a o => if a + o.2.weight ≤ limit then a + o.2.weight else a) s.clu.slew.p

/-- A bundle waits for the cores below its own where the order counts (07 R206, 09 R266): they come first with the slew
limiter, where all of them together could leave no room for it, and in reading FILLC. -/
def State.inTurn (s : State) (p : Plan) : Bool :=
  let up := max (bits (s.clu.rampOf s.clu.oper.cur) 0 16) 1020
  let tight : Bool := p.weight != 0 && decide (s.clu.slew.prev + up < s.clu.slew.p + p.weight + 1020 * (s.coreId % 8))
  (!tight && !s.readsFillc p) ||
    s.lowerOffers.all fun o => !tight && !(s.readsFillc p && o.1.readsFillc o.2)

/-- What the core does with the bundle due: `State.offered`, then its turn among the cluster's cores and the slew limiter's
grant. -/
def State.prep (s : State) : State × Option Plan :=
  match s.offered with
  | (t, none) => (t, none)
  | (t, some p) =>
    if !t.inTurn p then (s, none)
    else if t.slewHolds p.weight then (t.freeze .slew, none)
    else (t, some p)

/-- Words that run last in their bundle: what they do follows every other slot's effect (09 R251, R252, R261). -/
def runsLast : Instr → Bool
  | .trap _ | .bkpt | .eret | .retire | .yield _ => true
  | _ => false

/-- The words of a plan in the order they take effect. -/
def Plan.todo (p : Plan) : List (Slot × Option Nat × Bool) :=
  p.words.filter (fun x => !runsLast x.1.op) ++ p.words.filter fun x => runsLast x.1.op

/-- A plan issues: the program counter, the sequencer, the holds and the core's weight move on, and its words are set to
run. Before an array stream reads its window, the stores on their way that the context sees reach it (05 R150). -/
def State.commit (s : State) (p : Plan) : State :=
  let s := if s.streaming p then s.flushPad else s
  let ticks := (s.core.ticks.filter fun x => decide (s.clu.tick ≤ x.1 + 7)) ++ [(s.clu.tick, p.weight)]
  let mx := p.words.any fun x => slotPos x.1 == 5 && !x.2.2
  let owns := s.core.array.owner == some s.cur
  let arr := if mx && owns then s.core.array.endPass else s.core.array
  { s with
    ctx := { s.ctx with
      pc := p.next
      checked := false
      icms := s.ctx.icms ++ s.newIcms p.words
      seq := s.ctx.seq.map fun q => { q with tick := q.tick + 1 }
      holds := p.holds
      saved := s.ctx.saved.map fun v => { v with holds := v.holds.map s.touch }
      written := [] }
    core := { s.core with ticks := ticks, array := arr }
    clu := { s.clu with slew := { s.clu.slew with p := s.clu.slew.p + p.weight } }
    issue := { Issue.reset with
      live := true, addr := p.addr, next := p.next, todo := p.todo, weight := p.weight, energy := 256 * p.squashed
      watch := p.addrs.findSome? fun a => s.watches 3 a 1 } }

/-- The next bundle issues, if it may. -/
def State.front (s : State) : State :=
  match s.prep with
  | (s1, none) => s1
  | (s1, some p) => s1.commit p

/-! ### Running a word -/

/-- A word of the bundle comes to hand. -/
def State.enter (s : State) (x : Slot × Option Nat × Bool) : State :=
  { s with env := x.1.env, issue := { s.issue with iter := x.2.1, held := x.2.2, meas := none } }

/-- The word at hand reads a predicate, mask or iterator that an error has poisoned (02 R77, R78, log 75): as consumed poison, MCHK. -/
def State.deadRead (s : State) (x : Slot × Option Nat × Bool) : Bool :=
  !s.ctx.regs.dead.isEmpty && (s.ctx.regs.dead.contains (s.predSource x.1) ||
    s.live x && (s.sources x.1.op).any s.ctx.regs.dead.contains)

/-- What the word at hand has measured, in 1/64 wu (07 R203, 13 R355): 4 wu where its predicate is false or where it
repeats with no source written, also one that R321 always measures in full (log 21); what its meaning says; else its weight. -/
def State.measured (s : State) (x : Slot × Option Nat × Bool) : Nat :=
  let scalarOff := decide (slotPos x.1 < 9) && !s.kreg x.1.env.pred.toNat
  let untouched := x.2.2 && slotPos x.1 != 5 && s.ctx.holds.any fun h => h.slot == x.1 && !h.touched
  if scalarOff || untouched then 256 else s.issue.meas.getD (64 * instrWeight x.1.op)

/-- The word at hand is done. -/
def State.measure (s : State) (x : Slot × Option Nat × Bool) : State :=
  { s with issue := { s.issue with energy := s.issue.energy + s.measured x } }

/-! ### The end of a bundle -/

/-- A count less one. -/
def Result.tick (r : Result) : Result := { r with left := r.left - 1 }

/-- The queues after one bundle of the mode that issued it (09 R261: in the handler only its own entries count). -/
def Queues.tick (q : Queues) (inh : Bool) : Queues :=
  { q with
    results := q.results.map Result.tick
    capture := if inh then q.capture else q.capture.map Result.tick
    landing := q.landing.map fun l => if l.handler == inh then { l with left := l.left - 1 } else l
    lq := q.lq.map fun e => if e.handler == inh && e.kind == .fixed then { e with left := e.left - 1 } else e }

/-- Scale latches and SCKEY after one bundle of the owner: VCC counts for its writes, HTC for those of its handler (09 R261,
13 R362). -/
def ArrayState.tickLatches (a : ArrayState) (inh : Bool) : ArrayState :=
  let l := a.latches.map fun x => if x.handler == inh then { x with left := x.left - 1 } else x
  { a with latches := l }.landLatches fun x => x.left == 0

/-- The array after one bundle of its owner: the end of a pass that nothing repeats, be it that a branch is taken (07 R194,
13 R351), and the latches. -/
def State.tickArray (s : State) (inh : Bool) : State :=
  if s.core.array.owner != some s.cur then s
  else
    let held := s.issue.target.isNone && s.ctx.holds.any fun h => slotPos h.slot == 5
    s.modA fun a => (if held then a else a.endPass).tickLatches inh

/-- A trap after the bundle leaves no result behind that is due before the next one: its window is not open (18 R412). -/
def State.landCaptured (s : State) : State :=
  let due := s.ctx.q.capture.filter fun x => x.left == 0
  (due.foldl State.writeR s).modQ fun q => { q with capture := q.capture.filter fun x => x.left != 0 }

/-- A parity error in a datapath register poisons the value it holds: the context's latest result (18 R427). -/
def State.parityFound (s : State) : State :=
  match s.upsets.find? fun u => u.site == .datapath s.cur, s.ctx.q.results.getLast? with
  | some u, some x =>
    let l := s.ctx.q.results.dropLast ++ [{ x with poison := x.lanes }]
    let s : State := { s with upsets := s.upsets.erase u }
    (s.modQ fun q => { q with results := l }).logError (coreBank s.cur) 2 0x0007 true 0 0 (some (s.originOf s.cur))
  | _, _ => s

/-- What every bundle does once its words have taken effect (07 R188 to R212, 12 R347, 04 R142). `inh0` is INH when it
issued; a bundle that entered the handler has raised its trap, and STEP is dropped (18 R411). -/
def State.finish (s : State) (inh0 : Bool) : State :=
  let i := s.issue
  let s := s.parityFound.tickArray inh0
  let back := inh0 && !s.inh
  let c := s.ctx
  let cr := { c.c with
    vcc := if inh0 then c.c.vcc else c.c.vcc + 1
    htc := if inh0 then c.c.htc + 1 else c.c.htc
    ecnt := c.c.ecnt + wd i.energy
    rctr := if i.drew then c.c.rctr + 1 else c.c.rctr }
  let s : State := { s with ctx := { c with
      c := cr
      q := c.q.tick inh0
      settings := c.settings.map fun x => { x with left := x.left - 1 }
      window := (i.weight :: c.window).take 7
      holds := if back then c.holds else c.holds.map fun h => { h with touched := false }
      saved := if s.inh && !inh0 then c.saved.map fun v => { v with holds := v.holds.map fun h => { h with touched := false } }
        else c.saved
      icms := tickIcms c.icms inh0
      fetched := []
      streamed := []
      noWatch := back && c.noWatch } }
  let s := if s.inh && !inh0 then s.landCaptured else s
  let s := (s.landDue).settle fun n => n != 1 && n != 2 && n != 3
  let s : State := match i.target with
    | some t => { s with ctx := { s.ctx with pc := t, checked := true, holds := [] } }
    | none => s
  let s := if s.ctx.c.gid.getLsbD 8 then s.freeze .lockstep else s
  let s := s.boundary
  let s := if s.ctx.dbgStep && !inh0 && !s.inh && !s.ctx.stop then
      s.takeTrap stepCause 0 i.addr s.dueAddr 0 else s
  let s := if s.isLate then s.freeze .late else s
  State.leave { s with env := envReset, issue := .reset }

/-- A trap that a word raised before its bundle (09 R261): nothing of the bundle has taken effect. `s` is the state before
it was committed. -/
def State.undone (s : State) (addr : Nat) (e : Before) : State := s.trapDue addr e

/-! ### Events of issue (07 R194, R196, 08 R218) -/

/-- The focused context's next bundle is of a kind: issue it. -/
def State.frontIf (s : State) (f : State → Plan → Bool) : State :=
  match s.prep with
  | (s1, none) => s1
  | (s1, some p) => if f s1 p then s1.commit p else s

/-- ONE_TICK_BUNDLE (08 R218): a header whose PM is zero. -/
def execOneTickBundle (s : State) : Out :=
  .next (s.frontIf fun s p => s.ctx.seq.isNone && p.words.all fun x => x.2.2)

/-- HELD_WORD_REPEAT (07 R194): a bundle in which a held word repeats. -/
def execHeldWordRepeat (s : State) : Out :=
  .next (s.frontIf fun _ p => p.words.any fun x => x.2.2)

/-- LOOP_TICK (07 R196). -/
def execLoopTick (s : State) : Out := .next (s.frontIf fun s _ => s.ctx.seq.isSome)

/-- QUEUE_ROOM (07 R185, R186): blocked context `arg.a` whose next bundle now has room becomes READY. -/
def State.hasRoom (s : State) (id : Nat) : Bool :=
  let f := (s.focus id).boundary
  match f.planNext with
  | .ok p => f.roomForPlan p
  | .error _ => true

/-- See `State.hasRoom`. -/
def execQueueRoom (s : State) : Out :=
  .next (if (s.getCtx s.arg.a).st == .blocked && s.hasRoom s.arg.a then
      (s.makeReady s.arg.a).wakeCore (s.arg.a / 4)
    else s)

/-! ### Lock-step groups (07 R191 to R193) -/

/-- The next bundle of a context has G set. -/
def State.nextG (s : State) (id : Nat) : Bool :=
  let f := (s.focus id).boundary
  match f.planNext with
  | .ok p => p.g
  | .error _ => false

/-- A member of a group in lock-step tries for a group tick: the state that leaves, and whether nothing but the group holds its next
bundle, which would issue or trap (07 R193). `s` is the state in which the group goes on. -/
def State.memberTry (s : State) (id : Nat) : State × Bool :=
  let f := s.focus id
  match f.offered with
  | (t, some p) =>
    if State.slewHolds { t with clu := { t.clu with slew := { t.clu.slew with p := t.grantedBelow } } } p.weight then
      (t.freeze .slew, false)
    else (t, true)
  | (t, none) => (t, t.ctx.stop || t.inh && !f.inh)

/-- LOCKSTEP_START (07 R192, 09 R254): every member of group `arg.b` of tenant `arg.a` has joined and is frozen at a G
bundle, so the group runs in lock-step. -/
def execLockstepStart (s : State) : Out :=
  .next (
    let ids := s.memberIds s.arg.a s.arg.b
    let ok := !ids.isEmpty && ids.all fun id =>
      let c := s.getCtx id
      c.members == ids.length && !c.c.gid.getLsbD 8 && c.freezes.contains .lockstep && s.nextG id
    if ok then ids.foldl (fun s id => s.modCtx id fun c => { c with c := { c.c with gid := setBits c.c.gid 8 1 1 } }) s
    else s)

/-- GROUP_TICK (07 R192, R193): every member of group `arg.b` of tenant `arg.a` may issue one bundle; where only some of
the next bundles have G, lock-step is suspended and the members at a G bundle stay frozen. Where one cannot, its own freeze is
noted, to end in its own time. -/
def execGroupTick (s : State) : Out :=
  .next (
    let ids := s.memberIds s.arg.a s.arg.b
    let go (c : Context) : Context := { c with freezes := c.freezes.filter (· != .lockstep) }
    let hold (c : Context) : Context := { go c with freezes := .lockstep :: (go c).freezes }
    let free := ids.foldl (fun s id => s.modCtx id go) s
    let ok := !ids.isEmpty && ids.all fun id => (s.getCtx id).c.gid.getLsbD 8 && (s.getCtx id).freezes.contains .lockstep &&
      (match s.launchOf (s.getCtx id) with | some l => l.halt.isNone | none => true) && (free.focus id).mayIssue && s.hasRoom id
    if !ok then s
    else match ids.find? fun id => !(free.memberTry id).2 with
      | some id => State.focus (ids.foldl (fun s id => s.modCtx id hold) (free.memberTry id).1) s.cur
      | none =>
        let gs := ids.filter s.nextG
        if gs.isEmpty || gs.length == ids.length then ids.foldl (fun s id => s.modCtx id go) s
        else ids.foldl (fun s id => s.modCtx id fun c =>
          let c := { c with c := { c.c with gid := setBits c.c.gid 8 1 0 } }
          if gs.contains id then c else go c) s)

/-! ### The power limits' events (07 R204, R206, R207) -/

/-- CEILING_STRETCH (07 R204): the core idles for the tick, and its context tries again at the next. -/
def execCeilingStretch (s : State) : Out :=
  .next (if s.frozen (fun f => f == .ceiling) && s.tickOver s.clusterId then s.nextTick s.clusterId else s)

/-- SLEW_WITHHOLD (07 R206): the tick passes without the bundle that was not granted, once the cluster's other cores have
been considered in it. -/
def execSlewWithhold (s : State) : Out :=
  .next (if s.frozen (fun f => f == .slew) && s.tickOver s.clusterId then s.nextTick s.clusterId else s)

/-- SLEW_FILLER (07 R207, 14 R385): ticks of cluster `arg.a` in which no core offers anything pass to the end of the step,
with filler for its deficit in the last. -/
def execSlewFiller (s : State) : Out :=
  .next (
    let p := s.arg.a % 128
    (List.range (4 - (s.getClu p).tick % 4)).foldl (fun s _ => if s.tickOver p then s.nextTick p else s) s)

/-! ### Bank arbitration (02 R53, R54) -/

/-- What a requester's request at a bank is (02 R53): of a core, its array stream's before its load queue's before its store
queue's (bits 16 + k, 32 + k and 48 + k of the mask; a core with none of them asks for its load queue). Each as requester
number, 16 more for a load queue's and 32 more for a store queue's. -/
def requestsOf (mask : BitVec 128) (r : Nat) : List Nat :=
  if !mask.getLsbD r then []
  else if 8 ≤ r then [r]
  else
    let l := (if mask.getLsbD (16 + r) then [r] else []) ++ (if mask.getLsbD (32 + r) then [r + 16] else []) ++
      (if mask.getLsbD (48 + r) then [r + 32] else [])
    if l.isEmpty then [r + 16] else l

/-- ARBITRATION_GRANT (02 R53, R54): in cluster `arg.a` the requesters `arg.mask` (bit n requester n) meet on bank `arg.b`;
the first at or after the tick number modulo 11 is granted its foremost request, and every other request waits for the next
tick. A core whose array stream loses freezes the array's owner, one whose load is due and loses the context it issues from.
Requests that lost in this tick are made again in the next one. -/
def execArbitrationGrant (s : State) : Out :=
  .next (
    let p := s.arg.a % 128
    let bank := s.arg.b % 64
    let asked := (List.range 11).flatMap (requestsOf s.arg.mask)
    let again := asked.any fun r => (s.getClu p).denied.contains (r, bank)
    if again && !s.tickOver p then s
    else
    let s := if again then s.nextTick p else s
    let u := s.getClu p
    let order := (List.range 11).map fun i => (u.tick + i) % 11
    let win := (order.findSome? fun r => (requestsOf s.arg.mask r).head?)
    let lost := asked.filter fun r => win != some r
    let s := s.setClu p { u with
      denied := (u.denied.filter fun x => x.2 != bank || !asked.contains x.1) ++ lost.map fun r => (r, bank) }
    lost.foldl (fun s r =>
      let hit (id : Nat) : Bool :=
        if r < 8 then (s.getCore (8 * p + r)).array.owner == some id
        else r < 32 && (s.getCtx id).st == .issuing && (s.getCtx id).q.lq.any fun e => e.kind == .fixed && e.left == 0
      if 8 ≤ r % 16 then s
      else ((List.range 4).map fun x => ctxId p (r % 16) x).foldl (fun s id =>
        if hit id then s.modCtx id fun c => { c with
          freezes := if c.freezes.contains .arbitration then c.freezes else c.freezes ++ [.arbitration] }
        else s) s) s)


/-! ### Freezes of the interlock (19 R433) -/

/-- ICM_INTERLOCK_RELEASE (19 R433): the running stepping's ticks have passed for the registers that hold the bundle due. -/
def execIcmInterlockRelease (s : State) : Out :=
  .next (if s.frozen (fun f => f == .icm) then
      let regs := match s.boundary.planNext with
        | .ok p => s.boundary.planRegs p
        | .error _ => []
      State.thaw { s with ctx := { s.ctx with
        icms := s.ctx.icms.filter fun x => !(x.early == 0 && regs.contains x.dst) } } fun f => f == .icm
    else s)

end Sys2Proof.Machine
end

