-- ==== Sys2Proof/Machine/Control.lean ====
section
/-! DEFINITION. The meanings of class C: branches, loops, waiting and ending, settings, groups, joins and fences,
transactions and snapshots, traps, control registers (09 R243 to R266); and the events of waiting, dormancy, retirement and
waking (07 R185 to R187, 02 R71 to R73). -/

namespace Sys2Proof.Machine

/-! ### Branches (09 R243, R244) -/

/-- A branch to an address, at the end of the bundle. -/
def State.branch (s : State) (t : Nat) : State := { s with issue := { s.issue with target := some t } }

/-- A branch to a word offset from the bundle. -/
def State.branchOff (s : State) (off : Int) : State := s.branch (wordOf ((s.issue.addr : Int) + 4 * off)).toNat

/-- A branch to a register's value: ALIGN where bits 1:0 are set. -/
def State.branchReg (s : State) (r : Nat) (f : State → State) : State :=
  s.consume [r] fun s =>
    let t := (s.sreg r).toNat
    if t % 4 ≠ 0 then s.trapBefore alignCause s.alignDetail 0 else (f s).branch t

/-- The link register s47 receives the next bundle's address. -/
def State.link (s : State) : State := s.oweS 47 (wd s.issue.next) false 1 false

/-- NOP. -/
def execNop (s : State) : Out := s.scalar fun s => s

/-- BR, 32-bit form (09 R242). -/
def execBr (f : BitVec 19) (s : State) : Out := s.scalar fun s => s.branchOff (s.imm f)

/-- BR, 64-bit form (09 R242). -/
def execBr64 (f : BitVec 51) (s : State) : Out := s.scalar fun s => s.branchOff f.toInt

/-- BRI. -/
def execBri (r : BitVec 6) (s : State) : Out := s.scalar fun s => s.branchReg r.toNat fun s => s

/-- CALL, 32-bit form. -/
def execCall (f : BitVec 19) (s : State) : Out := s.scalar fun s => s.link.branchOff (s.imm f)

/-- CALL, 64-bit form. -/
def execCall64 (f : BitVec 51) (s : State) : Out := s.scalar fun s => s.link.branchOff f.toInt

/-- CALLI. -/
def execCalli (r : BitVec 6) (s : State) : Out := s.scalar fun s => s.branchReg r.toNat State.link

/-- RET. -/
def execRet (s : State) : Out := s.scalar fun s => s.branchReg 47 fun s => s

/-! ### Loops (07 R195 to R199, 09 R246 to R248) -/

/-- A loop starts: its body is checked, then the sequencer takes it. Traps as 07 R198 and R201 give. -/
def State.startLoop (s : State) (b ii vr sr n : Nat) (ns : List Nat) : State :=
  match s.loopBody s.issue.next ((s.issue.next - s.issue.addr) / 4) b ii s.ctx.holds with
  | .error e => s.trapBefore e.1 e.2.1 e.2.2
  | .ok (body, after) => match s.energyBad s.issue.weight (some (heaviest ii s.ctx.holds body)) with
    | some e => s.trapBefore e.1 e.2.1 e.2.2
    | none => { s with ctx := { s.ctx with
        seq := some { addr := s.issue.addr, after := after, body := body, ii := ii, n := n, ns := ns, vr := vr, sr := sr,
                      base0 := bits s.ctx.c.vwb 0 10, tick := 0, exit := none, stale := false } } }

/-- LOOP: N is bits 31:0 of its register. -/
def execLoop (b ii : BitVec 7) (n vr : BitVec 6) (sr : BitVec 5) (s : State) : Out :=
  s.scalar fun s => s.consume [n.toNat] fun s =>
    let k := bits (s.sreg n.toNat) 0 32
    s.startLoop b.toNat ii.toNat vr.toNat sr.toNat k [k, 1, 1, 1]

/-- LOOPN: N is the product of bits 15:0 of four registers. -/
def execLoopn (b ii : BitVec 7) (n0 n1 n2 n3 vr : BitVec 6) (sr : BitVec 5) (s : State) : Out :=
  s.scalar fun s => s.consume [n0.toNat, n1.toNat, n2.toNat, n3.toNat] fun s =>
    let k (r : BitVec 6) : Nat := bits (s.sreg r.toNat) 0 16
    s.startLoop b.toNat ii.toNat vr.toNat sr.toNat (k n0 * k n1 * k n2 * k n3) [k n0, k n1, k n2, k n3]

/-- LEXIT: the loop ends with the iteration it stands in; no effect outside a loop body. -/
def execLexit (s : State) : Out :=
  s.scalar fun s =>
    match s.ctx.seq, s.issue.iter with
    | some q, some i =>
      let e := match q.exit with | some j => min i j | none => i
      { s with ctx := { s.ctx with seq := some { q with exit := some e } } }
    | _, _ => s

/-! ### Waiting, yielding, retiring (09 R249 to R252) -/

/-- A flag bit of a context. -/
def Context.flag (c : Context) (f : Nat) : Bool := c.c.flg.getLsbD f

/-- A flag bit cleared. -/
def Context.clearFlag (c : Context) (f : Nat) : Context :=
  { c with c := { c.c with flg := c.c.flg &&& ~~~ (1#64 <<< f) } }

/-- WAIT: the bundle has issued, whichever branch is taken. Being in the control slot, it stands before every entry of its own
bundle (05 R151). -/
def execWait (f : BitVec 5) (c : BitVec 1) (s : State) : Out :=
  s.scalar fun s =>
    if s.ctx.flag f.toNat then (if c = 1 then { s with ctx := s.ctx.clearFlag f.toNat } else s)
    else { s with ctx := { s.ctx with st := .waiting f.toNat (c == 1) s.ctx.q.nextId } }

/-- The focused context leaves its lock-step group (07 R193); the members that remain are one fewer. -/
def State.leaveGroup (s : State) : State :=
  if s.ctx.c.gid.getLsbD 9 then
    let ids := s.memberIds (s.tidOf s.ctx) (bits s.ctx.c.gid 0 8)
    let s := ids.foldl (fun s id => s.modCtx id fun c => { c with members := c.members - 1 }) s
    { s with ctx := { s.ctx with
        c := { s.ctx.c with gid := 0 }
        members := 0
        freezes := s.ctx.freezes.filter (· != .lockstep) } }
  else s

/-- Landing entries are written as their data arrives (02 R71). -/
def State.landEagerly (s : State) : State :=
  s.modQ fun q => { q with landing := q.landing.map fun l => { l with eager := true } }

/-- YIELD: with D = 0 the youngest READY context; with D = 1 dormant once its queues are empty. -/
def execYield (d : BitVec 1) (s : State) : Out :=
  s.scalar fun s =>
    if d = 1 then (s.leaveGroup.landEagerly).freeze .dormancy
    else if s.ctx.c.gid.getLsbD 9 then s
    else s.makeReady s.cur

/-- A transaction of the focused context is given up with a cause (03 R107, R111): its number is free, queued writes of
it are discarded, and a TXBEGIN still on its way registers nothing. -/
def State.giveUp (s : State) (cause : Nat) : State :=
  let s := s.abortTx s.cur
  let s := s.modC fun c => { c with txs := txsWord c.txs 0 0 cause }
  let ended (e : StoreEntry) : StoreEntry := match e.kind with
    | .txBegin _ => { e with tx := some 16385 }
    | _ => if e.tx = some 16384 then { e with tx := some 16385 } else e
  s.modQ fun q => { q with
    sq := q.sq.map ended
    csq := q.csq.map ended
    lq := q.lq.map fun e => if e.snp = srcTx 16384 then { e with snp := 0 } else e }

/-- RETIRE: step 1, and the freeze of step 2 (09 R252). -/
def execRetire (s : State) : Out :=
  s.scalar fun s =>
    let s := if s.ctx.txState = 1 then s.giveUp 5 else s
    s.landEagerly.freeze .retire

/-! ### Settings (07 R202, R208, R211, 09 R253) -/

/-- A write of FMT: refused for a value FMT may not hold. -/
def State.setFmt (s : State) (v : Word) : State :=
  if fmtWordOk v then s.set 1 v
  else s.trapBefore illegalEncoding (detailAt 1 (if 2 ^ 23 ≤ v.toNat then 0x10 else 0x16)) 0

/-- FMTSET from a register. -/
def execFmtset (r : BitVec 6) (s : State) : Out := s.scalar fun s => s.consume [r.toNat] fun s => s.setFmt (s.sreg r.toNat)

/-- FMTSET from an immediate, which decoding has checked. -/
def execFmtset64 (i : BitVec 23) (s : State) : Out := s.scalar fun s => s.set 1 (i.setWidth 64)

/-- BALSET. -/
def execBalset (a : BitVec 10) (s : State) : Out := s.scalar fun s => s.set 2 (a.setWidth 64)

/-- WALSET. -/
def execWalset (a : BitVec 13) (s : State) : Out := s.scalar fun s => s.set 3 (a.setWidth 64)

/-- OPSET: a transition of the cluster, queued while another runs (07 R208, R210). -/
def execOpset (t : BitVec 3) (s : State) : Out :=
  s.scalar fun s =>
    let o := s.clu.oper
    let o := if o.settling || o.mgmt.isSome || o.back.isSome then { o with queued := some t.toNat }
      else o.begin s.clu.tick t.toNat false
    { s with clu := { s.clu with oper := o } }

/-! ### Groups, joins, fences (07 R191 to R193, 05 R157, R160, 09 R254 to R256) -/

/-- Another context of the focused core is a group member. -/
def State.coreHasMember (s : State) : Bool :=
  (List.range 4).any fun x =>
    let id := 4 * s.coreId + x
    id != s.cur && (s.getCtx id).c.gid.getLsbD 9

/-- GJOIN. -/
def execGjoin (g : BitVec 8) (c : BitVec 4) (k : BitVec 3) (s : State) : Out :=
  s.scalar fun s =>
    if s.ctx.c.gid.getLsbD 9 || s.coreHasMember then s.oweK k.toNat false false
    else
      let s := s.oweK k.toNat true false
      { s with ctx := { s.ctx with c := { s.ctx.c with gid := wd (512 + g.toNat) }, members := c.toNat + 1 } }

/-- GLEAVE. -/
def execGleave (s : State) : Out := s.scalar State.leaveGroup

/-- VJOIN: a freeze until the local accesses before it have performed. -/
def execVjoin (s : State) : Out :=
  s.scalar fun s =>
    let b := s.ctx.q.nextId
    if s.joined b then s else s.freeze (.vjoin b)

/-- QMARK: its halves enter both queues under one number. -/
def execQmark (c : BitVec 3) (s : State) : Out :=
  s.scalar fun s =>
    let sc := s.scopeOf c.toNat
    let id := s.ctx.q.nextId
    let s := s.pushStore (.mark sc) false false
    let e : LoadEntry := { id := id, kind := .mark sc, swz := false, need := [], got := [], fmt := .lines [], left := 0
                           snp := 0, acq := none, bundle := s.issue.addr, handler := s.inh, hold := false }
    s.modQ fun q => { q with lq := q.lq ++ [e] }

/-- FENCE: a freeze until everything before it has performed at its scope. -/
def execFence (c : BitVec 3) (s : State) : Out :=
  s.scalar fun s =>
    let sc := s.scopeOf c.toNat
    let b := s.ctx.q.nextId
    if s.fenced sc b then s else s.freeze (.fence sc b)

/-- FENCEP: a freeze until a pkg fence holds and the die's ordering point has drained. -/
def execFencep (d : BitVec 3) (s : State) : Out :=
  s.scalar fun s =>
    let b := s.ctx.q.nextId
    if s.dieDrained d.toNat b then s else s.freeze (.fencep d.toNat b)

/-! ### Transactions and snapshots (03 R87 to R111, 09 R257 to R259) -/

/-- TX_NESTING with its DETAIL. -/
def State.nesting (s : State) (n : Nat) : State := s.trapBefore txNesting (BitVec.ofNat 16 n) 0

/-- A store-queue entry with a landing entry of the same number. -/
def State.pushBoth (s : State) (kind : LandKind) (ad : Nat) (f : Nat → SKind) : State :=
  (s.pushLanding kind ad).pushStore (f s.ctx.q.nextId) false false

/-- TXBEGIN. -/
def execTxbegin (a : BitVec 10) (s : State) : Out :=
  s.scalar fun s =>
    if s.ctx.txState ≠ 0 then s.nesting 1
    else (s.pushBoth .txBegin a.toNat .txBegin).modC fun c => { c with txs := setBits (setBits c.txs 2 2 1) 1 1 0 }

/-- TXCOMMIT. -/
def execTxcommit (d : BitVec 6) (k : BitVec 3) (a : BitVec 10) (s : State) : Out :=
  s.scalar fun s =>
    if s.ctx.txState ≠ 1 then s.nesting 2
    else (s.pushBoth (.txCommit (s.sname d.toNat) k.toNat) a.toNat .txCommit).modC fun c =>
      { c with txs := setBits (setBits c.txs 2 2 2) 1 1 0 }

/-- TXABORT: cause EXPLICIT. -/
def execTxabort (s : State) : Out := s.scalar fun s => if s.ctx.txState ≠ 1 then s.nesting 3 else s.giveUp 5

/-- SNAPNEW. -/
def execSnapnew (d : BitVec 6) (k : BitVec 3) (a : BitVec 10) (s : State) : Out :=
  s.scalar fun s => s.pushBoth (.snapNew (s.sname d.toNat) k.toNat) a.toNat .snapNew

/-- SNAPSET: the handle is bits 31:0 of its register. -/
def execSnapset (r : BitVec 6) (k : BitVec 3) (a : BitVec 10) (s : State) : Out :=
  s.scalar fun s => s.consume [r.toNat] fun s =>
    s.pushBoth (.snapSet k.toNat) a.toNat fun l => .snapSet l ((s.sreg r.toNat).setWidth 32)

/-- SNAPDROP. -/
def execSnapdrop (r : BitVec 6) (k : BitVec 3) (a : BitVec 10) (s : State) : Out :=
  s.scalar fun s => s.consume [r.toNat] fun s =>
    s.pushBoth (.snapDrop k.toNat) a.toNat fun l => .snapDrop l ((s.sreg r.toNat).setWidth 32)

/-! ### Traps and services (09 R261 to R265) -/

/-- A trap taken after its bundle: TNEXT names the next bundle. -/
def State.trapAfter (s : State) (cause : BitVec 8) (detail : BitVec 16) : State :=
  s.takeTrap cause detail s.issue.addr s.issue.next 0

/-- TRAP. -/
def execTrap (c : BitVec 16) (s : State) : Out := s.scalar fun s => s.trapAfter swTrap c

/-- BKPT. -/
def execBkpt (s : State) : Out := s.scalar fun s => s.trapAfter bkptCause 0

/-- ERET: ILLEGAL_ENCODING where the context is in no handler. -/
def execEret (s : State) : Out :=
  s.scalar fun s => if s.inh then s.eret else s.trapBefore illegalEncoding 0x0003 0

/-- A SYSC record of a tenant can be taken by the overflow store or, where none of the tenant's waits there, by its ring (18
R418). -/
def State.canPost (s : State) (tid : Nat) : Bool :=
  decide (s.fqOver.length < 65536) || (s.fqOver.all fun r => r.tid != tid) && (s.ringWrite ⟨tid, []⟩).isSome

/-- The SYSC records a core holds are posted as room comes (18 R418). -/
def State.postHeld (s : State) (id : Nat) : State :=
  let c := s.getCtx id
  c.q.sysc.foldl (fun s r =>
    if s.canPost (s.tidOf c) then
      let s := s.post (s.tidOf c) 3 0 (bits (r.headD 0) 0 14) 0 c.src (bits c.c.lid 0 16) (r.drop 1)
      s.modCtx id fun x => { x with q := { x.q with sysc := x.q.sysc.drop 1 } }
    else s) s

/-- SYSC: the record holds SVC, s8 to s11, the tenant and the sender. It never blocks and never traps; a fifth record that
cannot be posted is lost. -/
def execSysc (_f : BitVec 5) (v : BitVec 14) (s : State) : Out :=
  s.scalar fun s =>
    let r : List Word := [v.setWidth 64, s.sreg 8, s.sreg 9, s.sreg 10, s.sreg 11]
    if s.ctx.q.sysc.length < 4 then (s.modQ fun q => { q with sysc := q.sysc ++ [r] }).postHeld s.cur
    else
      let t := s.tidOf s.ctx
      { s with tenants := NatMap.set .reset s.tenants t { NatMap.get .reset s.tenants t with lost := true } }

/-- CRD: the value in force; reading FILLC clears it (09 R266). -/
def execCrd (d : BitVec 6) (r : BitVec 10) (s : State) : Out :=
  s.scalar fun s =>
    let s' := s.oweS d.toNat (s.creg r.toNat) false 1 false
    if r = 0x23 then { s' with clu := { s'.clu with fillc := 0 } } else s'

/-- CWR: the RW fields change after the register's delay; FMT refuses what it may not hold; read-only registers ignore
it. -/
def execCwr (a : BitVec 6) (r : BitVec 10) (s : State) : Out :=
  s.scalar fun s => s.consume [a.toNat] fun s =>
    if r = 1 then s.setFmt (s.sreg a.toNat) else s.set r.toNat (s.sreg a.toNat)

/-! ### Events of waiting, dormancy, retirement (07 R185, R187, 02 R71 to R73, 09 R250 to R252) -/

/-- WAIT_COMPLETE: the bit context `arg.a` waits for is set, so its WAIT completes. A lock-step member goes on at once. -/
def execWaitComplete (s : State) : Out :=
  .next (s.waitOver s.arg.a)

/-- The load and store queues and the landing buffer are empty; in the handler, of all but the faulted loads that the
capture buffer holds (01 R40). -/
def State.idle (s : State) : Bool :=
  s.ctx.q.aouts.isEmpty && s.ctx.q.lq.all (fun x => s.apart x true) && s.ctx.q.sq.isEmpty && s.ctx.q.landing.all fun l =>
    s.ctx.q.lq.any fun x => s.apart x true && x.kind == .land l.id

/-- DORMANCY_ENTRY. -/
def execDormancyEntry (s : State) : Out :=
  .next (if s.frozen (fun f => f == .dormancy) && s.idle then
      let s : State := { s with ctx := { s.ctx with st := .dormant } }
      (s.thaw fun f => f == .dormancy).leave
    else s)

/-- What a context gives up when it retires or is lost: its group, its snapshot binding, its array (09 R252, 18 R416). -/
def State.release (s : State) : State :=
  let s := s.leaveGroup
  let s := s.unbind s.ctx.bound
  let s := s.modC fun c => { c with snap := 0 }
  if s.core.array.owner = some s.cur then s.modA fun a => { a.endPass with owner := none } else s

/-- RETIRE_COMPLETE: steps 2 to 4 (09 R252). -/
def execRetireComplete (s : State) : Out :=
  .next (if s.frozen (fun f => f == .retire) && s.idle && s.ctx.txState == 0 then
      let s := s.release
      let s : State := { s with ctx := { s.ctx with st := .retired } }
      (s.thaw fun f => f == .retire).leave
    else s)

/-- CONTEXT_WAKE (02 R72, R73): dormant context `arg.a` is loaded from its oldest arrival, and its handler's first bundle is
next. -/
def execContextWake (s : State) : Out :=
  .next (
    let id := s.arg.a
    let k := s.getCore (id / 4)
    match k.arrivals.find? fun x => x.ctx == id with
    | some x =>
      if (s.getCtx id).st != .dormant then s
      else
        let s := s.setCore (id / 4) { k with arrivals := k.arrivals.erase x }
        let cur := s.cur
        let s := s.focus id
        let word (i : Nat) : Word := x.msg.extractLsb' (64 * i) 64
        let s := ((s.putS 5 x.sender).putS 6 x.payload).putS 7 x.len
        let s := (List.range 8).foldl (fun s i =>
          let bad : BitVec 16 := if x.poison.getLsbD i then 1 else 0
          s.writeR ⟨.sreg (8 + i), (word i).setWidth 512, 1, bad, 0, false⟩) s
        let s := { s with ctx := { s.ctx with
          pc := x.handler.toNat
          checked := true
          c := { s.ctx.c with vcc := 0 } } }
        ((s.makeReady id).focus cur).wakeCore (id / 4)
    | none => s)

end Sys2Proof.Machine
end

