-- ==== Sys2Proof/Machine/Array.lean ====
section
/-! DEFINITION. The meanings of class A and class K: the function array, its planes, passes, readout and scale latches (13
R348 to R380, 04 R133 to R145), and the end of a residue freeze. -/

namespace Sys2Proof.Machine

/-! ### Where things lie -/

/-- The key of a byte of a cell. -/
def cellKey (i j b : Nat) : Nat := (i * 64 + j) * 64 + b

/-- The key of an accumulator element. -/
def accKey (bank r j : Nat) : Nat := (bank * 256 + r) * 64 + j

/-- The key of a poison mark. -/
def poisonKey (kind k : Nat) : Nat := kind * 0x100000 + k

/-- The gradient index that a byte of the array belongs to, by its poison key (13 R356). -/
def gradIndex (k : Nat) : Option Nat :=
  match k / 0x100000 with
  | 8 => some (k % 64 / 4)
  | 0 => if 40 ≤ k % 64 then some (16 + (k % 64 - 40) / 4) else none
  | _ => none

/-- The weights a cell packs for a format: P (13 R356). -/
def perCell (fmt : Nat) : Nat := kWidth fmt / 64

/-- The bytes a row of `n` elements of a 16-bit, 8-bit or 4-bit operand format takes. -/
def rowBytes (fmt n : Nat) : Nat := if fmt = 5 then n / 2 else if fmt = 3 ∨ fmt = 4 then n else 2 * n

/-- A format with block scales (04 R134). -/
def blockFmt (fmt : Nat) : Bool := fmt == 3 || fmt == 4 || fmt == 5

/-- The code of element `k` of a row of bytes. -/
def elemCode (fmt : Nat) (byte : Nat → Nat) (k : Nat) : Nat :=
  if fmt = 5 then nbits (byte (k / 2)) (4 * (k % 2)) 4
  else if fmt = 3 ∨ fmt = 4 then byte k
  else byte (2 * k) + 256 * byte (2 * k + 1)

/-- A plane byte. -/
def planeByte (pl : NatMap Byte) (i j b : Nat) : Nat := (NatMap.get 0 pl (cellKey i j b)).toNat

/-- A two-byte slot of a plane. -/
def slotOf (pl : NatMap Byte) (i j q : Nat) : Nat := planeByte pl i j (2 * q) + 256 * planeByte pl i j (2 * q + 1)

/-- A byte put into a plane. -/
def setByteOf (pl : NatMap Byte) (i j b v : Nat) : NatMap Byte := NatMap.set 0 pl (cellKey i j b) (BitVec.ofNat 8 v)

/-- A slot put into a plane. -/
def setSlot (pl : NatMap Byte) (i j q v : Nat) : NatMap Byte :=
  setByteOf (setByteOf pl i j (2 * q) (v % 256)) i j (2 * q + 1) (v / 256 % 256)

/-- The code of the dense weight of K index `kk` and column `j` (13 R356). -/
def denseCode (pl : NatMap Byte) (fmt kk j : Nat) : Nat :=
  let p := perCell fmt
  elemCode fmt (planeByte pl (kk / p) j) (kk % p)

/-- The code of weight `x` (0 or 1) of a sparse cell (13 R356). -/
def sparseCode (pl : NatMap Byte) (fmt i j x : Nat) : Nat := elemCode fmt (planeByte pl i j) x

/-- The index of weight `x` of a sparse cell: bits of slot 2 (13 R356, 04 R138). -/
def sparseIdx (pl : NatMap Byte) (i j x : Nat) : Nat := nbits (planeByte pl i j 4) (2 * x) 2

/-- Gradient index `q` of a cell (13 R356). -/
def ArrayState.grad (a : ArrayState) (i j q : Nat) : W32 :=
  let f (pl : NatMap Byte) (b : Nat) : W32 := ofBytes 32 ((List.range 4).map fun n => NatMap.get 0 pl (cellKey i j (b + n)))
  if q < 16 then f a.gp (4 * q) else f a.cp (40 + 4 * (q - 16))

/-- A gradient put in its place. -/
def ArrayState.setGrad (a : ArrayState) (i j q : Nat) (v : W32) : ArrayState :=
  let f (pl : NatMap Byte) (b : Nat) : NatMap Byte := (List.range 4).foldl (fun m n =>
    NatMap.set 0 m (cellKey i j (b + n)) (byteOf v n)) pl
  let a := { a with poison := a.poison.filter fun e => !(gradIndex e.1 == some q && e.1 % 0x100000 / 64 == 64 * i + j) }
  if q < 16 then { a with gp := f a.gp (4 * q) } else { a with cp := f a.cp (40 + 4 * (q - 16)) }

/-- A gradient is poisoned. -/
def ArrayState.gradBad (a : ArrayState) (i j q : Nat) : Bool :=
  a.poison.any fun e => gradIndex e.1 == some q && e.1 % 0x100000 / 64 == 64 * i + j

/-- A gradient poisoned (13 R354). -/
def ArrayState.spoilGrad (a : ArrayState) (i j q : Nat) : ArrayState :=
  let key := if q < 16 then poisonKey 8 (cellKey i j (4 * q)) else poisonKey 0 (cellKey i j (40 + 4 * (q - 16)))
  { a with poison := (List.range 4).foldl (fun m n => NatMap.set false m (key + n) true) a.poison }

/-- Every gradient +0, those in CP included. -/
def ArrayState.clearGrads (a : ArrayState) : ArrayState :=
  { a with
    gp := []
    cp := a.cp.filter fun e => decide (e.1 % 64 < 40)
    poison := a.poison.filter fun e => (gradIndex e.1).isNone }

/-- An accumulator element. -/
def ArrayState.accAt (a : ArrayState) (src r j : Nat) : W32 :=
  if src = 2 then NatMap.get 0 a.racc (64 * r + j) else NatMap.get 0 a.acc (accKey src r j)

/-- An accumulator element is poisoned. -/
def ArrayState.accBad (a : ArrayState) (src r j : Nat) : Bool :=
  if src = 2 then NatMap.get false a.raccPoison (64 * r + j) else NatMap.get false a.accPoison (accKey src r j)

/-- An accumulator element written. -/
def ArrayState.setAcc (a : ArrayState) (src r j : Nat) (v : W32) (bad : Bool) : ArrayState :=
  if src = 2 then
    { a with racc := NatMap.set 0 a.racc (64 * r + j) v, raccPoison := NatMap.set false a.raccPoison (64 * r + j) bad }
  else
    { a with acc := NatMap.set 0 a.acc (accKey src r j) v
             accPoison := NatMap.set false a.accPoison (accKey src r j) bad }

/-! ### Streams (13 R352, R353) -/

/-- A byte of the local window in the SWZ view, as a stream has read it ahead or else as it stands; nothing where it is poison. -/
def State.winByte (s : State) (a : Nat) : Option Byte :=
  let pa := localPa s.clusterId (swizzle a)
  match NatMap.find? s.ctx.streamed (pa / 8) with
  | some v => v.map fun w => byteOf w (pa % 8)
  | none => if NatMap.get false s.memPoison (pa / 8) then none else some (s.byte pa)

/-- A byte of the window as a number. -/
def State.winVal (s : State) (a : Nat) : Nat := ((s.winByte a).getD 0).toNat

/-- A byte of ranges of the window is poison. -/
def State.winBad (s : State) (l : List (Nat × Nat)) : Bool :=
  l.any fun x => (granulesOf [x]).any fun g => (s.winByte g).isNone

/-! ### Errors in the array and in what its streams read (02 R75 to R78) -/

/-- The poison keys of the 8-byte granule that holds one: 8 plane bytes, 2 knots, 4 side entries, or the bitmap. -/
def granuleKeys (k : Nat) : List Nat :=
  match k / 0x100000 with
  | 2 | 3 => (List.range 2).map (k / 2 * 2 + ·)
  | 4 | 5 => (List.range 4).map (k / 4 * 4 + ·)
  | 6 | 7 => [k / 0x100000 * 0x100000]
  | _ => (List.range 8).map (k / 8 * 8 + ·)

/-- What an uncorrectable error leaves poisoned in the array. -/
def ArrayState.spoil (a : ArrayState) : Site → ArrayState
  | .plane _ k => { a with poison := (granuleKeys k).foldl (fun m k => NatMap.set false m k true) a.poison }
  | .acc _ k => (List.range 2).foldl (fun a n =>
      let e := k / 2 * 2 + n
      if 16 ≤ e / 16384 then { a with raccPoison := NatMap.set false a.raccPoison (e % 16384) true }
      else { a with accPoison := NatMap.set false a.accPoison e true }) a
  | _ => a

/-- An error that a step of the array meets: in its own storage, or in what it reads of the scratchpad; a correction freezes
the core. -/
def State.meetUpset (s : State) (u : Upset) : State :=
  match u.site with
  | .plane _ _ | .acc _ _ =>
    let s := s.foundInCore s.cur u.unc
    if u.unc then s.modA fun a => a.spoil u.site else s
  | .mem _ =>
    let s := s.found u
    if u.unc then s else s.freezeCore s.coreId
  | _ => s

/-- The errors at some sites are met. -/
def State.meet (s : State) (p : Site → Bool) : State :=
  (s.upsets.filter fun u => p u.site).foldl State.meetUpset { s with upsets := s.upsets.filter fun u => !p u.site }

/-- Errors waiting in the granules a stream reads are found. -/
def State.winFind (s : State) (l : List (Nat × Nat)) : State :=
  if s.upsets.isEmpty then s
  else s.meet fun x => match x with
    | .mem pa => (NatMap.find? s.ctx.streamed (pa / 8)).isNone &&
      (granulesOf l).any fun g => localPa s.clusterId (swizzle g) / 8 == pa / 8
    | _ => false

/-- The key of an accumulator element among the sites of errors: RACC stands as bank 16. -/
def accSite (src r j : Nat) : Nat := accKey (if src = 2 then 16 else src) r j

/-- Errors waiting in the planes where `p` holds of a poison key, and in accumulator rows, are found. -/
def State.cellFind (s : State) (p : Nat → Bool) (rows : List (Nat × Nat)) : State :=
  if s.upsets.isEmpty then s
  else s.meet fun x => match x with
    | .plane c k => c == s.coreId && (granuleKeys k).any p
    | .acc c k => c == s.coreId && rows.any fun r => k / 64 == accSite r.1 r.2 0 / 64
    | _ => false

/-- An accumulator row is written whole: no error waits in it any more. -/
def State.overRow (s : State) (src r : Nat) : State :=
  if s.upsets.isEmpty then s
  else { s with upsets := s.upsets.filter fun u => match u.site with
    | .acc c k => !(c == s.coreId && k / 64 == accSite src r 0 / 64)
    | _ => true }

/-- A step that consumes stream bytes, array bytes by poison key, and accumulator rows: errors waiting there are found, and
poison among them raises MCHK (02 R78). Bytes beyond the window or in an absent bank group are not read. -/
def State.eats (s : State) (reads : List (Nat × Nat)) (p : Nat → Bool) (rows : List (Nat × Nat)) (f : State → State) : State :=
  let reads := reads.filter fun x => !s.localBad x.1 x.2
  let s := (s.winFind reads).cellFind p rows
  let a := s.core.array
  if s.winBad reads || (a.poison.any fun e => p e.1) || rows.any fun r => (List.range 64).any fun j => a.accBad r.1 r.2 j then
    s.trapMchk
  else f s

/-- The bank groups that ranges of the window use, one bit each (01 R16). -/
def bankGroups (l : List (Nat × Nat)) : BitVec 4 :=
  l.foldl (fun m x => (List.range ((x.1 + x.2 - 1) / 0x400000 - x.1 / 0x400000 + 1)).foldl
    (fun m i => m ||| (1#4 <<< (x.1 / 0x400000 + i))) m) 0

/-- The checks of a step in 18 R411's order: ALIGN of bases, SCRATCH_RANGE, MXBANK between two streams, WATCH. `a` and `b`
are read, `w` is written. -/
def State.checkStreams (s : State) (bases : List (Nat × Nat)) (a b w : List (Nat × Nat)) (f : State → State) : State :=
  if bases.any fun x => x.1 % x.2 != 0 then s.trapBefore alignCause s.alignDetail 0
  else match (a ++ b ++ w).find? fun x => s.localBad x.1 x.2 with
    | some x => s.trapBefore scratchRange 0 x.1
    | none =>
      let m := bankGroups a &&& bankGroups b
      if m ≠ 0 then s.trapBefore mxBank (m.setWidth 16) 0
      else
        let hit := ((a ++ b).findSome? fun x => s.watches 1 x.1 x.2).or (w.findSome? fun x => s.watches 2 x.1 x.2)
        match hit with
        | some n => s.trapBefore watchCause (BitVec.ofNat 16 (n + 16 * s.env.pos.toNat)) 0
        | none => f (s.winFind (a ++ b))

/-- The address of row `k` of a stream: base plus k strides of 64 B units. -/
def strideAt (base stride k : Nat) : Nat := (base + 64 * stride * k) % 2 ^ 64

/-! ### Passes (13 R349 to R351) -/

/-- The pass that a class A word starts: what it reads at step 0. -/
def State.newPass (s : State) (i : Instr) (regs opnds : List Nat) : Pass :=
  let a := s.core.array
  { slot := ⟨s.env, i⟩, k := 0, ran := false, bad := regs.any s.spois, cut := false, opnds := opnds, fmt := s.ctx.c.fmt
    la := a.la, xa := a.xa, lb := a.lb, sckey := a.sckey, apc := a.apc, row := [] }

/-- The pass of the word at hand: the one that goes on where the word repeats, else a new one. -/
def State.passOf (s : State) (i : Instr) (regs opnds : List Nat) : Pass :=
  match s.core.array.pass with
  | some p => if s.issue.held && p.slot == ⟨s.env, i⟩ then p else s.newPass i regs opnds
  | none => s.newPass i regs opnds

/-- A step is done. -/
def State.stepDone (s : State) (p : Pass) : State :=
  s.modA fun a => { a with pass := some { p with k := p.k + 1, ran := true, cut := false } }

/-- A class A word: one step of its pass. MCHK on the registers read at step 0 comes first, then MXOWN. With a false predicate
nothing takes effect (08 R220), and the step is counted (13 R351); an even step reads no rows then (log 70). -/
def State.pass (s : State) (i : Instr) (regs : List Nat) (opnds : State → List Nat) (run : State → Pass → State) : Out :=
  .next (
    let p := s.passOf i regs (opnds s)
    if !s.pred then
      if s.core.array.owner = some s.cur then s.modA fun a => { a with
        pass := some { p with k := p.k + 1, cut := false, row := if p.k % 2 = 0 then [] else p.row } }
      else s
    else if p.bad then s.trapMchk
    else if s.core.array.owner = some s.cur then run s p
    else s.trapBefore mxOwn 0 0)

/-- MXGRID (13 R367). -/
def State.grid (s : State) (n : Nat) : State := s.trapBefore mxGrid (BitVec.ofNat 16 n) 0

/-- MXGRID codes 4 and 5 at the first step of a pass that runs (13 R367): the mode it needs, then the kind. -/
def State.gridCheck (s : State) (p : Pass) (spline : Option Bool) (kind : Option PlaneKind) (f : State → State) : State :=
  let a := s.core.array
  if !p.ran ∧ spline.any (· != a.spline) then s.grid 4
  else if !p.ran ∧ kind.any (· != a.live.kind) then s.grid 5
  else f s

/-- The energy of a step: 16 + (W − 16) × f wu, f = num / den (13 R355). -/
def State.measF (s : State) (w num den : Nat) : State :=
  { s with issue := { s.issue with meas := some (1024 + 64 * (w - 16) * num / max 1 den) } }

/-- A residue error at this step (13 R354): corrected with a freeze, or the element it names is poisoned by `bad`. -/
def State.residue (s : State) (bad : ArrayState → Nat → ArrayState) : State :=
  match s.residues with
  | [] => s
  | r :: rs =>
    let s := ({ s with residues := rs } : State).freeze .residue
    let org := some (s.originOf s.cur)
    if r.agrees then s.logError (coreBank s.cur) 1 0x0005 false 0 0 org
    else (s.modA fun a => bad a r.column).logError (coreBank s.cur) 2 0x0006 true 0 0 org

/-- RESIDUE_FREEZE_END (13 R354): the 72 ticks are over. -/
def execResidueFreezeEnd (s : State) : Out := .next (s.thaw fun f => f == .residue)

/-! ### Sums (04 R143, R144, 13 R366) -/

/-- The magnitudes of finite values added, in units of 2^e0. -/
def magSum (e0 : Int) (l : List Fl) : Nat := l.foldl (fun a x => a + (x.scaled e0).natAbs) 0

/-- A significand with the factors of two taken out of it, `n` at most. -/
def oddPart : Nat → Nat → Int → Nat × Int
  | 0, m, e => (m, e)
  | n + 1, m, e => if m % 2 = 0 then oddPart n (m / 2) (e + 1) else (m, e)

/-- A finite value with an odd significand. -/
def Fl.odd : Fl → Fl
  | .fin n m e => if m = 0 then .fin n 0 0 else .fin n (oddPart m.log2 m e).1 (oddPart m.log2 m e).2
  | x => x

/-- Every partial sum of some finite values is a value of FP32, whatever their order: it is a multiple of the least of their last
places, and lies between the sum of the negative ones and that of the positive ones. -/
def exactSums (l : List Fl) : Bool :=
  let l := l.map Fl.odd
  let e0 := minExpo l
  decide (-149 ≤ e0) && decide (magSum e0 (l.filter Fl.neg?) ≤ 2 ^ 24) &&
    decide (magSum e0 (l.filter fun x => !x.neg?) ≤ 2 ^ 24)

/-- A column sum in FP32: the exact sum rounded where it overflows, where at most two elements are not zero, and where every order
of rounded additions gives it; else the free value where it keeps R143's bound, else the exact sum rounded (log 11). -/
def columnSum (n : Nat) (l : List Fl) : W32 :=
  let x := flSum false l
  let l := l.filter fun v => !v.isZero
  match x with
  | .fin _ _ _ =>
    let e0 := min (minExpo l) 0
    let m := magSum e0 l
    if l.length ≤ 2 ∨ exactSums l ∨ !(f32 (toF32 rne x)).isFin then toF32 rne x
    else
      let y := f32 (Config.columnSum n)
      match y with
      | .fin _ _ _ =>
        let err := flSum false [y, x.negate]
        let bound := flSum false [.fin false m (e0 - 23), .fin false 1 (-149)]
        let mag : Fl := match err with | .fin _ k e => .fin false k e | z => z
        if mag.cmp bound ≤ 0 then Config.columnSum n else toF32 rne x
      | _ => toF32 rne x
  | x => toF32 rne x

/-- One narrow accumulation: each add rounded to E8M12 with 16 random bits; `n` is the add index, `fields` the counter's
fields below floor(n / 4). -/
def narrowSum (key : Word) (fields : Nat) : Nat → Fl → List Fl → Fl
  | _, p, [] => p
  | n, p, t :: ts =>
    let q := drawBits key (counter 3 (fields + n / 4 * 2 ^ 47)) (n % 4) 16
    narrowSum key fields (n + 1) (decodeFloat 6 (roundFloat 6 ⟨5, 16, q⟩ 0 (flSum false [p, t]))) ts

/-- Accum (13 R366): `d` numbers the draw of the free column sum. -/
def Pass.accum (p : Pass) (d r j bank : Nat) (accIn : W32) (terms : List Fl) : W32 :=
  if fmtNarrow p.fmt then
    let f := p.apc.toNat + r * 2 ^ 32 + j * 2 ^ 40 + bank * 2 ^ 46
    toF32 rne (narrowSum p.sckey f 0 .zero (f32 accIn :: terms))
  else columnSum (64 * d + j) (f32 accIn :: terms)

/-! ### Loading planes (13 R356 to R358, 04 R135 to R139) -/

/-- Where element number `n` of a dense image's data lies: K index and column (13 R357, 04 R135, R137). -/
def densePlace (fmt : Nat) (t : Bool) (n : Nat) : Nat × Nat :=
  if blockFmt fmt then
    let b := n / 1024
    let i := n % 1024 / 32
    let j := n % 32
    if t then
      let w := kWidth fmt / 32
      (32 * (b % w) + j, 32 * (b / w) + i)
    else (32 * (b / 2) + i, 32 * (b % 2) + j)
  else if t then (n % 64, n / 64) else (n / 64, n % 64)

/-- The elements in 128 bytes of data. -/
def elemsPerStep (fmt : Nat) : Nat := if fmt = 5 then 256 else if fmt = 3 ∨ fmt = 4 then 128 else 64

/-- The data bytes of element `n`, by offset in the image. -/
def elemRange (fmt n : Nat) : Nat × Nat :=
  if fmt = 5 then (n / 2, 1) else if fmt = 3 ∨ fmt = 4 then (n, 1) else (2 * n, 2)

/-- A plane being loaded: live or shadow. -/
structure Target where
  shadow : Bool
  deriving DecidableEq, Repr

/-- The bytes of a target plane. -/
def Target.plane (t : Target) (a : ArrayState) : NatMap Byte := if t.shadow then a.sp else a.cp

/-- A target plane's bytes put back. -/
def Target.setPlane (t : Target) (a : ArrayState) (pl : NatMap Byte) : ArrayState :=
  if t.shadow then { a with sp := pl } else { a with cp := pl }

/-- A target plane's descriptor. -/
def Target.desc (t : Target) (a : ArrayState) : PlaneDesc := if t.shadow then a.shadow else a.live

/-- A target plane's descriptor put back. -/
def Target.setDesc (t : Target) (a : ArrayState) (d : PlaneDesc) : ArrayState :=
  if t.shadow then { a with shadow := d } else { a with live := d }

/-- A poison mark of a target: kind 0 bytes, 4 side entries, 6 bitmap. -/
def Target.mark (t : Target) (a : ArrayState) (kind k : Nat) (bad : Bool) : ArrayState :=
  { a with poison := NatMap.set false a.poison (poisonKey (kind + t.shadow.toNat) k) bad }

/-- A byte loaded into a cell. -/
def Target.put (t : Target) (a : ArrayState) (i j b : Nat) (v : Option Nat) : ArrayState :=
  t.mark (t.setPlane a (setByteOf (t.plane a) i j b (v.getD 0))) 0 (cellKey i j b) v.isNone

/-- A nibble loaded into a cell byte. -/
def Target.putNibble (t : Target) (a : ArrayState) (i j b hi : Nat) (v : Option Nat) : ArrayState :=
  let old := planeByte (t.plane a) i j b
  let new := if hi = 0 then old / 16 * 16 + v.getD 0 else old % 16 + 16 * v.getD 0
  let bad := v.isNone || (hi == 1 && NatMap.get false a.poison (poisonKey t.shadow.toNat (cellKey i j b)))
  t.mark (t.setPlane a (setByteOf (t.plane a) i j b new)) 0 (cellKey i j b) bad

/-- A loader's word: image, KV, NV, T, LAY, with the pass's FMT and step. -/
structure Load where
  image : Nat
  kv : Nat
  nv : Nat
  t : Bool
  lay : Nat
  deriving DecidableEq, Repr

/-- KV in force for a dense plane: 511 is the full extent (13 R358). -/
def Load.kvOf (l : Load) (fmt : Nat) : Nat := if l.kv = 511 then kWidth fmt - 1 else l.kv

/-- The side entries a dense image has for a block format, by plane block: offset in the side region where the block lies
in the limits. -/
def Load.sides (l : Load) (fmt : Nat) : List (Nat × Nat) :=
  if blockFmt fmt then
    (List.range (kWidth fmt / 16)).filterMap fun n =>
      let bi := n / 2
      let bj := n % 2
      if 32 * bi ≤ l.kvOf fmt ∧ 32 * bj ≤ l.nv then
        some (n, 2 * (if l.t then bj * (kWidth fmt / 32) + bi else n))
      else none
  else []

/-- Live quads of a bitmap. -/
def liveCount (b : BitVec 128) : Nat := popCount b

/-- The live quads of a bitmap in increasing order. -/
def liveQuads (b : BitVec 128) : List Nat := (List.range 128).filter fun q => b.getLsbD q

/-- The bitmap at the front of a packed window. -/
def State.windowBitmap (s : State) (image : Nat) : BitVec 128 :=
  ofBytes 128 ((List.range 16).map fun n => (s.winByte (image + n)).getD 0)

/-- The ranges step `k` of a plane load requests (13 R357, R358). -/
def State.loadReads (s : State) (l : Load) (tg : Target) (fmt : Word) (k : Nat) : List (Nat × Nat) :=
  let f := fmtB fmt
  match l.lay with
  | 0 =>
    let n0 := k % 64 * elemsPerStep f
    let data := (List.range (elemsPerStep f)).filterMap fun n =>
      let p := densePlace f l.t (n0 + n)
      if p.1 ≤ l.kvOf f ∧ p.2 ≤ l.nv then
        let r := elemRange f (n0 + n)
        some (l.image + r.1, r.2)
      else none
    data ++ (if k = 0 then (l.sides f).map fun x => (l.image + 8192 + x.2, 2) else [])
  | 1 =>
    let row := k % 64
    let live := if k = 0 then liveCount (s.windowBitmap l.image) else liveCount (tg.desc s.core.array).bitmap
    let head := if k = 0 then (l.image, 16) ::
        (if blockFmt f then (List.range 32).filterMap fun n =>
            if 32 * (n % 2) ≤ l.nv then some (l.image + 64 + 2 * n, 2) else none
         else [])
      else []
    let w := rowBytes f 128
    head ++ (if live ≤ row then [] else [(l.image + 128 + 32 * row, (l.nv + 2) / 2),
      (l.image + 2176 + w * row, w / 64 * (l.nv + 1))])
  | _ =>
    let g := s.core.array.g
    let n := k % (64 * (g + 4))
    if n / (g + 4) ≤ l.kv then [(l.image + 128 * n, 2 * (l.nv + 1))] else []

/-- One side entry loaded into a table. -/
def State.sideAt (s : State) (a : Nat) (tg : Target) (x : ArrayState) (n : Nat) : ArrayState :=
  let d := tg.desc x
  let bad := (s.winByte a).isNone || (s.winByte (a + 1)).isNone
  let d := { d with
    ps := NatMap.set 0x7F d.ps n (BitVec.ofNat 8 (s.winVal a))
    px := NatMap.set 0 d.px n (BitVec.ofNat 8 (s.winVal (a + 1))) }
  tg.mark (tg.setDesc x d) 4 n bad

/-- Step 0 of a plane load: the descriptor anew, its side table and bitmap from the image (13 R358). -/
def State.loadHead (s : State) (l : Load) (tg : Target) (fmt : Word) (a : ArrayState) : ArrayState :=
  let f := fmtB fmt
  let kind : PlaneKind := match l.lay with | 0 => .dense | 1 => .sparse | _ => .spline
  let clean := { a with poison := a.poison.filter fun e =>
    e.1 / 0x100000 != 4 + tg.shadow.toNat && e.1 / 0x100000 != 6 + tg.shadow.toNat }
  let a := tg.setDesc clean { PlaneDesc.reset with kind := kind, kv := if l.lay = 0 then l.kvOf f else 511, nv := l.nv }
  match l.lay with
  | 0 => (l.sides f).foldl (fun a x => s.sideAt (l.image + 8192 + x.2) tg a x.1) a
  | 1 =>
    let a := tg.setDesc a { tg.desc a with bitmap := s.windowBitmap l.image }
    let a := tg.mark a 6 0 (s.winBad [(l.image, 16)])
    if blockFmt f then (List.range 32).foldl (fun a n =>
        if 32 * (n % 2) ≤ l.nv then s.sideAt (l.image + 64 + 2 * n) tg a n else a) a
    else a
  | _ => a

/-- An element's code from the window, nothing where it is poison. -/
def State.winCode (s : State) (fmt a n : Nat) : Option Nat :=
  let r := elemRange fmt n
  if (List.range r.2).any fun i => (s.winByte (a + r.1 + i)).isNone then none
  else some (elemCode fmt (fun b => s.winVal (a + b)) n)

/-- A dense weight put into its cell. -/
def Target.putWeight (tg : Target) (a : ArrayState) (fmt kk j : Nat) (v : Option Nat) : ArrayState :=
  let p := perCell fmt
  let i := kk / p
  if fmt = 5 then tg.putNibble a i j (kk % 4 / 2) (kk % 2) v
  else if fmt = 3 ∨ fmt = 4 then tg.put a i j (kk % 2) v
  else tg.put (tg.put a i j 0 (v.map (· % 256))) i j 1 (v.map (· / 256))

/-- What step `k` of a plane load writes (13 R356 to R358). -/
def State.loadStep (s : State) (l : Load) (tg : Target) (fmt : Word) (k : Nat) (a : ArrayState) : ArrayState :=
  let f := fmtB fmt
  let a := if k = 0 then s.loadHead l tg fmt a else a
  match l.lay with
  | 0 =>
    let n0 := k % 64 * elemsPerStep f
    (List.range (elemsPerStep f)).foldl (fun a n =>
      let p := densePlace f l.t (n0 + n)
      tg.putWeight a f p.1 p.2
        (if p.1 ≤ l.kvOf f ∧ p.2 ≤ l.nv then s.winCode f l.image (n0 + n) else some 0)) a
  | 1 =>
    let row := k % 64
    let live := liveCount (tg.desc a).bitmap
    let w := rowBytes f 128
    (List.range 64).foldl (fun a j =>
      let inside := decide (row < live) && decide (j ≤ l.nv)
      let byte (o : Nat) : Option Nat := if inside then (s.winByte (l.image + o)).map BitVec.toNat else some 0
      let idx := (byte (128 + 32 * row + j / 2)).map fun v => nbits v (4 * (j % 2)) 4
      let a := (List.range (w / 64)).foldl (fun a n => tg.put a row j n (byte (2176 + w * row + w / 64 * j + n))) a
      tg.put a row j 4 idx) a
  | _ =>
    let g := a.g
    let n := k % (64 * (g + 4))
    let i := n / (g + 4)
    let q := n % (g + 4)
    (List.range 64).foldl (fun a j =>
      let byte (o : Nat) : Option Nat :=
        if i ≤ l.kv ∧ j ≤ l.nv then (s.winByte (l.image + 128 * n + 2 * j + o)).map BitVec.toNat else some 0
      tg.put (tg.put a i j (2 * q) (byte 0)) i j (2 * q + 1) (byte 1)) a

/-- The alignment of an image: block-scaled dense images 1,024 B, else 64 B (13 R352). -/
def imageAlign (lay fmt : Nat) : Nat := if lay = 0 && blockFmt fmt then 1024 else 64

/-- ALD and ALDS. A value FMT may not hold for them is ILLEGAL_ENCODING. -/
def State.aldWord (s : State) (i : Instr) (tg : Target) (b : BitVec 7) (k : BitVec 9) (n : BitVec 6) (t : BitVec 1)
    (lay : BitVec 2) : Out :=
  s.pass i (baseRegs 64 b.toNat) (fun s => [(s.base7 b.toNat).toNat]) fun s p =>
    let l : Load := ⟨p.opnds.headD 0, k.toNat, n.toNat, t == 1, lay.toNat⟩
    if !p.ran ∧ !aldFmtOk p.fmt lay.toNat k.toNat then s.trapBefore illegalEncoding (detailAt 1 0x16) 0
    else
      let bases := if !p.ran then [(l.image, imageAlign l.lay (fmtB p.fmt))] else []
      s.checkStreams bases (s.loadReads l tg p.fmt p.k) [] [] fun s =>
        (s.modA fun a => s.loadStep l tg p.fmt p.k a).stepDone p

/-- ALD. -/
def execAld (b : BitVec 7) (k : BitVec 9) (n : BitVec 6) (t : BitVec 1) (l : BitVec 2) (s : State) : Out :=
  s.aldWord (.ald b k n t l) ⟨false⟩ b k n t l

/-- ALDS. -/
def execAlds (b : BitVec 7) (k : BitVec 9) (n : BitVec 6) (t : BitVec 1) (l : BitVec 2) (s : State) : Out :=
  s.aldWord (.alds b k n t l) ⟨true⟩ b k n t l

/-! ### Matrix passes (13 R363 to R366) -/

/-- A scale latch. -/
def Pass.laOf (p : Pass) (n : Nat) : Byte := NatMap.get 0x7F p.la n
/-- See `Pass.laOf`. -/
def Pass.xaOf (p : Pass) (n : Nat) : Byte := NatMap.get 0 p.xa n
/-- See `Pass.laOf`. -/
def Pass.lbOf (p : Pass) (n : Nat) : Byte := NatMap.get 0x7F p.lb n

/-- Aval of a code at K index `kk` (13 R363). -/
def Pass.aval (p : Pass) (code kk : Nat) : Fl := blockVal code (fmtA p.fmt) (p.laOf (kk / 32)) (p.xaOf (kk / 32))

/-- Bval of a code at K index `kk` and column `j` (13 R363). -/
def Pass.bval (p : Pass) (d : PlaneDesc) (code kk j : Nat) : Fl :=
  let n := kk / 32 * 2 + j / 32
  (blockVal code (fmtB p.fmt) (NatMap.get 0x7F d.ps n) (NatMap.get 0 d.px n)).mul (scaleVal (p.lbOf (j / 32)))

/-- A factor that is zero. -/
def zeroFactor (x : Fl) : Bool := x.isZero

/-- The terms of a column as pairs of factors; an element that is not fetched is no pair. -/
abbrev Terms := List (Option (Fl × Fl))

/-- The values of terms: +0 for what is not fetched. -/
def termVals (l : Terms) : List Fl := l.map fun x => match x with | some (a, b) => a.mul b | none => .zero

/-- The products of terms whose two factors are fetched and not zero. -/
def termWork (l : Terms) : Nat := (l.filter fun x => match x with
  | some (a, b) => !zeroFactor a && !zeroFactor b
  | none => false).length

/-- The fetched elements of an AMMS A row: those of live quads up to KV (13 R365). -/
def liveElems (d : PlaneDesc) (kv : Nat) : List Nat :=
  (liveQuads d.bitmap).flatMap fun q => ((List.range 4).map (4 * q + ·)).filter fun kk => decide (kk ≤ kv)

/-- The ranges of an A row's elements. -/
def elemReads (fmt base : Nat) (l : List Nat) : List (Nat × Nat) := l.map fun n =>
  let r := elemRange fmt n
  (base + r.1, r.2)

/-- A weight of the live plane takes part: it was fetched by the plane's load, or has been written since (04 R136, 13 R363,
R375). -/
def PlaneDesc.has (d : PlaneDesc) (kk j code : Nat) : Bool := (decide (kk ≤ d.kv) && decide (j ≤ d.nv)) || code != 0

/-- The column terms of AMM. -/
def ArrayState.ammTerms (a : ArrayState) (p : Pass) (code : Nat → Nat) (kv j : Nat) : Terms :=
  (List.range (kWidth (fmtB p.fmt))).map fun kk =>
    let w := denseCode a.cp (fmtB p.fmt) kk j
    if kk ≤ kv ∧ a.live.has kk j w then some (p.aval (code kk) kk, p.bval a.live w kk j) else none

/-- The column terms of AMMS: physical rows below L, weight 0 then 1. -/
def ArrayState.ammsTerms (a : ArrayState) (p : Pass) (code : Nat → Nat) (kv j : Nat) : Terms :=
  let quads := liveQuads a.live.bitmap
  ((List.range quads.length).zip quads).flatMap fun x => (List.range 2).map fun n =>
    let kk := 4 * x.2 + sparseIdx a.cp x.1 j n
    let w := sparseCode a.cp (fmtB p.fmt) x.1 j n
    if kk ≤ kv ∧ a.live.has 0 j w then some (p.aval (code kk) kk, p.bval a.live w kk j) else none

/-- What an AMM step consumes of the live plane, by poison key: the bytes of the weights up to KV, in slot 0, and the side
entries of their blocks (13 R356, R365). -/
def ammReads (fmt kv k : Nat) : Bool :=
  let c := k % 0x100000
  match k / 0x100000 with
  | 0 =>
    let first := perCell fmt * (c / 4096) + (if fmt = 5 then 2 * (c % 64) else if fmt = 3 ∨ fmt = 4 then c % 64 else 0)
    decide (c % 64 < 2) && decide (first ≤ kv)
  | 4 => decide (c / 2 ≤ kv / 32)
  | _ => false

/-- What an AMMS step consumes of the live plane: in each live quad up to KV the index byte and the bytes of the weights whose
K index lies up to KV, the side entries of its blocks, and the bitmap. -/
def ArrayState.ammsReads (a : ArrayState) (fmt kv k : Nat) : Bool :=
  let quads := (liveQuads a.live.bitmap).filter fun q => decide (4 * q ≤ kv)
  let c := k % 0x100000
  match k / 0x100000 with
  | 0 => match quads[c / 4096]? with
    | none => false
    | some q => c % 64 == 4 || (List.range 2).any fun x =>
        let r := elemRange fmt x
        decide (r.1 ≤ c % 64) && decide (c % 64 < r.1 + r.2) &&
          decide (4 * q + sparseIdx a.cp (c / 4096) (c / 64 % 64) x ≤ kv)
  | 4 => quads.any fun q => q / 8 == c / 2
  | 6 => true
  | _ => false

/-- The operands of AMM and AMMS (13 R364). -/
structure MatArgs where
  sparse : Bool
  rs : Nat
  kv : Nat
  row0 : Nat
  bank : Nat
  clr : Bool
  wf : Nat
  sl : Bool
  slay : Nat
  deriving DecidableEq, Repr

/-- AMM and AMMS (13 R364, R365). -/
def State.matWord (s : State) (i : Instr) (b z : BitVec 7) (m : MatArgs) : Out :=
  s.pass i (baseRegs 64 b.toNat ++ if m.sl then baseRegs 64 z.toNat else [])
    (fun s => [(s.base7 b.toNat).toNat, if m.sl then (s.base7 z.toNat).toNat else 0]) fun s p =>
    let a := s.core.array
    let fa := fmtA p.fmt
    let l : Load := ⟨p.opnds.getD 1 0, if m.slay = 0 then 511 else 63, 63, false, m.slay⟩
    if !p.ran ∧ !(ammFmtOk p.fmt m.wf && (!m.sl || aldFmtOk p.fmt m.slay 0)) then
      s.trapBefore illegalEncoding (detailAt 1 0x16) 0
    else s.gridCheck p (some false) (some (if m.sparse then .sparse else .dense)) fun s =>
      if !p.ran ∧ m.sparse ∧ 64 < liveCount a.live.bitmap then s.grid 3
      else
        let base := strideAt (p.opnds.headD 0) m.rs p.k
        let els := if m.sparse then liveElems a.live m.kv else List.range (m.kv + 1)
        let reads := elemReads fa base els
        let shadow := if m.sl then s.loadReads l ⟨true⟩ p.fmt p.k else []
        let bases := if !p.ran then (p.opnds.headD 0, 64) ::
          (if m.sl then [(l.image, imageAlign l.lay (fmtB p.fmt))] else []) else []
        let r := (m.row0 + p.k) % 256
        let fb := fmtB p.fmt
        s.eats reads (if m.sparse then a.ammsReads fb m.kv else ammReads fb m.kv) (if m.clr then [] else [(m.bank, r)]) fun s =>
        s.checkStreams bases reads shadow [] fun s =>
          let code (k : Nat) : Nat := elemCode fa (fun o => s.winVal (base + o)) k
          let terms (j : Nat) : Terms := if m.sparse then a.ammsTerms p code m.kv j else a.ammTerms p code m.kv j
          let s1 : State := { s with draws := s.draws + 1 }
          let s1 := s1.modA fun x => (List.range 64).foldl (fun x j =>
            let accIn := if m.clr then 0 else a.accAt m.bank r j
            x.setAcc m.bank r j (p.accum s.draws r j m.bank accIn (termVals (terms j))) false) x
          let s1 := (s1.overRow m.bank r).residue fun x n => x.setAcc m.bank r (n % 64) (x.accAt m.bank r (n % 64)) true
          let s1 := if m.sl then s1.modA fun x => s.loadStep l ⟨true⟩ p.fmt p.k x else s1
          let work := sumNat ((List.range 64).map fun j => termWork (terms j))
          let all := if m.sparse then 128 * liveCount a.live.bitmap else 64 * kWidth (fmtB p.fmt)
          let w := if m.sparse then 544 else if m.wf = 2 then 448 else 512
          (s1.measF w work all).stepDone p

/-- AMM. -/
def execAmm (b : BitVec 7) (r : BitVec 12) (k : BitVec 9) (o : BitVec 8) (n c : BitVec 1) (w : BitVec 2) (l : BitVec 1)
    (y : BitVec 2) (z : BitVec 7) (s : State) : Out :=
  s.matWord (.amm b r k o n c w l y z) b z
    ⟨false, r.toNat, k.toNat, o.toNat, n.toNat, c == 1, w.toNat, l == 1, y.toNat⟩

/-- AMMS. -/
def execAmms (b : BitVec 7) (r : BitVec 12) (k : BitVec 9) (o : BitVec 8) (n c : BitVec 1) (w : BitVec 2) (l : BitVec 1)
    (y : BitVec 2) (z : BitVec 7) (s : State) : Out :=
  s.matWord (.amms b r k o n c w l y z) b z
    ⟨true, r.toNat, k.toNat, o.toNat, n.toNat, c == 1, w.toNat, l == 1, y.toNat⟩

/-! ### Planes and settings (13 R359, R360, R368, R369) -/

/-- Two tables with no key in common put together. -/
def NatMap.join {α : Type} (m n : NatMap α) : NatMap α := n.foldl (fun m e => NatMap.put m e.1 e.2) m

/-- ASWAP: bytes 0 to 39 of CP and SP, and the descriptors. -/
def ArrayState.swap (a : ArrayState) : ArrayState :=
  let slots (m : NatMap Byte) : NatMap Byte := m.filter fun e => decide (e.1 % 64 < 40)
  let flip (k : Nat) : Nat := match k / 0x100000 with
    | 0 => if k % 64 < 40 then k + 0x100000 else k
    | 1 => k - 0x100000 | 4 => k + 0x100000 | 5 => k - 0x100000
    | 6 => k + 0x100000 | 7 => k - 0x100000 | _ => k
  { a with
    cp := NatMap.join (a.cp.filter fun e => decide (40 ≤ e.1 % 64)) (slots a.sp)
    sp := slots a.cp
    live := a.shadow, shadow := a.live
    poison := a.poison.foldl (fun m e => NatMap.put m (flip e.1) e.2) [] }

/-- ASWAP: the exchange reads both planes and their descriptors. -/
def execAswap (s : State) : Out := s.pass .aswap [] (fun _ => []) fun s p =>
  let both (k : Nat) : Bool := match k / 0x100000 with
    | 0 | 1 => decide (k % 64 < 40)
    | 4 | 5 | 6 | 7 => true
    | _ => false
  ((s.cellFind both []).modA ArrayState.swap).stepDone p

/-- AZERO by target. -/
def ArrayState.zero (a : ArrayState) (t : Nat) : ArrayState :=
  let bank (b : Nat) {α : Type} (m : NatMap α) : NatMap α := m.filter fun e => e.1 / 16384 != b
  match t with
  | 0 => { a with acc := bank 0 a.acc, accPoison := bank 0 a.accPoison }
  | 1 => { a with acc := bank 1 a.acc, accPoison := bank 1 a.accPoison }
  | 2 => { a with acc := [], accPoison := [] }
  | 3 => { a with racc := [], raccPoison := [] }
  | 4 => a.clearGrads
  | _ => { a with oog := [] }

/-- What AZERO writes whole: no error waits there any more. -/
def State.overZero (s : State) (t : Nat) : State :=
  if s.upsets.isEmpty then s
  else { s with upsets := s.upsets.filter fun u => match u.site with
    | .acc c k => !(c == s.coreId && match t with
        | 0 => k / 16384 == 0
        | 1 => k / 16384 == 1
        | 2 => decide (k / 16384 < 16)
        | 3 => k / 16384 == 16
        | _ => false)
    | .plane c k => !(c == s.coreId && t == 4 && (gradIndex k).isSome)
    | _ => true }

/-- AZERO. -/
def execAzero (t : BitVec 3) (s : State) : Out :=
  s.pass (.azero t) [] (fun _ => []) fun s p => ((s.overZero t.toNat).modA fun a => a.zero t.toNat).stepDone p

/-- AMODE. -/
def execAmode (m : BitVec 1) (b c : BitVec 2) (g : BitVec 3) (s : State) : Out :=
  s.pass (.amode m b c g) [] (fun _ => []) fun s p =>
    (s.modA fun a => { a with spline := m == 1, basef := b.toNat, clamp := c.toNat, g := 2 ^ g.toNat }).stepDone p

/-- AKNOT: 64 lower bounds, then 64 reciprocal widths. -/
def execAknot (b : BitVec 6) (d : BitVec 13) (s : State) : Out :=
  s.pass (.aknot b d) (baseRegs 48 b.toNat) (fun s => [ea (s.base6 b.toNat) (512 * d.toInt)]) fun s p =>
    let base := p.opnds.headD 0
    let reads := [(base, 512)]
    s.checkStreams (if !p.ran then [(base, 64)] else []) reads [] [] fun s =>
      let s := if s.upsets.isEmpty then s else { s with upsets := s.upsets.filter fun u => match u.site with
        | .plane c k => !(c == s.coreId && (k / 0x100000 == 2 || k / 0x100000 == 3))
        | _ => true }
      let word (o : Nat) : W32 := ofBytes 32 ((List.range 4).map fun n => (s.winByte (base + o + n)).getD 0)
      let bad (o : Nat) : Bool := s.winBad [(base + o, 4)]
      (s.modA fun a => (List.range 64).foldl (fun a i => { a with
        klo := NatMap.set 0 a.klo i (word (4 * i))
        kih := NatMap.set 0 a.kih i (word (256 + 4 * i))
        poison := NatMap.set false (NatMap.set false a.poison (poisonKey 2 i) (bad (4 * i))) (poisonKey 3 i)
          (bad (256 + 4 * i)) }) a).stepDone p

/-! ### Spline arithmetic (04 R145, 13 R370) -/

/-- BF16 of a value n × 2^e / q that the array computes in FP32 to within some ulp: the nearest BF16 where every FP32 value in
the bound rounds to it, else the free value's where it keeps the bound (log 12). -/
def bf16Near (sel : Nat) (v : W32) (n e : Int) (q ulps : Nat) : BitVec 16 :=
  if n = 0 then 0
  else
    let val (m : Int) (f : Int) : Fl := match ratio (decide (m < 0)) m.natAbs q 64 with
      | .fin s k g => .fin s k (g + f)
      | z => z
    let lg : Int := match val n e with | .fin _ k g => (Nat.log2 k : Int) + g | _ => 0
    let ue := max (lg - 23) (-149)
    let f := min e ue
    let n' := n * 2 ^ (e - f).toNat
    let w : Int := (q * ulps : Nat) * 2 ^ (ue - f).toNat
    let lo := toBf16 (val (n' - w) f)
    let hi := toBf16 (val (n' + w) f)
    if lo = hi then lo
    else match f32 (Config.splineFp32 sel v) with
      | .fin s m g =>
        let y : Fl := (Fl.fin s m g).mul (.fin false q 0)
        let a : Fl := .fin (decide (n' - w < 0)) (n' - w).natAbs f
        let b : Fl := .fin (decide (n' + w < 0)) (n' + w).natAbs f
        if a.cmp y ≤ 0 ∧ y.cmp b ≤ 0 then toBf16 (.fin s m g) else toBf16 (val n e)
      | _ => toBf16 (val n e)

/-- Six times the basis values at t = n × 2^e, as integers in units of 2^(3e) (04 R145); e ≤ 0. -/
def basis6 (n : Int) (e : Int) : List Int :=
  let one : Int := 2 ^ (-e).toNat
  let t := n
  [(one - t) ^ 3, 3 * t ^ 3 - 6 * t ^ 2 * one + 4 * one ^ 3,
   -3 * t ^ 3 + 3 * t ^ 2 * one + 3 * t * one ^ 2 + one ^ 3, t ^ 3]

/-- Twice the derivatives, in units of 2^(2e). -/
def dbasis2 (n : Int) (e : Int) : List Int :=
  let one : Int := 2 ^ (-e).toNat
  let t := n
  [-((one - t) ^ 2), 3 * t ^ 2 - 4 * t * one, -3 * t ^ 2 + 2 * t * one + one ^ 2, t ^ 2]

/-- What a row makes of its activation: σ, e_q, e′_q, bb, bb′, and where u lies: 0 inside, 1 below, 2 above. -/
structure RowPos where
  sigma : Nat
  e : List (BitVec 16)
  e' : List (BitVec 16)
  bb : BitVec 16
  bb' : BitVec 16
  out : Nat
  deriving DecidableEq, Repr

/-- The base function and its derivative of an activation (13 R370): SILU is a value within 3 ulp (log 12), its
limits at 0 and ±∞. -/
def baseFns (basef : Nat) (x : W32) : BitVec 16 × BitVec 16 :=
  match basef with
  | 0 => (0, 0)
  | 1 => (toBf16 (f32 x), 0x3F80)
  | _ =>
    match f32 x with
    | .inf n => (if n then 0x8000 else 0x7F80, if n then 0 else 0x3F80)
    | .fin n 0 _ => (if n then 0x8000 else 0, 0x3F00)
    | .nan => (0x7FC0, 0x7FC0)
    | y => (toBf16 (f32 (boundedFn 0x12 y (Config.splineFp32 8 x))), toBf16 (f32 (boundedFn 0 y (Config.splineFp32 9 x))))

/-- The grid position of row `i` for an activation; nothing where u is NaN (13 R370). DESIGN CHOICE (log 70): e′_q = KIH ×
DBasis(t)_q is rounded once, after the product (R370), and not first by the helper (R145). -/
def ArrayState.position (a : ArrayState) (i : Nat) (x : W32) : Option RowPos :=
  let klo := f32 (NatMap.get 0 a.klo i)
  let kih := f32 (NatMap.get 0 a.kih i)
  let u := f32 (toF32 rne ((f32 (toF32 rne (flSum false [f32 x, klo.negate]))).mul kih))
  if u == .nan then none
  else
    let g : Fl := .fin false a.g 0
    let out := if u.cmp .zero < 0 then 1 else if 0 < u.cmp g then 2 else 0
    let uc : Fl := if out = 1 then .zero else if out = 2 then g else u
    let du : Fl := if out = 0 then .zero else flSum false [u, uc.negate]
    let (m, ex) : Int × Int := match uc with | .fin _ m ex => ((m : Int), ex) | _ => (0, 0)
    let (m, ex) : Int × Int := if 0 < ex then (m * 2 ^ ex.toNat, 0) else (m, ex)
    let one : Int := 2 ^ (-ex).toNat
    let sigma := min (m / one).toNat (a.g - 1)
    let t := m - (sigma : Int) * one
    let b6 := basis6 t ex
    let d2 := dbasis2 t ex
    let tv := toF32 rne (.fin (decide (t < 0)) t.natAbs ex)
    let plain (q : Nat) : BitVec 16 := bf16Near q tv (b6.getD q 0) (3 * ex) 6 2
    let e (q : Nat) : BitVec 16 :=
      if a.clamp = 1 ∧ out ≠ 0 then
        match du with
        | .fin s dm de =>
          let d : Int := if s then -(dm : Int) else dm
          let e0 := min (3 * ex) (2 * ex + de)
          let n := b6.getD q 0 * 2 ^ (3 * ex - e0).toNat + 3 * d * d2.getD q 0 * 2 ^ (2 * ex + de - e0).toNat
          bf16Near (16 + q) tv n e0 6 2
        | .inf s =>
          let v := d2.getD q 0
          if v = 0 then canonNan 1 else if decide (v < 0) != s then 0xFF80 else 0x7F80
        | .nan => canonNan 1
      else if a.clamp = 2 ∧ out ≠ 0 then 0
      else plain q
    let e' (q : Nat) : BitVec 16 :=
      if a.clamp ≠ 1 ∧ out ≠ 0 then 0
      else match kih with
        | .fin s km ke =>
          let k : Int := if s then -(km : Int) else km
          bf16Near (32 + q) tv (k * d2.getD q 0) (2 * ex + ke) 2 2
        | .inf s =>
          let v := d2.getD q 0
          if v = 0 then canonNan 1 else if decide (v < 0) != s then 0xFF80 else 0x7F80
        | .nan => canonNan 1
    let b := baseFns a.basef x
    some ⟨sigma, (List.range 4).map e, (List.range 4).map e', b.1, b.2, out⟩

/-- The value of a BF16 pattern. -/
def bf16 (v : Nat) : Fl := decodeFloat 1 v

/-- Coefficient slot `q` of a cell. -/
def ArrayState.coef (a : ArrayState) (i j q : Nat) : Fl := bf16 (slotOf a.cp i j q)

/-- The five products of φ_ij as factors (13 R370). -/
def ArrayState.phi (a : ArrayState) (i j : Nat) (p : RowPos) : Terms :=
  ((List.range 4).map fun q => some (a.coef i j (p.sigma + q), bf16 (p.e.getD q 0).toNat)) ++
    [some (a.coef i j (a.g + 3), bf16 p.bb.toNat)]

/-- 64 FP32 values of a stream row. -/
def State.winRow (s : State) (base : Nat) : List W32 :=
  (List.range 64).map fun i => ofBytes 32 ((List.range 4).map fun n => (s.winByte (base + 4 * i + n)).getD 0)

/-- The coefficients and the base weight that a sample consumes, by poison key, and the knots (13 R370): c_σ to c_(σ+3) and w of
each row whose u is a number. -/
def ArrayState.phiReads (a : ArrayState) (pos : List (Option RowPos)) (k : Nat) : Bool :=
  let q := k % 64 / 2
  match k / 0x100000 with
  | 2 | 3 => true
  | 0 => match pos[k % 0x100000 / 4096]? with
    | some (some p) => (decide (p.sigma ≤ q) && decide (q ≤ p.sigma + 3)) || q == a.g + 3
    | _ => false
  | _ => false

/-- What a sample of AGRAD consumes: the knots and the gradients it adds to (13 R374); in linear mode gradient 0. -/
def ArrayState.gradReads (a : ArrayState) (pos : List (Option RowPos)) (k : Nat) : Bool :=
  match gradIndex k with
  | some q =>
    if !a.spline then q == 0
    else match pos[k % 0x100000 / 4096]? with
      | some (some p) => (q == a.g + 3 && !(bf16 p.bb.toNat).isZero) ||
          (decide (p.sigma ≤ q) && decide (q ≤ p.sigma + 3) && !(bf16 (p.e.getD (q - p.sigma) 0).toNat).isZero)
      | _ => false
  | none => a.spline && (k / 0x100000 == 2 || k / 0x100000 == 3)

/-- The rows that the odd step of a sample applies: those its even step read. Where that did not run they are free values: the
manual reads rows at the even step only (log 70). -/
def State.rowsOf (s : State) (p : Pass) : State × List W32 :=
  if p.row.isEmpty then
    ({ s with draws := s.draws + 128 }, (List.range 128).map fun k => (Config.freeWord (s.draws + k)).setWidth 32)
  else (s, p.row)

/-- The grid positions of a row of activations. -/
def ArrayState.positions (a : ArrayState) (x : List W32) : List (Option RowPos) :=
  ((List.range 64).zip x).map fun y => a.position y.1 y.2

/-- The terms of column `j` of AEVAL. -/
def ArrayState.evalTerms (a : ArrayState) (pos : List (Option RowPos)) (j : Nat) : Terms :=
  ((List.range 64).zip pos).flatMap fun x => match x.2 with
    | some p => a.phi x.1 j p
    | none => List.replicate 5 (some (.nan, .nan))

/-- The counters after a sample (13 R370). -/
def ArrayState.countOut (a : ArrayState) (pos : List (Option RowPos)) : ArrayState :=
  ((List.range 64).zip pos).foldl (fun a x => match x.2 with
    | some p => if p.out = 0 then a else
        let k := 2 * x.1 + (p.out - 1)
        let v := NatMap.get 0 a.oog k
        { a with oog := NatMap.set 0 a.oog k (if v = 0xFFFF then v else v + 1) }
    | none => a) a

/-- AEVAL (13 R371, R372): the even step reads a sample's row, the odd step applies it. -/
def execAeval (b : BitVec 7) (r : BitVec 12) (o : BitVec 8) (n c : BitVec 1) (s : State) : Out :=
  s.pass (.aeval b r o n c) (baseRegs 64 b.toNat) (fun s => [(s.base7 b.toNat).toNat]) fun s p =>
    let a := s.core.array
    s.gridCheck p (some true) (some .spline) fun s =>
      let m := p.k / 2
      let row := (o.toNat + m) % 256
      let work (pos : List (Option RowPos)) : State → State := fun s =>
        s.measF 640 (sumNat ((List.range 64).map fun j => termWork (a.evalTerms pos j))) 20480
      if p.k % 2 = 0 then
        let base := strideAt (p.opnds.headD 0) r.toNat m
        s.eats [(base, 256)] (fun _ => false) [] fun s =>
        s.checkStreams (if !p.ran then [(p.opnds.headD 0, 64)] else []) [(base, 256)] [] [] fun s =>
          let x := s.winRow base
          let pos := a.positions x
          s.eats [] (a.phiReads pos) [] fun s => (work pos s).stepDone { p with row := x }
      else
        let rows := s.rowsOf p
        let pos := a.positions (rows.2.take 64)
        rows.1.eats [] (a.phiReads pos) (if c = 0 then [(n.toNat, row)] else []) fun s =>
        let s1 : State := { s with draws := s.draws + 1 }
        let s1 := s1.modA fun x => ((List.range 64).foldl (fun x j =>
          let accIn := if c = 1 then 0 else a.accAt n.toNat row j
          x.setAcc n.toNat row j (p.accum s.draws row j n.toNat accIn (termVals (a.evalTerms pos j))) false) x).countOut pos
        let s1 := (s1.overRow n.toNat row).residue fun x k =>
          x.setAcc n.toNat row (k % 64) (x.accAt n.toNat row (k % 64)) true
        (work pos s1).stepDone { p with row := [] }

/-- The mode and the kind ABWD, AGRAD and AUPD need: spline with SPLINE, or linear with DENSE in BF16 (13 R367). -/
def ArrayState.trainBad (a : ArrayState) (fmt : Word) : Bool :=
  if a.spline then a.live.kind != .spline else a.live.kind != .dense || fmtB fmt != 1

/-- The terms of row `i` of ABWD, in order of column. -/
def ArrayState.bwdTerms (a : ArrayState) (i : Nat) (pos : Option RowPos) (d : List W32) : List (Fl × Terms) :=
  ((List.range 64).zip d).map fun y =>
    (f32 y.2, if a.spline then match pos with
      | some p => ((List.range 4).map fun q => some (a.coef i y.1 (p.sigma + q), bf16 (p.e'.getD q 0).toNat)) ++
          [some (a.coef i y.1 (a.g + 3), bf16 p.bb'.toNat)]
      | none => List.replicate 5 (some (.nan, .nan))
    else [if a.live.has i y.1 (slotOf a.cp i y.1 0) then some (a.coef i y.1 0, .fin false 1 0) else none])

/-- What a sample of ABWD consumes: as AEVAL; in linear mode slot 0 (13 R373). -/
def ArrayState.bwdReads (a : ArrayState) (pos : List (Option RowPos)) (k : Nat) : Bool :=
  if a.spline then a.phiReads pos k else decide (k < 0x100000) && decide (k % 64 < 2)

/-- ABWD (13 R371, R373). -/
def execAbwd (b : BitVec 7) (r : BitVec 12) (z : BitVec 7) (q : BitVec 12) (o : BitVec 8) (c : BitVec 1) (s : State) :
    Out :=
  s.pass (.abwd b r z q o c) (baseRegs 64 z.toNat ++ if s.core.array.spline then baseRegs 64 b.toNat else [])
    (fun s => [(s.base7 b.toNat).toNat, (s.base7 z.toNat).toNat]) fun s p =>
    let a := s.core.array
    if !p.ran ∧ a.trainBad p.fmt then s.grid 5
    else
      let m := p.k / 2
      let row := (o.toNat + m) % 256
      let posOf (x : List W32) : List (Option RowPos) := if a.spline then a.positions x else []
      let terms (pos : List (Option RowPos)) (d : List W32) (i : Nat) : List (Fl × Terms) := a.bwdTerms i (pos.getD i none) d
      let work (pos : List (Option RowPos)) (d : List W32) (s : State) : State :=
        let n := sumNat ((List.range 64).map fun i => sumNat ((terms pos d i).map fun t =>
          if zeroFactor t.1 then 0 else termWork t.2))
        s.measF 640 n (if a.spline then 20480 else 4096)
      if p.k % 2 = 0 then
        let xb := strideAt (p.opnds.headD 0) r.toNat m
        let db := strideAt (p.opnds.getD 1 0) q.toNat m
        let xr := if a.spline then [(xb, 256)] else []
        let bases := if !p.ran then (p.opnds.getD 1 0, 64) :: (if a.spline then [(p.opnds.headD 0, 64)] else []) else []
        s.eats ((db, 256) :: xr) (fun _ => false) [] fun s =>
        s.checkStreams bases xr [(db, 256)] [] fun s =>
          let x := if a.spline then s.winRow xb else List.replicate 64 0
          let d := s.winRow db
          let pos := posOf x
          s.eats [] (a.bwdReads pos) [] fun s => (work pos d s).stepDone { p with row := x ++ d }
      else
        let rows := s.rowsOf p
        let pos := posOf (rows.2.take 64)
        let d := rows.2.drop 64
        rows.1.eats [] (a.bwdReads pos) (if c = 0 then [(2, row)] else []) fun s =>
        let s1 : State := { s with draws := s.draws + 1 }
        let s1 := s1.modA fun w => (List.range 64).foldl (fun w i =>
          let accIn := if c = 1 then 0 else a.accAt 2 row i
          let vals := (terms pos d i).flatMap fun t => t.2.map fun v => match v with
            | some (x, y) => t.1.mul (x.mul y)
            | none => .zero
          let nanRow := a.spline && (pos.getD i none).isNone
          w.setAcc 2 row i (if nanRow then BitVec.ofNat 32 (canonNan 0) else p.accum s.draws row i 0 accIn vals) false) w
        let s1 := (s1.overRow 2 row).residue fun w n => w.setAcc 2 row (n % 64) (w.accAt 2 row (n % 64)) true
        (work pos d s1).stepDone { p with row := [] }

/-- One gradient with a product added and rounded. -/
def ArrayState.addGrad (a : ArrayState) (i j q : Nat) (x : Fl) : ArrayState :=
  a.setGrad i j q (toF32 rne (flSum false [f32 (a.grad i j q), x]))

/-- A sample's gradients of one cell (13 R374). -/
def ArrayState.gradCell (a : ArrayState) (i j : Nat) (x : W32) (pos : Option RowPos) (d : W32) : ArrayState :=
  if !a.spline then a.addGrad i j 0 ((f32 d).mul (f32 x))
  else match pos with
    | none => (List.range (a.g + 4)).foldl (fun a q => a.setGrad i j q (BitVec.ofNat 32 (canonNan 0))) a
    | some p =>
      let a := (List.range 4).foldl (fun a q =>
        let e := bf16 (p.e.getD q 0).toNat
        if e.isZero then a else a.addGrad i j (p.sigma + q) ((f32 d).mul e)) a
      let bb := bf16 p.bb.toNat
      if bb.isZero then a else a.addGrad i j (a.g + 3) ((f32 d).mul bb)

/-- AGRAD (13 R371, R374). -/
def execAgrad (b : BitVec 7) (r : BitVec 12) (z : BitVec 7) (q : BitVec 12) (c : BitVec 1) (s : State) : Out :=
  s.pass (.agrad b r z q c) (baseRegs 64 b.toNat ++ baseRegs 64 z.toNat)
    (fun s => [(s.base7 b.toNat).toNat, (s.base7 z.toNat).toNat]) fun s p =>
    let a := s.core.array
    if !p.ran ∧ a.trainBad p.fmt then s.grid 5
    else
      let m := p.k / 2
      let posOf (x : List W32) : List (Option RowPos) := if a.spline then a.positions x else []
      let work (x d : List W32) (pos : List (Option RowPos)) (s : State) : State :=
        let nz := (d.filter fun v => !zeroFactor (f32 v)).length
        let rows := sumNat ((List.range 64).map fun i =>
          if a.spline then match pos.getD i none with
            | some p => (p.e.filter fun e => !zeroFactor (bf16 e.toNat)).length +
                (if zeroFactor (bf16 p.bb.toNat) then 0 else 1)
            | none => 5
          else if zeroFactor (f32 (x.getD i 0)) then 0 else 1)
        s.measF 704 (nz * rows) (if a.spline then 20480 else 4096)
      if p.k % 2 = 0 then
        let xb := strideAt (p.opnds.headD 0) r.toNat m
        let db := strideAt (p.opnds.getD 1 0) q.toNat m
        let bases := if !p.ran then [(p.opnds.headD 0, 64), (p.opnds.getD 1 0, 64)] else []
        let clear : Bool := p.k == 0 && c == 1
        s.eats [(xb, 256), (db, 256)] (fun _ => false) [] fun s =>
        s.checkStreams bases [(xb, 256)] [(db, 256)] [] fun s =>
          let x := s.winRow xb
          let d := s.winRow db
          let pos := posOf x
          s.eats [] (fun k => a.gradReads pos k && !(clear && (gradIndex k).isSome)) [] fun s =>
            let s := if clear then (s.overZero 4).modA ArrayState.clearGrads else s
            (work x d pos s).stepDone { p with row := x ++ d }
      else
        let rows := s.rowsOf p
        let x := rows.2.take 64
        let d := rows.2.drop 64
        let pos := posOf x
        rows.1.eats [] (a.gradReads pos) [] fun s =>
        let s1 := s.modA fun a => (List.range 64).foldl (fun a i =>
          (List.range 64).foldl (fun a j => a.gradCell i j (x.getD i 0) (pos.getD i none) (d.getD j 0)) a) a
        let s1 := s1.residue fun a n => a.spoilGrad (n / 64 % 64) (n % 64) (n / 4096 % (a.g + 4))
        (work x d pos s1).stepDone { p with row := [] }

/-- AUPD (13 R375): step k updates row k mod 64. -/
def execAupd (a : BitVec 6) (r : BitVec 5) (s : State) : Out :=
  s.pass (.aupd a r) [a.toNat] (fun s => [bits (s.sreg a.toNat) 0 32]) fun s p =>
    let x := s.core.array
    if !p.ran ∧ x.trainBad p.fmt then s.grid 5
    else
      let i := p.k % 64
      let alpha := f32 (BitVec.ofNat 32 (p.opnds.headD 0))
      let idx := if x.spline then List.range (x.g + 4) else [0]
      let reads (k : Nat) : Bool := k % 0x100000 / 4096 == i && match gradIndex k with
        | some q => idx.contains q
        | none => decide (k < 0x100000) && idx.contains (k % 64 / 2)
      s.eats [] reads [] fun s =>
        let s1 := s.modA fun y => (List.range 64).foldl (fun y j => idx.foldl (fun y q =>
          let sum := flSum false [y.coef i j q, alpha.mul (f32 (y.grad i j q))]
          let ctr := counter 4 (p.apc.toNat + i * 2 ^ 32 + j * 2 ^ 38 + q * 2 ^ 44)
          let v := roundFloat 1 ⟨5, r.toNat, drawBits p.sckey ctr 0 r.toNat⟩ 1 (clip 1 1 0 sum)
          ({ y with cp := setSlot y.cp i j q v } : ArrayState).setGrad i j q 0) y) y
        (s1.residue fun y n => { y with poison := (List.range 2).foldl (fun m b =>
          NatMap.set false m (cellKey i (n % 64) (2 * (idx.getD (n / 4096 % idx.length) 0) + b)) true) y.poison }).stepDone p

/-- A cell refined (13 R376): 2G + 3 coefficients from G + 3, the base weight moved on. -/
def refineCell (g : Nat) (pl : NatMap Byte) (i j : Nat) : NatMap Byte :=
  let c (q : Nat) : Fl := bf16 (slotOf pl i j q)
  let w := slotOf pl i j (g + 3)
  let new := (List.range (2 * g + 3)).map fun n =>
    let m := n / 2
    let x := if n % 2 = 0 then (flSum false [c m, c (m + 1)]).mul (.fin false 1 (-1))
      else (flSum false [c m, (c (m + 1)).mul (.fin false 6 0), c (m + 2)]).mul (.fin false 1 (-3))
    (toBf16 x).toNat
  setSlot (((List.range (2 * g + 3)).zip new).foldl (fun pl x => setSlot pl i j x.1 x.2) pl) i j (2 * g + 3) w

/-- Poison marks moved by key; those of a key that `f` answers nothing for go. -/
def movePoison (f : Nat → Option Nat) (l : NatMap Bool) : NatMap Bool :=
  l.foldl (fun m e => match f e.1 with | some k => NatMap.put m k e.2 | none => m) []

/-- Where AREFINE leaves the poison of a byte: the base weight carries its own on, and every coefficient is new. -/
def refineMark (g k : Nat) : Option Nat :=
  let q := k % 64 / 2
  if 0x100000 ≤ k ∨ 40 ≤ k % 64 then some k
  else if q = g + 3 then some (k + 2 * g)
  else if q ≤ 2 * g + 3 then none
  else some k

/-- AREFINE (13 R376). It consumes the coefficients and KIH and moves the base weight. -/
def execArefine (s : State) : Out :=
  s.pass .arefine [] (fun _ => []) fun s p =>
    let a := s.core.array
    if !a.spline then s.grid 4
    else if a.g = 16 then s.grid 1
    else s.eats [] (fun k => (decide (k < 0x100000) && decide (k % 64 / 2 ≤ a.g + 2)) || k / 0x100000 == 3) [] fun s =>
      let s := s.cellFind (fun k => decide (k < 0x100000) && decide (k % 64 < 40)) []
      ((s.overZero 4).modA fun a =>
        let a := a.clearGrads
        let cp := (List.range 64).foldl (fun pl i => (List.range 64).foldl (fun pl j => refineCell a.g pl i j) pl) a.cp
        let kih := (List.range 64).foldl (fun m i =>
          NatMap.set 0 m i (toF32 rne ((f32 (NatMap.get 0 a.kih i)).mul (.fin false 2 0)))) a.kih
        { a with cp := cp, kih := kih, g := 2 * a.g, poison := movePoison (refineMark a.g) a.poison }).stepDone p

/-- A cell extended (13 R377): coefficients and gradients moved up by LO, new ones 0, the base weight to G′ + 3. -/
def ArrayState.extendCell (a : ArrayState) (g g' lo i j : Nat) : ArrayState :=
  let old (q : Nat) : Nat × W32 := (slotOf a.cp i j q, a.grad i j q)
  let at_ (q : Nat) : Nat × W32 :=
    if q = g' + 3 then old (g + 3) else if lo ≤ q ∧ q - lo ≤ g + 2 then old (q - lo) else (0, 0)
  (List.range (g' + 4)).foldl (fun x q => ({ x with cp := setSlot x.cp i j q (at_ q).1 } : ArrayState).setGrad i j q (at_ q).2) a

/-- The index to which AEXTEND moves a coefficient or gradient of an index; nothing for one it leaves behind. -/
def extendIndex (g g' lo q : Nat) : Option Nat :=
  if q = g + 3 then some (g' + 3) else if q ≤ g + 2 then some (q + lo) else if q ≤ g' + 3 then none else some q

/-- Where AEXTEND leaves the poison of a byte, which moves with its coefficient or gradient (02 R78). -/
def extendMark (g g' lo k : Nat) : Option Nat :=
  match gradIndex k with
  | some q => (extendIndex g g' lo q).map fun q' =>
      let cell := k % 0x100000 / 64 * 64
      if q' < 16 then poisonKey 8 (cell + 4 * q' + k % 4) else poisonKey 0 (cell + 40 + 4 * (q' - 16) + k % 4)
  | none =>
    if 0x100000 ≤ k then some k
    else (extendIndex g g' lo (k % 64 / 2)).map fun q' => k / 64 * 64 + 2 * q' + k % 2

/-- KLO after an extension: KLO − LO / KIH, rounded once. -/
def extendKlo (klo kih : W32) (lo : Nat) : W32 :=
  match f32 klo, f32 kih with
  | .fin a m e, .fin b (n + 1) f =>
    let k : Fl := .fin b (n + 1) f
    toF32 rne (flDiv (flSum false [(Fl.fin a m e).mul k, .fin true lo 0]) k)
  | x, k => toF32 rne (flSum false [x, (flDiv (.fin false lo 0) k).negate])

/-- AEXTEND (13 R377). -/
def execAextend (l u : BitVec 4) (s : State) : Out :=
  s.pass (.aextend l u) [] (fun _ => []) fun s p =>
    let a := s.core.array
    let g' := a.g + l.toNat + u.toNat
    if !a.spline then s.grid 4
    else if g' ∉ [1, 2, 4, 8, 16] then s.grid 2
    else s.eats [] (fun k => k / 0x100000 == 2 || k / 0x100000 == 3) [] fun s =>
      let s := s.cellFind (fun k => decide (k < 0x100000) || k / 0x100000 == 8) []
      (s.modA fun a =>
        let marks := movePoison (extendMark a.g g' l.toNat) a.poison
        let x := (List.range 64).foldl (fun x i =>
          (List.range 64).foldl (fun x j => x.extendCell a.g g' l.toNat i j) x) a
        let klo := (List.range 64).foldl (fun m i =>
          NatMap.set 0 m i (extendKlo (NatMap.get 0 a.klo i) (NatMap.get 0 a.kih i) l.toNat)) a.klo
        { x with klo := klo, g := g', poison := marks }).stepDone p

/-! ### Readout (13 R378 to R380) -/

/-- Element `j` of a row converted (13 R379): the lane and group it has under AOUT with GB = `g0` name its draw. -/
def State.outElem (s : State) (p : Pass) (m : Fl) (e : Int) (g0 j : Nat) (v : W32) : Nat :=
  let c := fmtO p.fmt
  let w := codeWidth c
  let md := roundMode s.env.pfx p.fmt
  let cl := clipMode s.env.pfx p.fmt
  let byte := w * j / 8
  let g := g0 + byte / 64
  let l := byte % 64 / 4
  let el := w * j % 32 / w
  let rd : Rnd := if md.1 = 5 then
      ⟨5, md.2, drawBits s.ctx.c.rkey (laneCounter s.ctx.c.rctr g l (el / 4)) (el % 4) md.2⟩
    else ⟨md.1, 0, 0⟩
  roundNum c rd cl.1 cl.2 ((f32 v).mul (m.mul (.fin false 1 e)))

/-- The multiplier of AOUT: bits 31:0 of a register, 1.0 for s0. -/
def State.outMul (s : State) (m : Nat) : Nat := if m = 0 then 0x3F800000 else bits (s.sreg m) 0 32

/-- A converted row as one number of 64 × w bits. -/
def State.outRow (s : State) (p : Pass) (m : Fl) (e : Int) (g0 src r : Nat) : Nat :=
  let a := s.core.array
  let w := codeWidth (fmtO p.fmt)
  (List.range 64).foldl (fun acc j => acc + s.outElem p m e g0 j (a.accAt src r j) * 2 ^ (w * j)) 0

/-- A row's elements +0 where CLR asks for it. -/
def State.clearRow (s : State) (clr : Bool) (src r : Nat) : State :=
  if clr then (s.overRow src r).modA fun a => (List.range 64).foldl (fun a j => a.setAcc src r j 0 false) a else s

/-- AOUT. -/
def execAout (d : BitVec 10) (g : BitVec 3) (c : BitVec 2) (o : BitVec 8) (m : BitVec 6) (e : BitVec 8) (x : BitVec 1)
    (s : State) : Out :=
  s.pass (.aout d g c o m e x) [m.toNat] (fun s => [s.outMul m.toNat]) fun s p =>
    let r := (o.toNat + p.k) % 256
    if !p.ran ∧ !(outFmtOk p.fmt && outFits p.fmt g.toNat) then s.trapBefore illegalEncoding (detailAt 1 0x16) 0
    else s.eats [] (fun _ => false) [(c.toNat, r)] fun s =>
      let w := codeWidth (fmtO p.fmt)
      let row := s.outRow p (f32 (BitVec.ofNat 32 (p.opnds.headD 0))) e.toInt g.toNat c.toNat r
      let n := max 1 (outGroups p.fmt)
      let s1 := (List.range n).foldl (fun s k =>
        s.oweV (g.toNat + k) ((d.toNat + p.k) % 1024) (BitVec.ofNat 512 (row >>> (512 * k)))
          (if w = 4 then 0xFF else 0xFFFF) 0 8) s
      ((s1.clearRow (x == 1) c.toNat r).markDraw ((roundMode s.env.pfx p.fmt).1 == 5)).stepDone p

/-- AOUTS: its writes, in the SWZ view, are on their way to the banks (05 R149). -/
def execAouts (b : BitVec 7) (q : BitVec 12) (c : BitVec 2) (o : BitVec 8) (m : BitVec 6) (e : BitVec 8) (x : BitVec 1)
    (s : State) : Out :=
  s.pass (.aouts b q c o m e x) (m.toNat :: baseRegs 64 b.toNat)
    (fun s => [s.outMul m.toNat, (s.base7 b.toNat).toNat]) fun s p =>
    let r := (o.toNat + p.k) % 256
    let base := p.opnds.getD 1 0
    let addr := strideAt base q.toNat p.k
    let n := 8 * codeWidth (fmtO p.fmt)
    if !p.ran ∧ !outFmtOk p.fmt then s.trapBefore illegalEncoding (detailAt 1 0x16) 0
    else s.eats [] (fun _ => false) [(c.toNat, r)] fun s =>
    s.checkStreams (if !p.ran then [(base, 64)] else []) [] [] [(addr, n)] fun s =>
      let row := s.outRow p (f32 (BitVec.ofNat 32 (p.opnds.headD 0))) e.toInt 0 c.toNat r
      let ws := (List.range (n / 8)).map fun k =>
        (⟨localPa s.clusterId (swizzle (addr + 8 * k)), 0xFF, some (BitVec.ofNat 64 (row >>> (64 * k)))⟩ : Granule)
      let s1 := s.modQ fun q => { q with aouts := q.aouts ++ ws }
      ((s1.clearRow (x == 1) c.toNat r).markDraw ((roundMode s.env.pfx p.fmt).1 == 5)).stepDone p

/-- AOOG: the counters of 64 rows, to groups 0 to 3. -/
def execAoog (d : BitVec 6) (c : BitVec 1) (s : State) : Out :=
  s.pass (.aoog d c) [] (fun _ => []) fun s p =>
    let a := s.core.array
    let n (k : Nat) : Nat := (NatMap.get 0 a.oog k).toNat
    let s1 := (List.range 4).foldl (fun s g =>
      s.oweV g (s.vwin d.toNat) (ofLanes fun l =>
        BitVec.ofNat 32 (n (2 * (16 * g + l)) + 65536 * n (2 * (16 * g + l) + 1))) 0xFFFF 0 4) s
    (if c = 1 then s1.modA fun a => { a with oog := [] } else s1).stepDone p

/-- AGOUT: a plain copy, which carries poison (02 R78). -/
def execAgout (d : BitVec 10) (g : BitVec 3) (o : BitVec 6) (q : BitVec 5) (c : BitVec 1) (s : State) : Out :=
  s.pass (.agout d g o q c) [] (fun _ => []) fun s p =>
    let i := (o.toNat + p.k) % 64
    let s := s.cellFind (fun k => gradIndex k == some q.toNat && k % 0x100000 / 4096 == i) []
    let a := s.core.array
    let s1 := (List.range 4).foldl (fun s k =>
      s.oweV (g.toNat + k) ((d.toNat + p.k) % 1024) (ofLanes fun l => a.grad i (16 * k + l) q.toNat) 0xFFFF
        (laneSet fun l => a.gradBad i (16 * k + l) q.toNat) 4) s
    (if c = 1 then s1.modA fun a => (List.range 64).foldl (fun a j => a.setGrad i j q.toNat 0) a else s1).stepDone p

/-- ACOUT: a plain copy, which carries poison (02 R78). -/
def execAcout (d : BitVec 10) (g : BitVec 3) (o : BitVec 6) (q : BitVec 5) (l : BitVec 1) (s : State) : Out :=
  s.pass (.acout d g o q l) [] (fun _ => []) fun s p =>
    let i := (o.toNat + p.k) % 64
    let s := s.cellFind (fun k => k / 0x100000 == l.toNat && k % 64 / 2 == q.toNat && k % 0x100000 / 4096 == i) []
    let a := s.core.array
    let pl := if l = 1 then a.sp else a.cp
    let bad (j : Nat) : Bool := (List.range 2).any fun n =>
      NatMap.get false a.poison (poisonKey l.toNat (cellKey i j (2 * q.toNat + n)))
    let s1 := (List.range 2).foldl (fun s k =>
      s.oweV (g.toNat + k) ((d.toNat + p.k) % 1024)
        (ofLanes fun x => BitVec.ofNat 32
          (slotOf pl i (32 * k + 2 * x) q.toNat + 65536 * slotOf pl i (32 * k + 2 * x + 1) q.toNat))
        0xFFFF (laneSet fun x => bad (32 * k + 2 * x) || bad (32 * k + 2 * x + 1)) 4) s
    s1.stepDone p

/-! ### Scale latches (13 R361, R362) -/

/-- A class K word: MCHK, then MXOWN; its writes are visible 3 bundles later. -/
def State.latch (s : State) (a : Nat) (f : Word → List LatchWrite) : Out :=
  s.scalar fun s => s.consume [a] fun s =>
    if s.core.array.owner = some s.cur then s.modA fun x => { x with latches := x.latches ++ (f (s.sreg a)).map fun w => { w with handler := s.inh } }
    else s.trapBefore mxOwn 0 0

/-- Bytes of a register as latch writes from a first latch on. -/
def latchBytes (tgt first cnt : Nat) (v : Word) : List LatchWrite :=
  (List.range (cnt + 1)).map fun n => ⟨tgt, first + n, (byteOf v n).setWidth 64, 3, false⟩

/-- SCALE: SIDE 0 writes LA, 1 writes LB. -/
def execScale (a : BitVec 6) (c : BitVec 1) (f : BitVec 4) (n : BitVec 3) (s : State) : Out :=
  s.latch a.toNat (latchBytes c.toNat f.toNat n.toNat)

/-- SCX. -/
def execScx (a : BitVec 6) (f : BitVec 4) (n : BitVec 3) (s : State) : Out :=
  s.latch a.toNat (latchBytes 2 f.toNat n.toNat)

/-- SCKEY: APC becomes 0 with it. -/
def execSckey (a : BitVec 6) (s : State) : Out := s.latch a.toNat fun v => [⟨3, 0, v, 3, false⟩]

end Sys2Proof.Machine
end

