-- ==== Sys2Proof/Machine/Launching.lean ====
section
/-! DEFINITION. Launches on clusters: which clusters are eligible and in which order, the state a launch starts with, the
clearing between tenants, saving a launch and resuming it, and lost contexts (02 R48, 07 R184, 16 R394 to R400, 18 R413 to
R416, 19 R432). -/

namespace Sys2Proof.Machine

/-! ### Sorting -/

/-- An element put before the first one it is not above. -/
def insertBy {α : Type} (le : α → α → Bool) (x : α) : List α → List α
  | [] => [x]
  | y :: ys => if le x y then x :: y :: ys else y :: insertBy le x ys

/-- A list in order, equal elements keeping theirs. -/
def sortBy {α : Type} (le : α → α → Bool) : List α → List α
  | [] => []
  | x :: xs => insertBy le x (sortBy le xs)

/-! ### The launch record (16 R394) -/

/-- The context numbers of a running launch, with their places. -/
def Launch.contexts (l : Launch) : List ((Nat × Nat × Nat) × Nat) :=
  (startedPlaces l.shape).filterMap fun x => (l.map[x.1]?).map fun p => (x, ctxId p x.2.1 x.2.2)

/-- A launch is an update job (16 R403). -/
def Launch.isJob (l : Launch) : Bool := bits (l.words.getD 0 0) 0 8 == 7

/-! ### Firmware records (16 R391, R406) -/

/-- A work queue. -/
def State.queue (s : State) (q : Nat) : WQueue := NatMap.get .reset s.queues q

/-- Word `n` of a command's record. -/
def Command.word (c : Command) (n : Nat) : Word := c.words.getD n 0

/-- OP. -/
def Command.op (c : Command) : Nat := bits (c.word 0) 0 8

/-- OVLP. -/
def Command.ovlp (c : Command) : Bool := (c.word 0).getLsbD 8

/-- A nonzero reserved field of a record (16 R391): `cond` lets COND stand; `named` lists the words the command names. -/
def Command.reserved (c : Command) (cond : Bool) (named : List Nat) : Bool :=
  let w := c.word 0
  w.toNat / 65536 != 0 || (!cond && bits w 12 4 != 0) || decide (6 ≤ bits w 9 3) || (c.ovlp && c.op != 1) ||
    (c.word 2).getLsbD 63 || (List.range 16).any fun n => decide (3 ≤ n) && !named.contains n && c.word n != 0

/-- The clusters a SELFTEST names that it has not tested. -/
def Command.untested (c : Command) : List Nat :=
  let m := (c.word 3).toNat + (c.word 4).toNat * 2 ^ 64
  (List.range 128).filter fun p => m.testBit p && !c.prog.testBit p

/-- A SELFTEST of the physical function runs: it reserves clusters (16 R406). -/
def Command.testing (c : Command) (tid : Nat) : Bool :=
  c.started && !c.done && c.op == 8 && tid == 0 && !c.reserved false [3, 4, 5]

/-- A running SELFTEST names a cluster that it has not tested. -/
def State.named (s : State) (p : Nat) : Bool :=
  s.queues.any fun x => x.2.cmds.any fun c => c.testing x.2.tid && c.untested.contains p

/-! ### Clearing (02 R48) -/

/-- The vector registers, scratchpad and kept array state of a cluster cleared, as on a change of tenant. -/
def State.clearCluster (s : State) (p : Nat) : State :=
  let s := (List.range 32).foldl (fun s i => s.modCtx (32 * p + i) fun c =>
    { c with regs := { c.regs with v := [], vpoison := [] } }) s
  let s := (List.range 8).foldl (fun s k =>
    let c := s.getCore (8 * p + k)
    let a := { c.array with
      cp := [], gp := [], sp := [], live := .reset, shadow := .reset, klo := [], kih := [], acc := [], racc := []
      accPoison := [], raccPoison := [], oog := [], poison := [] }
    s.setCore (8 * p + k) { c with array := a }) s
  let lo := localPa p 0
  { s with
    mem := s.mem.filter fun x => !(decide (lo ≤ x.1) && decide (x.1 < lo + 0x1000000))
    memPoison := s.memPoison.filter fun x => !(decide (lo / 8 ≤ x.1) && decide (x.1 < lo / 8 + 0x200000)) }

/-- A cluster taken by a tenant: cleared if it last ran another one. -/
def State.takeCluster (s : State) (tid p : Nat) : State :=
  let s := match (s.getClu p).lastTid with
    | some t => if t = tid then s else s.clearCluster p
    | none => s
  s.setClu p { s.getClu p with lastTid := some tid }

/-! ### Eligible clusters (16 R396, R398) -/

/-- The running launches on a cluster, those in `gone` left out. -/
def State.holders (s : State) (p : Nat) (gone : List Nat) : List Launch :=
  (s.launches.filter fun x => !gone.contains x.1 && x.2.st == .running && x.2.map.contains p).map Prod.snd

/-- Two records start no context in common on a core that both use. -/
def disjoint8 (a b : Word) : Bool := bits a 12 4 &&& bits b 12 4 == 0

/-- A cluster is eligible for a record, the launches in `gone` counted out (01 R18, 16 R396); none that a running SELFTEST names, be
it still occupied (R406). -/
def State.eligible (s : State) (tid : Nat) (w8 : Word) (gone : List Nat) (p : Nat) : Bool :=
  let u := s.getClu p
  let hs := s.holders p gone
  !u.reserved && !s.named p && !u.withdrawn && !u.gated && hs.all (fun l => l.tid == tid && disjoint8 l.shape w8) &&
    (!w8.getLsbD 20 || (List.range (coreCount w8)).all fun c => match (s.getCore (8 * p + c)).array.owner with
      | none => true
      | some id => gone.contains (bits (s.getCtx id).c.lid 0 16))

/-- The sum of the headroom of some clusters. -/
def State.headroom (s : State) (l : List Nat) : Int := l.foldl (fun a p => a + (s.getClu p).hr) 0

/-- The eligible clusters in the order of the record's mode. -/
def State.placeList (s : State) (tid : Nat) (w8 : Word) (gone : List Nat) : List Nat :=
  let e := (List.range 128).filter (s.eligible tid w8 gone)
  let mode := bits w8 24 2
  let ofDie (d : Nat) : List Nat := e.filter fun p => p / 16 == d
  if mode = 1 ∨ (mode = 0 ∧ vcount w8 ≤ 32) then
    let dies := (List.range 8).filter fun d => !(ofDie d).isEmpty
    let le (a b : Nat) : Bool :=
      decide (s.headroom (ofDie b) * ((ofDie a).length : Int) ≤ s.headroom (ofDie a) * ((ofDie b).length : Int))
    (sortBy le dies).flatMap ofDie
  else
    let even (p : Nat) : Bool := (p % 16 / 4 + p % 16) % 2 == 0
    let le (a b : Nat) : Bool := decide ((s.getClu b).hr < (s.getClu a).hr) || ((s.getClu a).hr == (s.getClu b).hr && a ≤ b)
    sortBy le (e.filter even) ++ sortBy le (e.filter fun p => !even p)

/-- The map of a launch's virtual clusters, if enough clusters are eligible. -/
def State.mapping (s : State) (tid : Nat) (w8 : Word) (gone : List Nat) : Option (List Nat) :=
  let l := s.placeList tid w8 gone
  if vcount w8 ≤ l.length then some (l.take (vcount w8)) else none

/-! ### Starting a launch (02 R48, 07 R184, 03 R91, 13 R348) -/

/-- The array of a core at the start of a launch that assigns its owner. -/
def ArrayState.start (a : ArrayState) (owner : Nat) : ArrayState :=
  { a with
    spline := false, basef := 0, clamp := 0, g := 1, la := [], xa := [], lb := [], sckey := 0, apc := 0, latches := []
    pass := none, owner := some owner }

/-- A context at the start of a launch: its vector registers are kept; its iterators start at 0 (log 8). -/
def Launch.startContext (l : Launch) (lid : Nat) (x : Nat × Nat × Nat) (old : Context) : Context :=
  let w (n : Nat) : Word := l.words.getD n 0
  let w8 := l.shape
  let w9 := w 9
  let bal := bits w9 32 10
  let wal := bits w9 42 13
  let entry := (w (16 + 32 * x.1 + 4 * x.2.1 + x.2.2)).toNat
  let snap := bits w8 32 32
  let regs : List (Nat × Word) := [(1, wd x.2.2), (2, wd x.2.1), (3, wd x.1), (4, w 4)]
  { Context.reset with
    st := if w8.getLsbD (16 + x.2.2) then .dormant else .ready
    pc := ((w 3).toNat + entry) % 2 ^ 64
    checked := true
    regs := { Regs.reset with
      s := regs.foldl (fun m r => NatMap.set 0 m r.1 r.2) []
      v := old.regs.v
      vpoison := old.regs.vpoison }
    c := { CRegs.reset with
      bal := if bal = 0 then 1023 else wd bal
      wal := if wal = 0 then 8191 else wd wal
      tvec := trapAddr ((w 3).toNat + bits w9 0 32)
      snap := if snap = 0 then 0 else wd (snap + 2 ^ 63)
      lid := wd lid }
    place := x
    icm := if w9.getLsbD 55 then some (w9.getLsbD 56) else none }

/-- Contexts made READY in an order, and on each core the oldest issues; a launch makes the lowest numbers READY first (log
71). -/
def State.readyUp (s : State) (ids : List Nat) : State :=
  (ids.foldl (fun s id => s.makeReady id) s) |> fun s => (ids.map (· / 4)).eraseDups.foldl State.wakeCore s

/-- A launch placed on clusters (16 R396): its contexts, arrays and bindings start; the binding that its acceptance made is
given up (03 R91). An update job has no context of its own. -/
def State.startLaunch (s : State) (lid : Nat) (l : Launch) : State :=
  let s := l.map.foldl (fun s p => s.takeCluster l.tid p) s
  let s := { s with launches := NatMap.put s.launches lid l }
  if l.isJob then s
  else
    let w8 := l.shape
    let s := if w8.getLsbD 20 then
        l.map.foldl (fun s p => (List.range (coreCount w8)).foldl (fun s c =>
          let k := s.getCore (8 * p + c)
          s.setCore (8 * p + c) { k with array := k.array.start (ctxId p c (bits w8 21 2)) }) s) s
      else s
    let s := l.contexts.foldl (fun s x => s.setCtx x.2 (l.startContext lid x.1 (s.getCtx x.2))) s
    let snap := bits w8 32 32
    let s := if snap = 0 then s else (l.contexts.foldl (fun s _ => s.bind (snap % 4096)) s).unbind snap
    s.readyUp ((l.contexts.filter fun x => !w8.getLsbD (16 + x.1.2.2)).map Prod.snd)

/-- A free launch identifier, in increasing order from the last (16 R397). -/
def State.freeLid (s : State) : Option Nat :=
  ((List.range 65535).map fun i => (s.nextLid + i) % 65535 + 1).find? fun n => (NatMap.find? s.launches n).isNone

/-! ### Lost contexts (18 R416) -/

/-- A record about a context's loss. -/
def State.postLost (s : State) (c : Context) : State :=
  s.post (s.tidOf c) 7 0 0 0 c.src (bits c.c.lid 0 16) []

/-- A context is lost: its transaction aborts with cause FAULT, its binding and its group are released, it counts as retired,
and its launch fails with LOST. -/
def State.loseContext (s : State) (id : Nat) : State :=
  let s := s.logError (coreBank id) 2 0x0009 false 0 0 (some (s.originOf id))
  let c := s.getCtx id
  let s := s.postLost c
  let s := s.failLaunch c 7
  let s := s.abortTx id
  let s := s.unbind c.bound
  let k := s.getCore (id / 4)
  let a := if k.array.owner = some id then { k.array with owner := none, pass := none } else k.array
  let s := s.setCore (id / 4) { k with array := a }
  s.modCtx id fun c => { c with
    st := .retired
    stop := true
    freezes := []
    pend := []
    q := { Queues.reset with copyq := c.q.copyq }
    c := { c.c with snap := 0, gid := 0, txs := txsWord c.c.txs 0 0 7 } }

/-! ### Saving (16 R400, 18 R413, R415) -/

/-- Every place where a context's number stands in what the rest of the package holds for it. -/
def State.renumber (s : State) (f : Nat → Nat) : State :=
  let who (w : PeerFor) : PeerFor := match w with
    | .load c i g => .load (f c) i g
    | .store c i => .store (f c) i
    | w => w
  { s with
    copies := s.copies.map fun c => { c with cid := f c.cid }
    txs := s.txs.map fun x => (x.1, { x.2 with cid := f x.2.cid })
    flights := s.flights.map fun x => { x with cid := f x.cid }
    autoQ := s.autoQ.map fun w => { w with src := match w.src with | .store c i => .store (f c) i | x => x }
    peerReqs := s.peerReqs.map fun r => { r with who := who r.who } }

/-- The commands of a context's queues under its new number. -/
def Queues.renumber (q : Queues) (id : Nat) : Queues :=
  let entry (e : StoreEntry) : StoreEntry := match e.kind with
    | .cmd c => { e with kind := .cmd { c with cid := id } }
    | _ => e
  { q with
    copyq := q.copyq.map fun c => { c with cid := id }
    sq := q.sq.map entry
    csq := q.csq.map entry }

/-- Every load of a context performs that can (18 R413: the save waits for its long loads). -/
def State.drainLoads (s : State) (id : Nat) : State :=
  let cur := s.cur
  let f := s.focus id
  ((f.ctx.q.lq.map fun e => e.id).foldl (fun s i => s.performLoad i none) f).focus cur

/-- A context can be saved at this boundary: no load of it is outstanding but what stands behind a WAIT on a clear flag, and a
lock-step member stands at a group tick. -/
def Context.savable (c : Context) : Bool :=
  c.q.lq.all (fun e => e.hold || (match e.kind with | .mark _ => true | _ => false) ||
    (match c.st with | .waiting _ _ b => decide (b ≤ e.id) | _ => false)) &&
    (!c.c.gid.getLsbD 8 || c.freezes.contains .lockstep || c.st == .retired)

/-- The image of a context: results in flight become capture entries, written exactly at their count (R412). -/
def Context.image (c : Context) (id : Nat) : Context :=
  let q : Queues := { c.q with results := c.q.results.map fun r => { r with exact := true } }
  { c with
    st := if c.st == .issuing && !c.c.gid.getLsbD 9 then .ready else c.st
    readyAt := if c.st == .issuing then 0 else c.readyAt + 1
    q := q.renumber id }

/-- `n` bytes of memory and their poison copied to another place. -/
def State.moveBytes (s : State) (src dst n : Nat) : State :=
  let in_ (lo n x : Nat) : Bool := decide (lo ≤ x) && decide (x < lo + n)
  { s with
    mem := (s.mem.filter fun x => in_ src n x.1).foldl (fun m x => NatMap.set 0 m (x.1 - src + dst) x.2)
      (s.mem.filter fun x => !in_ dst n x.1)
    memPoison := (s.memPoison.filter fun x => in_ (src / 8) (n / 8) x.1).foldl
      (fun m x => NatMap.set false m (x.1 - src / 8 + dst / 8) x.2) (s.memPoison.filter fun x => !in_ (dst / 8) (n / 8) x.1) }

/-- Stored errors that a read of a range meets: those of the cache where the line is in it, else those of its home. -/
def State.inRange (s : State) (pa n : Nat) : Site → Bool
  | .mem a => decide (pa ≤ a) && decide (a < pa + n) && !s.isCached a
  | .line a => decide (pa ≤ a) && decide (a < pa + n) && s.isCached a
  | _ => false

/-- A page of the save area is read: errors waiting in it are found (02 R76, R77), the host is asked for its own (01 R13), the
watchpoints see it (18 R422). -/
def State.readPage (s : State) (tid kind agent pa : Nat) : State :=
  let s := (s.findAt (s.inRange pa 0x10000)).1
  let s := if pa / spaceSize = 4 then (List.range 1024).foldl (fun s i => s.send (.cxlRequest tid (pa + 64 * i) false)) s else s
  if s.hwpc.isEmpty then s
  else (List.range 8192).foldl (fun s i => s.noteHome (pa + 8 * i) 8 false tid kind agent) s

/-- A page of the save area is to be written where `w` holds of the offset: errors waiting there are gone, cached lines are dirty,
the host is asked for its own, the command processors and the watchpoints see it (16 R389, 18 R422). -/
def State.overPage (s : State) (tid kind agent pa : Nat) (w : Nat → Bool) : State :=
  let hit (a : Nat) : Bool := decide (pa ≤ a) && decide (a < pa + 0x10000) && w (a - pa)
  let gone : Site → Bool := fun x => s.inRange pa 0x10000 x && match x with | .mem a => hit a | .line a => hit a | _ => false
  let s : State := { s with
    upsets := s.upsets.filter fun u => !gone u.site
    cached := if pa / spaceSize = 0 then s.cached.map fun x => (x.1, x.2.map fun y => (y.1, y.2 || hit (128 * y.1))) else s.cached }
  let s := s.reportIf fun n => hit (128 * n)
  let s := if pa / spaceSize = 4 then
      ((List.range 1024).filter fun i => w (64 * i)).foldl (fun s i => s.send (.cxlRequest tid (pa + 64 * i) true)) s
    else s
  if s.hwpc.isEmpty then s
  else ((List.range 8192).filter fun i => w (8 * i)).foldl (fun s i => s.noteHome (pa + 8 * i) 8 true tid kind agent) s

/-- The scratchpad of a virtual cluster copied by the dispatcher, page by page of 64 KiB, to its image in the save area, or back (16
R400). -/
def State.movePad (s : State) (l : Launch) (v p : Nat) (out : Bool) : State :=
  (List.range 256).foldl (fun s i =>
    match State.padAt s { l with st := .saved false } v (0x10000 * i) with
    | none => s
    | some pa =>
      let lo := localPa p (0x10000 * i)
      if out then
        (((s.findAt (s.inRange lo 0x10000)).1).overPage l.tid 3 0 pa fun _ => true).moveBytes lo pa 0x10000
      else
        let s := s.readPage l.tid 3 0 pa
        State.moveBytes { s with upsets := s.upsets.filter fun u => !s.inRange lo 0x10000 u.site } pa lo 0x10000) s

/-! ### The image of a context (18 R415) -/

/-- The bytes of a table of little-endian values of `z` bytes that begins at an offset. -/
def spread (off z : Nat) (l : List (Nat × Nat)) : List (Nat × Byte) :=
  l.flatMap fun x => (List.range z).map fun i => (off + z * x.1 + i, BitVec.ofNat 8 (x.2 / 256 ^ i))

/-- The values of a table as numbers. -/
def numbers {w : Nat} (m : NatMap (BitVec w)) : List (Nat × Nat) := m.map fun x => (x.1, x.2.toNat)

/-- The offsets of an image that are written: what the table names, the array region by the array's owner only. -/
def imageWrites (owner : Bool) (o : Nat) : Bool :=
  decide (o < 0x12400) || (decide (0x20000 ≤ o) && decide (o < 0xA0000)) || (owner && decide (0xA0000 ≤ o) && decide (o < 0x191000))

/-- The parts of an image whose contents the table names and whose form it does not give: the header after the PC, the buffers, the
last part of the array region. Their words are free values (log 15). -/
def imageFree (owner : Bool) (d : Nat) : List (Nat × Nat) :=
  let words (lo hi : Nat) : List (Nat × Nat) :=
    (List.range ((hi - lo) / 8)).map fun i => (lo / 8 + i, (Config.freeWord (d + lo / 8 + i)).toNat)
  words 0x548 0x12400 ++ if owner then words 0x190000 0x191000 else []

/-- The bytes of a context's image by their offset: the registers of its header in the order the table names them, its vector
registers by group, register and lane, and of the array's owner the planes by row, column and byte and the accumulators by bank,
row and column (log 15). `d` numbers the free values. -/
def Context.imageBytes (c : Context) (a : Option ArrayState) (d : Nat) : List (Nat × Byte) :=
  let r := c.regs
  spread 0 8 (numbers r.s) ++ spread 0x200 2 [(0, sumNat (r.k.map fun x => if x.2 then 2 ^ x.1 else 0))] ++
    spread 0x240 8 (r.a.map fun x => (4 * x.1, x.2.base.toNat)) ++
    spread 0x240 4 (r.a.flatMap fun x => [(8 * x.1 + 2, x.2.str0.toNat), (8 * x.1 + 3, x.2.str1.toNat),
      (8 * x.1 + 4, x.2.str2.toNat), (8 * x.1 + 5, x.2.str3.toNat), (8 * x.1 + 6, x.2.dir.toNat)]) ++
    spread 0x440 2 (numbers r.m) ++ spread 0x540 8 [(0, c.pc)] ++ spread 0x20000 4 (numbers r.v) ++
    (match a with
    | none => []
    | some a => spread 0xA0000 1 (numbers a.cp) ++ spread 0xE0000 1 (numbers a.gp) ++ spread 0x120000 1 (numbers a.sp) ++
        spread 0x160000 4 (numbers a.acc) ++ spread 0x180000 4 (numbers a.racc)) ++
    spread 0 8 (imageFree a.isSome d)

/-- The offsets of an image that are saved as poison (02 R77). -/
def Context.imagePoison (c : Context) (a : Option ArrayState) : List Nat :=
  c.regs.spoison.map (8 * ·.1) ++ c.regs.vpoison.map (0x20000 + 4 * ·.1) ++ match a with
    | none => []
    | some a => (a.poison.filterMap fun x => match x.1 / 0x100000 with
        | 0 => some (0xA0000 + x.1 % 0x100000)
        | 8 => some (0xE0000 + x.1 % 0x100000)
        | 1 => some (0x120000 + x.1 % 0x100000)
        | _ => none) ++ a.accPoison.map (0x160000 + 4 * ·.1) ++ a.raccPoison.map (0x180000 + 4 * ·.1)

/-- The page of a context's image, the `i`-th of its launch, that holds an offset. -/
def State.imagePage (s : State) (l : Launch) (i o : Nat) : Option Nat :=
  s.imageAt l ((l.words.getD 6 0).toNat + 0x1A0000 * i + o / 0x10000 * 0x10000)

/-- A page of an image cannot be reached: its write or read fails (18 R416). -/
def State.imageFails (s : State) (l : Launch) (i : Nat) : Bool :=
  (List.range 26).any fun j => (s.imagePage l i (0x10000 * j)).isNone

/-- The image of context `id`, the `i`-th of its launch, written to the save area by its core (18 R413, R415). -/
def State.writeImage (s : State) (l : Launch) (i id : Nat) (owner : Bool) : State :=
  let c := s.getCtx id
  let a := if owner then some (s.getCore (id / 4)).array else none
  let all := c.imageBytes a s.draws
  let bad := c.imagePoison a
  (List.range 26).foldl (fun s j => match s.imagePage l i (0x10000 * j) with
    | none => s
    | some pa =>
      let w (o : Nat) : Bool := imageWrites owner (0x10000 * j + o)
      let keep (x : Nat) : Bool := !(decide (pa ≤ x) && decide (x < pa + 0x10000)) || !w (x - pa)
      let s := s.overPage l.tid 0 id pa w
      { s with
        mem := (all.filter fun x => x.1 / 0x10000 == j).foldl (fun m x => NatMap.set 0 m (pa + x.1 % 0x10000) x.2)
          (s.mem.filter fun x => keep x.1)
        memPoison := (bad.filter fun o => o / 0x10000 == j).foldl (fun m o => NatMap.set false m ((pa + o % 0x10000) / 8) true)
          (s.memPoison.filter fun x => keep (8 * x.1)) }) { s with draws := s.draws + 0x34000 }

/-- The offsets in a page of uncorrectable errors that wait where a read of it meets them. -/
def State.pageErrors (s : State) (pa : Nat) : List Nat :=
  (s.upsets.filter fun u => u.unc && s.inRange pa 0x10000 u.site).flatMap fun u => match u.site with
    | .mem a => if a / spaceSize = 0 then (List.range 8).map fun k => a / 64 * 64 - pa + 8 * k else [a / 8 * 8 - pa]
    | .line a => [a / 8 * 8 - pa]
    | _ => []

/-- The image of the `i`-th context of a launch read back: the offsets of uncorrectable errors found in it (18 R416). -/
def State.readImage (s : State) (l : Launch) (i id : Nat) : State × List Nat :=
  (List.range 26).foldl (fun r j => match State.imagePage r.1 l i (0x10000 * j) with
    | none => r
    | some pa => (r.1.readPage l.tid 0 id pa, r.2 ++ (r.1.pageErrors pa).map (0x10000 * j + ·))) (s, [])

/-- An offset of an image lies in the context's control state. -/
def inControl (o : Nat) : Bool := decide (o < 0x20000) || decide (0x190000 ≤ o)

/-- What an error at an offset of an image leaves poisoned in a context. -/
def Context.imageSpoil (c : Context) (o : Nat) : Context :=
  if 0x20000 ≤ o ∧ o < 0xA0000 then
    { c with regs := { c.regs with vpoison := setLanes false c.regs.vpoison ((o - 0x20000) / 4) 3 fun _ => true } }
  else c

/-- What it leaves poisoned in an array. -/
def ArrayState.imageSpoil (a : ArrayState) (o : Nat) : ArrayState :=
  if o < 0xA0000 ∨ 0x190000 ≤ o then a
  else if o < 0xE0000 then a.spoil (.plane 0 (poisonKey 0 (o - 0xA0000)))
  else if o < 0x120000 then a.spoil (.plane 0 (poisonKey 8 (o - 0xE0000)))
  else if o < 0x160000 then a.spoil (.plane 0 (poisonKey 1 (o - 0x120000)))
  else a.spoil (.acc 0 (if o < 0x180000 then (o - 0x160000) / 4 else 16 * 16384 + (o - 0x180000) / 4))

/-- The errors waiting in a context's own storage are found as its image is made (02 R76 to R79): in a register of its header an
uncorrectable one is one of its control state; elsewhere it leaves poison. The answer says whether the context is lost. -/
def State.contextFound (s : State) (id : Nat) : State × Bool :=
  if s.upsets.isEmpty then (s, false)
  else
    let cur := s.cur
    let s := (s.focus id).parityFound
    let header (u : Upset) : Bool := match u.site with
      | .sreg c _ | .kreg c _ | .iter c _ _ | .mreg c _ _ => c == id
      | _ => false
    let vector (u : Upset) : Bool := match u.site with | .vreg c _ _ _ => c == id | _ => false
    let us := s.upsets.filter header
    let vs := s.upsets.filter vector
    let s : State := { s with upsets := s.upsets.filter fun u => !header u && !vector u }
    let s := (us ++ vs).foldl (fun s u => s.foundInCore id u.unc) s
    let s := (vs.filter Upset.unc).foldl (fun s u => match u.site with
      | .vreg _ g r k => s.modR fun q => { q with
          vpoison := setLanes false q.vpoison (vkey g r 0) (3#16 <<< (2 * k)) fun _ => true }
      | _ => s) s
    let s := s.ctx.q.landing.foldl (fun s l =>
      let r := s.landFound l
      r.1.modQ fun q => { q with landing := q.landing.map fun x => if x.id = l.id then r.2.1 else x }) s
    let s := ((List.range s.ctx.q.capture.length).zip s.ctx.q.capture).foldl (fun s x =>
      let r := s.captureFound x.1 x.2
      r.1.modQ fun q => { q with capture := q.capture.set x.1 r.2 }) s
    let mine : Site → Bool := fun x => match x with
      | .plane c _ | .acc c _ => c == id / 4
      | _ => false
    let s := if s.core.array.owner = some id then s.meet mine else s
    (s.focus cur, us.any Upset.unc)

/-- The index of a place in a launch's images. -/
def placeKey (x : Nat × Nat × Nat) : Nat := 32 * x.1 + 4 * x.2.1 + x.2.2

/-- What a context has sent and what has not performed: its stores on their way reach their homes and its AOUTS writes their
banks. -/
def State.bringHome (s : State) (id : Nat) : State :=
  ((((s.flush fun f => f.cid == id).focus id).aoutsDrain).focus s.cur)

/-- A launch saved whole, its contexts giving up their places; `lost` names a place whose save failed. A context whose image cannot
be written, or in whose control state an error is found, is lost too (18 R416). -/
def State.saveLaunch (s : State) (lid : Nat) (l : Launch) (swap : Bool) (lost : Option Nat) : State :=
  let cs := if l.isJob then [] else l.contexts
  let nth := (List.range cs.length).zip cs
  let s := cs.foldl (fun s x => s.bringHome x.2) s
  let f := nth.foldl (fun (r : State × List Nat) x =>
    let y := r.1.contextFound x.2.2
    (y.1, if y.2 || r.1.imageFails l x.1 || lost == some (placeKey x.2.1) then r.2 ++ [x.2.2] else r.2)) (s, [])
  let s := f.2.foldl State.loseContext f.1
  let l := (NatMap.find? s.launches lid).getD l
  let saved (x : Nat × Nat × Nat) : Nat := savedId lid x.1 x.2.1 x.2.2
  let owned (id : Nat) : Bool := cs.any fun x => x.2 == id
  let own (s : State) (k : Nat) : Bool := match (s.getCore k).array.owner with | some id => owned id | none => false
  let s := nth.foldl (fun s x => s.writeImage l x.1 x.2.2 ((s.getCore (x.2.2 / 4)).array.owner == some x.2.2)) s
  let images := cs.foldl (fun m x => NatMap.put m (placeKey x.1) ((s.getCtx x.2).image (saved x.1))) []
  let places := (List.range (vcount l.shape)).flatMap fun v => (List.range (coreCount l.shape)).filterMap fun c =>
    (l.map[v]?).map fun p => (8 * v + c, 8 * p + c)
  let arrays := (places.filter fun x => own s x.2).foldl (fun m x => NatMap.put m x.1 (s.getCore x.2).array) []
  let s := if l.isJob then s else ((List.range l.map.length).zip l.map).foldl (fun s x => s.movePad l x.1 x.2 true) s
  let place? (id : Nat) : Option Nat := (cs.find? fun x => x.2 == id).map fun x => saved x.1
  let arrivals := places.flatMap fun x => (s.getCore x.2).arrivals.filterMap fun a =>
    (place? a.ctx).map fun id => { a with ctx := id }
  let s := places.foldl (fun s x =>
    let k := s.getCore x.2
    let a := if own s x.2 then { k.array with owner := none, pass := none } else k.array
    s.setCore x.2 { k with array := a, arrivals := k.arrivals.filter fun a => !owned a.ctx }) s
  let s := cs.foldl (fun s x => s.modCtx x.2 fun c =>
    { Context.reset with regs := { Regs.reset with v := c.regs.v, vpoison := c.regs.vpoison } }) s
  let s := s.renumber fun id => (place? id).getD id
  let l' := { l with st := .saved swap, halt := none, images := images, arrays := arrays, arrivals := arrivals }
  let s := { s with launches := NatMap.put s.launches lid l' }
  places.foldl (fun s x => s.wakeCore x.2) s

/-- A launch's contexts stop, or go on, to be saved or not (18 R413). -/
def State.haltLaunch (s : State) (lid : Nat) (h : Option Bool) : State := match NatMap.find? s.launches lid with
  | none => s
  | some l => if l.halt = h then s else { s with launches := NatMap.put s.launches lid { l with halt := h } }

/-- The contexts of a running launch stop at their boundaries, and the loads they have issued are waited for (18 R413). -/
def State.stopFor (s : State) (swap : Bool) (lid : Nat) : State := match NatMap.find? s.launches lid with
  | none => s
  | some l =>
    if l.st != .running || l.isJob then s
    else l.contexts.foldl (fun s x => s.drainLoads x.2) (s.haltLaunch lid (some swap))

/-- Every context of a launch stands where it can be saved. -/
def State.canSave (s : State) (lid : Nat) : Bool := match NatMap.find? s.launches lid with
  | none => false
  | some l => l.st == .running && (l.isJob || l.contexts.all fun x => (s.getCtx x.2).savable)

/-- Launches are saved together, once every context of each stands at a boundary where it can be. -/
def State.trySave (s : State) (lids : List Nat) (swap : Bool) (lost : Option Nat) : State :=
  if s.issue.live then s
  else
    let s := lids.foldl (fun s lid => s.stopFor swap lid) s
    if lids.all s.canSave then
      lids.foldl (fun s lid => match NatMap.find? s.launches lid with
        | some l => s.saveLaunch lid l swap (if l.isJob then none else lost)
        | none => s) s
    else s

/-! ### Resuming (18 R414) -/

/-- A saved launch placed again and restored: scratchpads, arrays, contexts, arrivals; `lost` names a place whose restore
failed. Errors in the images are found as they are read: one in a context's control state loses the context (18 R416). -/
def State.resumeOn (s : State) (lid : Nat) (l : Launch) (map : List Nat) (lost : Option Nat) : State :=
  let l' := { l with map := map, st := .running, images := [], arrays := [], arrivals := [] }
  let s := map.foldl (fun s p => s.takeCluster l.tid p) s
  let s := if l.isJob then s else ((List.range map.length).zip map).foldl (fun s x => s.movePad l x.1 x.2 false) s
  let s := { s with launches := NatMap.put s.launches lid l' }
  if l.isJob then s
  else
    let cs := l'.contexts
    let now (id : Nat) : Nat :=
      ((cs.find? fun x => savedId lid x.1.1 x.1.2.1 x.1.2.2 == id).map Prod.snd).getD id
    let s := l.arrays.foldl (fun s a =>
      match map[a.1 / 8]? with
      | none => s
      | some p =>
        let k := s.getCore (8 * p + a.1 % 8)
        let own := a.2.owner.map fun id => ctxId p (a.1 % 8) (id % 4)
        s.setCore (8 * p + a.1 % 8) { k with array := { a.2 with owner := own } }) s
    let s := cs.foldl (fun s x => match NatMap.find? l.images (placeKey x.1) with
      | some c => s.setCtx x.2 { c with q := c.q.renumber x.2 }
      | none => s) s
    let f := ((List.range cs.length).zip cs).foldl (fun (r : State × List Nat) x =>
      let id := x.2.2
      let y := r.1.readImage l x.1 id
      let s := y.1.modCtx id fun c => y.2.foldl Context.imageSpoil c
      let k := s.getCore (id / 4)
      let s := if k.array.owner = some id then s.setCore (id / 4) { k with array := y.2.foldl ArrayState.imageSpoil k.array } else s
      (s, if y.2.any inControl || r.1.imageFails l x.1 || lost == some (placeKey x.2.1) then r.2 ++ [id] else r.2)) (s, [])
    let s := f.1
    let s := s.renumber now
    let s := l.arrivals.foldl (fun s a =>
      let id := now a.ctx
      let k := s.getCore (id / 4)
      s.setCore (id / 4) { k with arrivals := k.arrivals ++ [{ a with ctx := id }] }) s
    let s := s.readyUp ((sortBy (fun a b : (Nat × Nat × Nat) × Nat => decide ((s.getCtx a.2).readyAt ≤ (s.getCtx b.2).readyAt))
      (cs.filter fun x => (s.getCtx x.2).st == .ready)).map Prod.snd)
    f.2.foldl (fun s id => (s.loseContext id).wakeCore (id / 4)) s

/-- A saved launch resumes, if it can be placed. -/
def State.resume (s : State) (lid : Nat) (lost : Option Nat) : Option State :=
  match NatMap.find? s.launches lid with
  | none => none
  | some l => match l.st with
    | .running => none
    | .saved _ => match s.mapping l.tid l.shape [] with
      | some m => some (s.resumeOn lid l m lost)
      | none => none

end Sys2Proof.Machine
end

