-- ==== Sys2Proof/Machine/Firmware.lean ====
section
/-! DEFINITION. The ROM firmware of the command processors and the dispatcher: work queues, records, the order of starting,
every command, completion, pre-emption and resumption (16 R387 to R407, 18 R413, R414). -/

namespace Sys2Proof.Machine

/-! ### Queues and their commands -/

/-- A work queue put in its place. -/
def State.setQueue (s : State) (q : Nat) (w : WQueue) : State := { s with queues := NatMap.set .reset s.queues q w }

/-- The command processors run: no FATAL stop, and a start has reached READY. -/
def State.fwRuns (s : State) : Bool := !s.halted && s.mgmt.ready

/-- The number of a queue named by an event. -/
def State.queueArg (s : State) : Nat := s.arg.a % 8192

/-- The processor that serves a queue (16 R388). -/
def processor (q : Nat) : Nat := q % 8

/-- A command's function is saved by its hypervisor, or another command of the tenant must complete first: a CTXSWAP that a
save interrupted (16 R407). -/
def State.tenantWaits (s : State) (tid : Nat) : Bool :=
  (NatMap.get .reset s.tenants tid).vsaved || s.queues.any fun x => x.2.tid == tid && x.2.cmds.any fun c =>
    c.op == 9 && c.started && !c.done && decide (16 ≤ c.prog)

/-- Who waits for what a peer makes of a queue's own writes. -/
def cpTag (q : Nat) : Nat := 65536 + q

/-- A write of a queue's processor has been sent and has not performed: it waits for its stamp, for PCLK to reach that, or for a
peer's answer (05 R150). -/
def State.cpOut (s : State) (q : Nat) : Bool :=
  s.autoQ.any (fun w => w.src == .queue q) || decide (s.pclk < (s.queue q).outStamp) || s.peerReqs.any fun r => match r.who with
    | .ack k _ _ => k == cpTag q
    | _ => false

/-- The processor has no writes of its own for a queue under way. -/
def State.quiet (s : State) (q : Nat) : Bool := !s.cpOut q && (s.queue q).cmds.all fun c => c.phase == 0

/-- The startable command of a queue (16 R393): the first that has not started, once every earlier one has completed, or,
for a LAUNCH with OVLP, once the one before it has started. -/
def WQueue.startable (w : WQueue) : Option Nat :=
  match w.cmds.findIdx? fun c => !c.started with
  | none => none
  | some 0 => some 0
  | some i => if (w.cmds.getD i ⟨[], false, false, 0, 0, 0, none⟩).op = 1 ∧
      (w.cmds.getD i ⟨[], false, false, 0, 0, 0, none⟩).ovlp then some i else none

/-- A CTXSWAP that has been read and that HEAD has not passed: it has saved no context, and a save of its function undoes it (16
R407). -/
def Command.holdsHead (c : Command) : Bool :=
  c.op == 9 && !c.done && (c.prog % 16 == 0 || (c.word 3 == 0 && c.word 4 == 0))

/-- A command replaced; HEAD passes a CTXSWAP once it has saved a context or is done. -/
def State.setCmd (s : State) (q i : Nat) (c : Command) : State :=
  let w := s.queue q
  let on : Bool := (match w.cmds[i]? with | some o => o.holdsHead | none => false) && !c.holdsHead
  s.setQueue q { w with
    cmds := w.cmds.set i c
    head := if on then (w.head + 1) % 2 ^ 32 else w.head
    poll := w.poll || on }

/-- A queue's startable command counts as waiting from now (16 R399). -/
def State.stamp (s : State) (q : Nat) : State :=
  let s := s.setQueue q { s.queue q with waited := s.nextOrder }
  { s with nextOrder := s.nextOrder + 1 }

/-- A command started. -/
def State.started (s : State) (q i : Nat) (c : Command) : State := (s.setCmd q i { c with started := true }).stamp q

/-- A command that fails without starting anything. -/
def State.failCmd (s : State) (q i : Nat) (c : Command) (code : Nat) : State :=
  s.started q i { c with done := true, fail := code }

/-- The started command of a queue with an opcode, and its index. -/
def State.running (s : State) (q op : Nat) : Option (Nat × Command) :=
  if !s.fwRuns then none
  else
    let w := s.queue q
    match w.cmds.findIdx? fun c => c.started && !c.done && c.op == op with
    | some i => (w.cmds[i]?).map fun c => (i, c)
    | none => none

/-! ### Memory as the command processors reach it (16 R402, 05 R152) -/

/-- The parts of `n` bytes from an address that lie in one granule each. -/
def pieces (va n : Nat) : List (Nat × Nat) :=
  if n = 0 then []
  else (List.range ((va % 8 + n + 7) / 8)).map fun i =>
    let lo := max va (va / 8 * 8 + 8 * i)
    let hi := min (va + n) (va / 8 * 8 + 8 * i + 8)
    (lo, hi - lo)

/-- Bytes of the package or the host read for a tenant by processor `p`; nothing where an address fails translation or access,
or lies in a peer. A poisoned byte reads as nothing. -/
def State.cpRead (s : State) (p tid va n : Nat) : State × Option (List (Option Byte)) :=
  (pieces va n).foldl (fun a x => match a.2 with
    | none => a
    | some l => match a.1.translate none tid none x.1 .read with
      | (s, .fault _ _) => (s, none)
      | (s, .ok pa leaf) =>
        if leafPeer leaf ≠ 0 then (s, none)
        else
          let s := (s.visit pa false (!leaf.getLsbD 8)).1
          let s := if pa / spaceSize = 4 then s.send (.cxlRequest tid pa false) else s
          let s := s.watchHome pa x.2 false tid 3 p
          let g := s.granule (pa / 8 * 8)
          (s, some (l ++ (List.range x.2).map fun i => g.map fun w => byteOf w (pa % 8 + i)))) (s, some [])

/-- The bytes of a read as the processor takes them: what a poisoned byte gives is a free value (log 2). -/
def State.plain (s : State) (l : List (Option Byte)) : State × List Byte :=
  l.foldl (fun a b => match b with
    | some b => (a.1, a.2 ++ [b])
    | none => let d := a.1.draw; (d.1, a.2 ++ [byteOf d.2 0])) (s, [])

/-- What a read of a processor that may go to a peer gives. -/
inductive CpGot where
  | bytes (l : List (Option Byte))
  | wait
  | fail

/-- The number of read `i` that is open for a queue. -/
def readIdent (q i : Nat) : Nat := 16384 + 8192 * i + q

/-- A command of the processors' own: `st` where it starts. -/
def fwCmd (ident q tid : Nat) (op : CopyOp) (st : CopySt) (buf : NatMap (Option Byte)) : CopyCmd :=
  { ident := ident, cid := 2 ^ 40 + q, lid := 0, vc := 0, tid := tid, num := 0, qid := 0, ahead := [], buf := buf, stamp := 0
    op := op, land := none, st := st, cursor := 0, failed := false, tx := none, snp := 0, bundle := 0, handler := false }

/-- `n` bytes read for a queue wherever they lie, as read `i` of those open for it; what a peer holds is asked for, granule by
granule (21 R455). -/
def State.cpFetch (s : State) (q i tid va n : Nat) : State × CpGot :=
  let k := readIdent q i
  let op : CopyOp := .cpy 0 va n
  let open_ : Bool := match s.copyOf k with | some x => x.op == op | none => false
  let s : State := if open_ then s
    else { s with copies := (s.copies.filter fun d => d.ident != k) ++ [fwCmd k q tid op .queued []] }
  match s.copyOf k with
  | none => (s, .fail)
  | some x =>
    if x.failed then (s, .fail)
    else
      let r := s.fetch k (List.range n)
      match r.2, r.1.copyOf k with
      | .done, some x => (r.1, .bytes ((List.range n).map fun o => (NatMap.find? x.buf o).getD none))
      | .wait, _ => (r.1, .wait)
      | _, _ => (r.1, .fail)

/-- The reads open for a queue are ended. -/
def State.cpDrop (s : State) (q : Nat) : State :=
  let mine (k : Nat) : Bool := decide (16384 ≤ k) && decide (k < 65536) && k % 8192 == q
  { s with
    copies := s.copies.filter fun d => !mine d.ident
    peerReqs := s.peerReqs.filter fun r => match r.who with | .copy k _ _ => !mine k | _ => true }

/-- What a write of the processors gives. -/
inductive CpRes where
  | done
  | wait
  | fail
  deriving DecidableEq, Repr

/-- A queue's bytes on a versioned line wait for the line's next stamp (03 R84, R97). -/
def State.joinQueue (s : State) (q tid pa : Nat) (gs : List Granule) (alloc : Bool) : State :=
  let mine (w : AutoWrite) : Bool := w.src == .queue q && w.line == pa / 128
  if s.autoQ.any mine then
    { s with autoQ := s.autoQ.map fun w => if mine w then
        { w with op := match w.op with | .write ws => .write (ws ++ gs) | x => x } else w }
  else { s with autoQ := s.autoQ ++ [⟨pa / 128, .write gs, .queue q, tid, alloc, false⟩] }

/-- Bytes written for a tenant by a queue's processor: none where an address fails, none yet where a bank has denied the remote
port (02 R53). Those of versioned lines wait for a stamp, a peer's go by flits. -/
def State.cpWrite (s : State) (q tid va : Nat) (l : List Byte) : State × CpRes :=
  let ps := pieces va l.length
  let look (x : Nat × Nat) : CpRes := match (s.translate none tid none x.1 .write).2 with
    | .fault _ _ => .fail
    | .ok pa leaf =>
      if leafPeer leaf = 0 ∧ leafVer leaf ∧ s.cclk = clockEnd then .fail else .done
  let denied (x : Nat × Nat) : Bool := match (s.translate none tid none x.1 .write).2 with
    | .fault _ _ => false
    | .ok pa leaf => leafPeer leaf == 0 && s.bankDenied 10 pa
  if ps.any fun x => look x == .fail then (s, .fail)
  else if ps.any denied then (s, .wait)
  else
    ps.foldl (fun a x =>
      if a.2 != .done then a
      else match a.1.translate none tid none x.1 .write with
        | (s, .fault _ _) => (s, .fail)
        | (s, .ok pa leaf) =>
          let gs := granules pa ((l.drop (x.1 - va)).take x.2) false
          let p := processor q
          if leafPeer leaf ≠ 0 then
            match s.askPeer (p / 2) (s.peerDev tid leaf) tid 2 pa x.2 gs (.ack (cpTag q) (x.1 - va) x.2) with
            | .sent s => (s, .done)
            | .wait => (s, .wait)
            | .fail => (s, .fail)
          else if leafVer leaf then (s.joinQueue q tid pa gs (!leaf.getLsbD 8), .done)
          else (gs.foldl (fun s g => s.homeWrite tid 3 p g (!leaf.getLsbD 8)) s, .done)) (s, .done)

/-- A 64-bit word read for a queue; nothing where it fails. -/
def State.cpWord (s : State) (q tid va : Nat) : State × Option Word :=
  match s.cpRead (processor q) tid va 8 with
  | (s, none) => (s, none)
  | (s, some l) => let r := s.plain l; (r.1, some (ofBytes 64 r.2))

/-- An address of a queue's ring or tail word: it must translate, to the cellar or host memory (16 R388, R390). -/
def State.ringOk (s : State) (tid va : Nat) : Bool := match (s.translate none tid none va .read).2 with
  | .ok pa leaf => leafPeer leaf == 0 && (pa / spaceSize == 0 || pa / spaceSize == 4)
  | .fault _ _ => false

/-! ### Tail words and records (16 R389, R390) -/

/-- The ring of a queue holds 2^`ringLog` records: LOGSZ from 4 to 16, any other value acting as 4 (R388). -/
def WQueue.ringLog (w : WQueue) : Nat := if 4 ≤ w.logsz ∧ w.logsz ≤ 16 then w.logsz else 4

/-- QBASE as an address. -/
def WQueue.base (w : WQueue) : Nat := bits w.qbase 7 45 * 128

/-- QTAIL as an address. -/
def WQueue.tailAt (w : WQueue) : Nat := bits w.qtail 3 49 * 8

/-- TAIL_WORD_WRITE (R389): a write to the tail word of queue `arg.a` is reported to its processor. -/
def execTailWordWrite (s : State) : Out :=
  .next (
    let q := s.queueArg
    let w := s.queue q
    if w.en then s.setQueue q { w with poll := true } else s)

/-- Records read into a queue until `n` are read or one fails translation. HEAD does not pass a CTXSWAP yet (16 R407), and no record
is read beyond it. -/
def State.readRecords (s : State) (q : Nat) : Nat → State
  | 0 => s
  | n + 1 =>
    let w := s.queue q
    let at_ := w.base + 128 * (w.head % 2 ^ w.ringLog)
    if !s.ringOk w.tid at_ then s.setQueue q { w with xlt := true, en := false }
    else match s.cpRead (processor q) w.tid at_ 128 with
      | (s, none) => s.setQueue q { w with xlt := true, en := false }
      | (s, some l) =>
        let r := s.plain l
        let words := (List.range 16).map fun i => ofBytes 64 ((r.2.drop (8 * i)).take 8)
        let c : Command := ⟨words, false, false, 0, 0, 0, none⟩
        let was := w.startable.isSome
        let held := c.holdsHead
        let s := r.1.setQueue q { w with head := if held then w.head else (w.head + 1) % 2 ^ 32, cmds := w.cmds ++ [c] }
        let s := if was then s else s.stamp q
        if held then s else s.readRecords q n

/-- The port's watch on a tail word in host memory, a CXL.cache request for its line (R389, 21 R446). -/
def State.watchTail (s : State) (q : Nat) : State :=
  match (s.translate none (s.queue q).tid none (s.queue q).tailAt .read).2 with
  | .ok pa _ => if pa / spaceSize = 4 then s.send (.cxlWatch pa) else s
  | .fault _ _ => s

/-- TAIL_READ (R389, R390): the tail word of queue `arg.a` and its new records are read. -/
def execTailRead (s : State) : Out :=
  .next (
    let q := s.queueArg
    let w := s.queue q
    if !s.fwRuns || !w.en || !w.poll || (NatMap.get .reset s.tenants w.tid).vsaved || w.cmds.any Command.holdsHead then s
    else
      let s := s.setQueue q { w with poll := false }
      if !s.ringOk w.tid w.tailAt then s.setQueue q { w with poll := false, xlt := true, en := false }
      else match (s.watchTail q).cpWord q w.tid w.tailAt with
        | (s, none) => s.setQueue q { w with poll := false, xlt := true, en := false }
        | (s, some t) =>
          let n := (bits t 0 32 + 2 ^ 32 - w.head) % 2 ^ 32
          if 2 ^ w.ringLog < n then s.setQueue q { w with poll := false, ovf := true, en := false }
          else s.readRecords q n)

/-! ### LAUNCH: the checks (16 R395, 19 R432) -/

/-- The shape limits of a LAUNCH record (16 R394). -/
def shapeOk (w8 : Word) : Bool :=
  let ctxm := bits w8 12 4
  ctxm != 0 && bits w8 16 4 &&& ctxm == bits w8 16 4 && (!w8.getLsbD 20 || nbits ctxm (bits w8 21 2) 1 == 1)

/-- The reserved fields of a LAUNCH record. An image is aligned to 64 KiB (18 R415), so the low bits of SAVE count as reserved, as those
of SWB do (log 78). -/
def launchReserved (c : Command) : Bool :=
  let w8 := c.word 8
  c.reserved false [3, 4, 5, 6, 7, 8, 9] || bits (c.word 3) 52 12 != 0 || bits w8 7 1 != 0 || bits w8 11 1 != 0 ||
    bits w8 26 6 != 0 || bits w8 24 2 == 3 || bits (c.word 9) 57 7 != 0 || bits (c.word 5) 0 31 != 0 ||
    bits (c.word 6) 0 16 != 0

/-- The pages of a range. -/
def pagesOf (base n : Nat) : List Nat :=
  (List.range ((base % 65536 + n + 65535) / 65536)).map fun i => base / 65536 * 65536 + 65536 * i

/-- The size of a launch's save area (18 R415, 16 R395): an image of 1,664 KiB for each started context, and with PRE 16 MiB for
each virtual cluster. -/
def saveSize (w8 : Word) : Nat :=
  (startedPlaces w8).length * 0x1A0000 + if w8.getLsbD 23 then vcount w8 * 0x1000000 else 0

/-- Item 2 of R395: the addresses translate; item 4: the save area is pinned (01 R27). A page of it in a peer counts as one that lacks
PIN (log 78). The answer is a failure code, 0 for none. -/
def State.launchAccess (s : State) (tid : Nat) (c : Command) : State × Nat × Nat :=
  let try_ (a : State × Bool) (va : Nat) (acc : Access) : State × Bool := match a.1.translate none tid none va acc with
    | (s, .ok _ _) => (s, a.2)
    | (s, .fault _ _) => (s, false)
  let a := try_ (s, true) (c.word 3).toNat .exec
  let a := try_ a (c.word 4).toNat .read
  let r := (pagesOf (c.word 6).toNat (saveSize (c.word 8))).foldl (fun (x : (State × Bool) × Bool) va =>
    match x.1.1.translate none tid none va .write with
    | (s, .ok _ leaf) => ((s, x.1.2), x.2 && leaf.getLsbD 11 && leafPeer leaf == 0)
    | (s, .fault _ _) => ((s, false), x.2)) (a, true)
  (r.1.1, if r.1.2 then 0 else 3, if r.2 then 0 else 4)

/-- R395's checks of a LAUNCH record: a failure code, or the record's words with its entry table, its snapshot then being
held until it starts (03 R91); nothing while a peer's answer is awaited. -/
def State.checkLaunch (s : State) (q : Nat) (c : Command) : State × Option (Except Nat (List Word)) :=
  let tid := (s.queue q).tid
  if launchReserved c then (s, some (.error 2))
  else if !shapeOk (c.word 8) then (s, some (.error 6))
  else
    let a := s.launchAccess tid c
    if a.2.1 ≠ 0 then (a.1, some (.error 3))
    else match a.1.cpFetch q 0 tid (c.word 7).toNat (128 * vcount (c.word 8)) with
      | (s, .wait) => (s, none)
      | (s, .fail) => (s.cpDrop q, some (.error 3))
      | (s, .bytes l) =>
        let s := s.cpDrop q
        let h := bits (c.word 8) 32 32
        if h ≠ 0 ∧ (s.liveSnap tid h).isNone then (s, some (.error 5))
        else if a.2.2 ≠ 0 then (s, some (.error 4))
        else
          let r := s.plain l
          let entries := (List.range (32 * vcount (c.word 8))).map fun i => ofBytes 64 ((r.2.drop (4 * i)).take 4)
          (if h = 0 then r.1 else r.1.bind (h % 4096), some (.ok ((c.words.take 16) ++ entries)))

/-! ### UPDJOB (16 R403 to R405) -/

/-- Word `n` of the JCB of a job whose words are the record's and then the JCB's. -/
def jcb (l : List Word) (n : Nat) : Word := l.getD (16 + n) 0

/-- KIND. -/
def jobKind (l : List Word) : Nat := bits (jcb l 0) 0 2

/-- The elements of a record of a job. -/
def jobLen (l : List Word) : Nat := bits (jcb l 0) 8 10 + 1

/-- The bytes of a gradient. -/
def jobGrad (l : List Word) : Nat := if (jcb l 0).getLsbD 2 then 2 else 4

/-- Two ranges meet. -/
def rangesMeet (a b : Nat × Nat) : Bool := decide (a.1 < b.1 + b.2) && decide (b.1 < a.1 + a.2) && a.2 != 0 && b.2 != 0

/-- No output region meets another or an input (R403). -/
def jobApart (l : List Word) : Bool :=
  let n := (jcb l 1).toNat * jobLen l
  let reg (w size : Nat) : Nat × Nat := ((jcb l w).toNat, size * n)
  let ins := [reg 4 4, reg 5 4, reg 6 4, reg 7 (jobGrad l)]
  let outs := [reg 8 4, reg 9 4, reg 10 4, reg 11 2]
  let meets (i : Nat) : Bool :=
    let o := outs.getD i (0, 0)
    ins.any (rangesMeet o) || ((List.range 4).any fun j => decide (j < i) && rangesMeet o (outs.getD j (0, 0)))
  !(List.range 4).any meets

/-- The checks of an UPDJOB record and its JCB: a failure code, or its words with the JCB, word 8 holding the shape of the
ROM kernel (log 17). -/
def State.checkJob (s : State) (q : Nat) (c : Command) : State × Except Nat (List Word) :=
  let tid := (s.queue q).tid
  let va := (c.word 3).toNat
  let home (a : Nat) : Nat := match (s.translate none tid none a .read).2 with
    | .fault _ _ => 3
    | .ok _ _ => if s.ringOk tid a then 0 else 8
  if c.reserved false [3, 4] || (c.word 4).toNat / 128 != 0 then (s, .error 2)
  else if home va = 3 ∨ home (va + 127) = 3 then (s, .error 3)
  else if home va = 8 ∨ home (va + 127) = 8 then (s, .error 8)
  else match s.cpRead (processor q) tid va 128 with
    | (s, none) => (s, .error 3)
    | (s, some l) =>
      let r := s.plain l
      let w8 := wd (bits (c.word 4) 0 7 + 7 * 256 + 15 * 4096 + 2 ^ 23)
      let words := ((c.words.take 16).set 8 w8) ++ (List.range 16).map fun i => ofBytes 64 ((r.2.drop (8 * i)).take 8)
      if jobKind words == 3 || bits (jcb words 0) 18 46 != 0 || !jobApart words then (r.1, .error 8)
      else (r.1, .ok words)

/-- The rounding of R404. -/
def rn (x : Fl) : Fl := f32 (toF32 rne x)

/-- The square root of an FP32 value as a value that rounds as the root does. -/
def flRoot (x : Fl) : Fl := match x with
  | .fin n m e => if m = 0 then x else if n then .nan else flSqrt m e
  | .inf false => x
  | _ => .nan

/-- The new parameter and moments of one element (R404). -/
def jobElem (l : List Word) (p m v g : Fl) : Fl × Fl × Fl :=
  let lo (n : Nat) : Fl := f32 ((jcb l n).extractLsb' 0 32)
  let hi (n : Nat) : Fl := f32 ((jcb l n).extractLsb' 32 32)
  let sum (xs : List Fl) : Fl := rn (flSum false xs)
  let b1 := lo 12
  let ob1 := hi 12
  let b2 := lo 13
  let ob2 := hi 13
  let c1 := lo 14
  let c2 := hi 14
  let eps := lo 15
  let wdec := hi 15
  match jobKind l with
  | 0 =>
    let m' := sum [b1.mul m, g]
    (sum [p, (c1.mul (sum [m', wdec.mul p])).negate], m', v)
  | 1 =>
    let m' := sum [b1.mul m, ob1.mul g]
    let v' := sum [b2.mul v, (ob2.mul g).mul g]
    let d := sum [rn (flRoot (rn (c2.mul v'))), eps]
    (sum [p, (c1.mul (sum [rn (flDiv m' d), wdec.mul p])).negate], m', v')
  | _ => (sum [p, (c1.mul g).negate], m, v)

/-- The working copy of an element: its draw is word k mod 4 of the counter of r and k (04 R141). -/
def jobWork (l : List Word) (r k : Nat) (p : Fl) : Nat :=
  let srb := bits (jcb l 0) 3 5
  let ctr := counter 6 (r % 2 ^ 64 + k * 2 ^ 64 + k / 4 * 2 ^ 80)
  roundFloat 1 ⟨5, srb, drawBits (jcb l 3) ctr (k % 4) srb⟩ 0 p

/-- FP32 values out of the bytes of a record; nothing where any byte is poison. -/
def f32s (n : Nat) (l : List (Option Byte)) : Option (List Fl) :=
  if l.any Option.isNone then none
  else some ((List.range n).map fun k => f32 (ofBytes 32 (((l.drop (4 * k)).take 4).map fun b => b.getD 0)))

/-- Gradients out of the bytes of a record. -/
def grads (l : List Word) (n : Nat) (b : List (Option Byte)) : Option (List Fl) :=
  let z := jobGrad l
  if b.any Option.isNone then none
  else some ((List.range n).map fun k =>
    decodeFloat (if z = 2 then 1 else 0) (ofBytes 32 (((b.drop (z * k)).take z).map fun x => x.getD 0)).toNat)

/-- A write that follows writes that were done. -/
def State.thenWrite (a : State × CpRes) (q tid va : Nat) (l : List Byte) : State × CpRes :=
  if a.2 = .done then a.1.cpWrite q tid va l else a

/-- The inputs of record `r` of a job, once all are there. -/
def State.jobInputs (s : State) (q tid : Nat) (l : List Word) (r : Nat) : State × CpGot × List (List (Option Byte)) :=
  let n := jobLen l
  [(4, 4), (5, 4), (6, 4), (7, jobGrad l)].foldl (fun a x => match a.2.1 with
    | .bytes _ => match State.cpFetch a.1 q (x.1 - 4) tid ((jcb l x.1).toNat + x.2 * (r * n)) (x.2 * n) with
      | (s, .bytes b) => (s, .bytes b, a.2.2 ++ [b])
      | (s, g) => (s, g, a.2.2)
    | _ => a) (s, .bytes [], [])

/-- The outputs of record `r` of a job written (R404). -/
def State.jobOutputs (s : State) (q tid : Nat) (l : List Word) (r : Nat) (ins : List (List (Option Byte))) : State × CpRes :=
  let n := jobLen l
  let e := r * n
  let b (i : Nat) : List (Option Byte) := ins.getD i []
  match f32s n (b 0), f32s n (b 1), f32s n (b 2), grads l n (b 3) with
  | some ps, some ms, some vs, some gs =>
    let out := (List.range n).map fun k => jobElem l (ps.getD k .zero) (ms.getD k .zero) (vs.getD k .zero) (gs.getD k .zero)
    let f (x : Fl) : List Byte := valBytes (toF32 rne x) 4
    let a := s.cpWrite q tid ((jcb l 8).toNat + 4 * e) (out.flatMap fun x => f x.1)
    let a := State.thenWrite a q tid ((jcb l 9).toNat + 4 * e) (out.flatMap fun x => f x.2.1)
    let a := State.thenWrite a q tid ((jcb l 10).toNat + 4 * e) (out.flatMap fun x => f x.2.2)
    State.thenWrite a q tid ((jcb l 11).toNat + 2 * e)
      (((List.range n).zip out).flatMap fun x => valBytes (BitVec.ofNat 16 (jobWork l r x.1 x.2.1)) 2)
  | _, _, _, _ => (s, .fail)

/-- The next record of a job is begun: its inputs read, its outputs written. -/
def State.jobBegin (s : State) (q i : Nat) (c : Command) (l : Launch) : State :=
  let r := c.prog - 1
  match s.jobInputs q l.tid l.words r with
  | (s, .wait, _) => s
  | (s, .fail, _) => (s.cpDrop q).setCmd q i { c with done := true, fail := 3 }
  | (t, .bytes _, ins) => match (t.cpDrop q).jobOutputs q l.tid l.words r ins with
    | (s, .done) => s.setCmd q i { c with phase := 1 }
    | (_, .wait) => t
    | (s, .fail) => s.setCmd q i { c with done := true, fail := 3 }

/-- A queue's writes are all performed; the answer says whether one was refused. -/
def State.takeRefused (s : State) (q : Nat) : State × Bool :=
  (s.setQueue q { s.queue q with refused := false }, (s.queue q).refused)

/-- What a job had written has performed: it goes on, is done after its last record, or fails where a write was refused. -/
def State.jobOn (s : State) (q i : Nat) (c : Command) (l : Launch) : State :=
  let x := s.takeRefused q
  if x.2 then x.1.setCmd q i { c with done := true, fail := 3, phase := 0 }
  else x.1.setCmd q i { c with phase := 0, done := decide ((jcb l.words 1).toNat < c.prog) }

/-- CURSOR moves past a record whose writes have performed (R405). -/
def State.jobCursor (s : State) (q i : Nat) (c : Command) (l : Launch) : State :=
  if (s.queue q).refused then s.jobOn q i c l
  else match s.cpWrite q l.tid ((l.words.getD 3 0).toNat + 16) (valBytes (wd c.prog) 8) with
    | (t, .done) =>
      let c := { c with prog := c.prog + 1, phase := 3 }
      if t.cpOut q then t.setCmd q i c else t.jobOn q i c l
    | (_, .wait) => s
    | (t, .fail) => t.setCmd q i { c with done := true, fail := 3, phase := 0 }

/-- UPDJOB_CURSOR (R404, R405): the next record of the job of queue `arg.a` is worked on; or, once its writes have performed,
CURSOR moves past it, and, once that has, the job goes on. -/
def execUpdjobCursor (s : State) : Out :=
  .next (
    let q := s.queueArg
    match s.running q 7 with
    | none => s
    | some (i, c) => match c.launch.bind (NatMap.find? s.launches) with
      | none => s
      | some l =>
        if l.st != .running || s.cpOut q then s
        else if c.phase = 1 then s.jobCursor q i c l
        else if c.phase = 3 then s.jobOn q i c l
        else if s.quiet q then s.jobBegin q i c l
        else s)

/-! ### Reservation for SELFTEST (16 R406) -/

/-- The clusters that a SELFTEST has reserved and not tested are free again. -/
def State.unreserve (s : State) (c : Command) : State :=
  if c.op = 8 ∧ c.started ∧ !c.done then
    c.untested.foldl (fun s p => s.setClu p { s.getClu p with reserved := false }) s
  else s

/-- Every cluster that a running SELFTEST names is reserved once no launch occupies it. -/
def State.reserveTests (s : State) : State :=
  s.queues.foldl (fun s x => x.2.cmds.foldl (fun s c =>
    if c.testing x.2.tid then
      c.untested.foldl (fun s p =>
        if (s.holders p []).isEmpty then s.setClu p { s.getClu p with reserved := true } else s) s
    else s) s) s

/-! ### The dispatcher (16 R399, R400) -/

/-- What the dispatcher may start: a queue's startable command, or a launch that was pre-empted. -/
inductive Cand where
  | cmd (q i : Nat)
  | saved (lid : Nat)
  deriving DecidableEq, Repr

/-- The startable commands in the dispatcher's order: priority, then how long each has waited. -/
def State.candidates (s : State) : List Cand :=
  let a := s.queues.filterMap fun x =>
    if s.tenantWaits x.2.tid then none
    else x.2.startable.map fun i => (x.2.pri, x.2.waited, Cand.cmd x.1 i)
  let b := s.launches.filterMap fun x =>
    if x.2.st == .saved false then some (x.2.pri, x.2.order, Cand.saved x.1) else none
  (sortBy (fun x y : Nat × Nat × Cand => decide (y.1 < x.1) || (x.1 == y.1 && decide (x.2.1 ≤ y.2.1))) (a ++ b)).map
    fun x => x.2.2

/-- The check of a LAUNCH or UPDJOB that has not been checked: it fails, completes at once, or waits to be placed. The answer
says whether it has been decided. -/
def State.check (s : State) (q i : Nat) (c : Command) : State × Bool :=
  if s.mgmt.recov then (s.failCmd q i c 1, true)
  else if c.op = 1 then
    match s.checkLaunch q c with
    | (s, none) => (s, false)
    | (s, some (.error e)) => (s.failCmd q i c e, true)
    | (s, some (.ok l)) => (s.setCmd q i { c with words := l, prog := 1 }, true)
  else match s.checkJob q c with
    | (s, .error e) => (s.failCmd q i c e, true)
    | (s, .ok l) => (s.setCmd q i { c with words := l, prog := 1 }, true)

/-- CURSOR as a job finds it when it starts (R405): nothing where it cannot be read. -/
def State.cursorNow (s : State) (q : Nat) (c : Command) : State × Option Nat :=
  let tid := (s.queue q).tid
  let va := (c.word 3).toNat + 16
  if !s.ringOk tid va then (s, none)
  else match s.cpWord q tid va with
    | (s, none) => (s, none)
    | (s, some w) => (s, some w.toNat)

/-- A checked LAUNCH or UPDJOB placed, if it can be (R396, R397). A job reads CURSOR as it starts, and is over at once where that is NREC
(R405). -/
def State.tryPlace (s : State) (q i : Nat) (c : Command) : Option State :=
  let s := s.reserveTests
  let w := s.queue q
  match s.freeLid, s.mapping w.tid (c.word 8) [] with
  | some lid, some m =>
    let l : Launch :=
      { queue := q, seqv := c.word 2, words := c.words, tid := w.tid, pri := w.pri, map := m, st := .running
        halt := none, order := s.nextOrder, images := [], arrays := [], arrivals := [], fail := 0 }
    if c.op = 7 then match s.cursorNow q c with
      | (s, none) => some (s.failCmd q i c 3)
      | (s, some n) =>
        let s := s.started q i { c with launch := some lid, prog := n + 1, done := decide ((jcb c.words 1).toNat ≤ n) }
        some (State.startLaunch { s with nextLid := lid } lid l)
    else
      let s := s.started q i { c with launch := some lid }
      some (State.startLaunch { s with nextLid := lid } lid l)
  | _, _ => none

/-- A candidate tried: nothing where it cannot start now. A LAUNCH or UPDJOB is checked in its turn, before it is placed (R395); while a
peer's answer to the check is awaited it cannot start. -/
def State.attempt (s : State) : Cand → Option State
  | .saved lid => (s.reserveTests).resume lid none
  | .cmd q i => match (s.queue q).cmds[i]? with
    | none => none
    | some c =>
      if c.op = 1 ∨ c.op = 7 then
        (if c.prog = 0 then
          (let r := s.check q i c
           if r.2 || r.1.copies != s.copies || r.1.peerReqs != s.peerReqs then some r.1 else none)
         else s.tryPlace q i c)
      else if c.op = 0 ∨ 10 < c.op ∨ (s.mgmt.recov ∧ c.op ≠ 8) then some (s.failCmd q i c 1)
      else some (s.started q i c)

/-- The first candidate in the order that can start, with what its start makes (R399). -/
def State.firstStart (s : State) : Option (Cand × State) := s.candidates.findSome? fun x => (s.attempt x).map fun t => (x, t)

/-- The first candidate that can start does, if it is one that `p` allows. -/
def State.dispatch (s : State) (p : Cand → Bool) : State := match s.firstStart with
  | some (x, t) => if p x then t else s
  | none => s

/-- DISPATCH (R399): the first startable command that can start does. -/
def execDispatch (s : State) : Out := .next (if s.fwRuns then s.dispatch fun _ => true else s)

/-- A queue's startable command, if its opcode is the one named. -/
def State.nextCmd (s : State) (q op : Nat) : Option (Nat × Command) :=
  let w := s.queue q
  if !s.fwRuns || s.tenantWaits w.tid then none
  else w.startable.bind fun i => (w.cmds[i]?).bind fun c => if c.op = op then some (i, c) else none

/-- The command with opcode `op` at the head of a queue is checked, and then placed, where it is the first in the order that can. -/
def State.bring (s : State) (q op : Nat) : State := match s.nextCmd q op with
  | none => s
  | some (i, _) => s.dispatch fun x => x == .cmd q i

/-- LAUNCH (R394, R395): the record at the head of queue `arg.a` is checked, or, checked, placed, where it is the first in the order
that can be. -/
def execLaunch (s : State) : Out := .next (s.bring s.queueArg 1)

/-- UPDJOB (R403): as LAUNCH. -/
def execUpdjob (s : State) : Out := .next (s.bring s.queueArg 7)

/-- Command `i` of a queue is a LAUNCH or UPDJOB that has been checked. -/
def State.placeable (s : State) (q i : Nat) : Bool := match (s.queue q).cmds[i]? with
  | some c => (c.op == 1 || c.op == 7) && c.prog != 0
  | none => false

/-- LAUNCH_PLACEMENT (R396): the first startable command that can start is a checked LAUNCH or UPDJOB, and is placed. -/
def execLaunchPlacement (s : State) : Out :=
  .next (if !s.fwRuns then s else s.dispatch fun x => match x with
    | .saved _ => false
    | .cmd q i => s.placeable q i)

/-- The victims that make room for a record (R400): running launches with PRE and a lower priority, the lowest first, the
youngest of equals first, and no more than are needed. -/
def State.victims (s : State) (pri tid : Nat) (w8 : Word) : List Nat :=
  let l := s.launches.filter fun x => x.2.st == .running && x.2.shape.getLsbD 23 && decide (x.2.pri < pri)
  let l := (sortBy (fun x y : Nat × Launch => decide (x.2.pri < y.2.pri) ||
    (x.2.pri == y.2.pri && decide (y.2.order ≤ x.2.order))) l).map Prod.fst
  match (List.range (l.length + 1)).find? fun n => (s.mapping tid w8 (l.take n)).isSome with
  | some n => l.take n
  | none => []

/-- The first launch in the dispatcher's order. -/
def State.firstLaunch (s : State) : Option Cand := s.candidates.find? fun x => match x with
  | .saved _ => true
  | .cmd q i => match (s.queue q).cmds[i]? with
    | some c => c.op == 1 || c.op == 7
    | none => false

/-- The priority, tenant and shape of a candidate that is saved or checked. -/
def State.candShape (s : State) : Cand → Option (Nat × Nat × Word)
  | .saved lid => (NatMap.find? s.launches lid).map fun l => (l.pri, l.tid, l.shape)
  | .cmd q i => if s.placeable q i then ((s.queue q).cmds[i]?).map fun c => ((s.queue q).pri, (s.queue q).tid, c.word 8) else none

/-- A launch waits to be placed. -/
def State.launchWaits (s : State) : Bool := s.candidates.any fun x => (s.candShape x).isSome

/-- The context an event says is lost, by its place. -/
def State.lostArg (s : State) : Option Nat := if s.arg.flag then some s.arg.b else none

/-- The launches to be pre-empted: where the first launch in the order has been checked and cannot be placed, its victims (R400). -/
def State.toSave (s : State) : List Nat := match s.firstLaunch.bind s.candShape with
  | none => []
  | some (pri, tid, w8) => if (s.mapping tid w8 []).isSome then [] else s.victims pri tid w8

/-- PREEMPT (R400, 18 R413): the victims of the first launch in the order stop, and are saved together once every context of them can
be; launches that had been stopped and are victims no more go on. With `arg.flag` the save of the context at place `arg.b` fails
(R416). -/
def execPreempt (s : State) : Out :=
  .next (if !s.fwRuns then s
    else
      let s := s.reserveTests
      let due := s.toSave
      let s := (s.launches.filter fun x => x.2.halt == some false && !due.contains x.1).foldl
        (fun s x => s.haltLaunch x.1 none) s
      if due.isEmpty then s else s.trySave due false s.lostArg)

/-- CONTEXT_RESUME (18 R414): pre-empted launch `arg.a` resumes, if it is the first in the order that can start. With `arg.flag`
the restore of the context at place `arg.b` fails. -/
def execContextResume (s : State) : Out :=
  .next (if !s.fwRuns then s
    else match s.firstStart with
      | some (x, _) => if x == .saved s.arg.a then ((s.reserveTests).resume s.arg.a s.lostArg).getD s else s
      | none => s)

/-! ### Completion (16 R392, 09 R252) -/

/-- A launch is over: every context has retired, what they stored is at its home, and every copy command of it has completed. -/
def State.launchOver (s : State) (lid : Nat) (l : Launch) : Bool :=
  l.st == .running && l.contexts.all (fun x => (s.getCtx x.2).st == .retired && (s.getCtx x.2).q.copyq.isEmpty) &&
    (s.flights.all fun f => l.contexts.all fun x => x.2 != f.cid) && s.copies.all fun c => c.lid != lid || c.fw

/-- A started command whose effects have performed and whose completion is not on its way. -/
def State.cmdOver (s : State) (c : Command) : Bool :=
  c.started && c.phase == 0 && match c.launch with
    | none => c.done
    | some lid => match NatMap.find? s.launches lid with
      | none => true
      | some l => if l.isJob then c.done else s.launchOver lid l

/-- A command's failure code. -/
def State.cmdFail (s : State) (c : Command) : Nat :=
  if c.fail ≠ 0 then c.fail
  else match c.launch.bind (NatMap.find? s.launches) with
    | some l => l.fail
    | none => 0

/-- The completion word's write: SEQ with F in bit 63. -/
def State.release1 (s : State) (q : Nat) (c : Command) (code : Nat) : State × CpRes :=
  if c.word 1 = 0 then (s, .done)
  else
    let v := if code = 0 then c.word 2 else c.word 2 ||| 0x8000000000000000#64
    s.cpWrite q (s.queue q).tid (c.word 1).toNat (valBytes v 8)

/-- A command whose completion release has performed leaves its queue; QSTAT holds its failure, and the number of its launch is
free (R392, R397). -/
def State.leaveQueue (s : State) (q i : Nat) (c : Command) : State :=
  let x := s.takeRefused q
  let s := x.1
  let code := if x.2 then 3 else c.fail
  let w := s.queue q
  let was := w.startable.isSome
  let w := { w with cmds := w.cmds.eraseIdx i }
  let s := s.setQueue q (if code = 0 then w else { w with fseq := bits (c.word 2) 0 32, fcode := code })
  let s := match c.launch with
    | some lid => { s with launches := NatMap.del s.launches lid }
    | none => s
  if !was && w.startable.isSome then s.stamp q else s

/-- A command completes: its completion is released, and once that has performed it leaves its queue. -/
def State.complete (s : State) (q i : Nat) (c : Command) (code : Nat) : State :=
  match State.release1 (s.takeRefused q).1 q c code with
  | (_, .wait) => s
  | (t, .fail) => t.leaveQueue q i { c with fail := 3 }
  | (t, .done) =>
    let c := { c with fail := code, phase := 2 }
    if t.cpOut q then t.setCmd q i c else t.leaveQueue q i c

/-- COMMAND_COMPLETION (R392): the completion of the command of queue `arg.a` whose release has performed; else the first command
that is over, or the one at index `arg.b` where it is, completes. -/
def execCommandCompletion (s : State) : Out :=
  .next (
    let q := s.queueArg
    let w := s.queue q
    let at_ (i : Nat) : Option (Nat × Command) := (w.cmds[i]?).bind fun c => if s.cmdOver c then some (i, c) else none
    if !s.fwRuns || s.cpOut q then s
    else match w.cmds.findIdx? fun c => c.phase == 2 with
      | some i => match w.cmds[i]? with
        | some c => s.leaveQueue q i c
        | none => s
      | none =>
        if !s.quiet q then s
        else match at_ s.arg.b with
          | some (i, c) => s.complete q i c (s.cmdFail c)
          | none => match (w.cmds.findIdx? s.cmdOver).bind at_ with
            | some (i, c) => s.complete q i c (s.cmdFail c)
            | none => s)

/-! ### WAITV and SIGNAL (16 R401, R402) -/

/-- A command done with a code. -/
def State.done (s : State) (q i : Nat) (c : Command) (code : Nat) : State :=
  s.setCmd q i { c with done := true, fail := code }

/-- COND of WAITV. -/
def waitHolds (cond : Nat) (m k v : Word) : Bool :=
  match cond with
  | 0 => (m &&& k) == v
  | 1 => (m &&& k) != v
  | 2 => v.ule (m &&& k)
  | _ => v.ult (m &&& k)

/-- WAITV's read and test. -/
def State.waitv (s : State) (q : Nat) : State :=
  match s.running q 2 with
  | none => s
  | some (i, c) =>
    let w := s.queue q
    let va := (c.word 3).toNat
    if c.reserved true [3, 4, 5] || decide (3 < bits (c.word 0) 12 4) then s.done q i c 2
    else if va % 8 ≠ 0 then s.done q i c 3
    else match s.cpFetch q 0 w.tid va 8 with
      | (s, .wait) => s
      | (s, .fail) => (s.cpDrop q).done q i c 3
      | (s, .bytes l) =>
        let r := (s.cpDrop q).plain l
        if waitHolds (bits (c.word 0) 12 4) (ofBytes 64 r.2) (c.word 5) (c.word 4) then r.1.done q i c 0
        else r.1.setCmd q i { c with prog := 1 }

/-- WAITV: the command of queue `arg.a` reads its word for the first time. -/
def execWaitv (s : State) : Out :=
  .next (match s.running s.queueArg 2 with
    | some (_, c) => if c.prog = 0 then s.waitv s.queueArg else s
    | none => s)

/-- WAITV_POLL (R402): the waiting WAITV of queue `arg.a` reads again. -/
def execWaitvPoll (s : State) : Out :=
  .next (match s.running s.queueArg 2 with
    | some (_, c) => if c.prog ≠ 0 then s.waitv s.queueArg else s
    | none => s)

/-- A copy command that a command of the firmware runs as, with source bytes that are already at hand. -/
def State.asCopy (s : State) (q i : Nat) (c : Command) (op : CopyOp) (buf : List Byte) : State :=
  let x := fwCmd (8192 + q) q (s.queue q).tid op .running (((List.range buf.length).zip buf).map fun b => (b.1, some b.2))
  State.setCmd { s with copies := s.copies ++ [x] } q i { c with prog := 1 }

/-- SIGNAL's checks, then `f`. -/
def State.signal (s : State) (add : Bool) (f : State → Nat → Nat → Command → State) : State :=
  let q := s.queueArg
  match s.running q 3 with
  | none => s
  | some (i, c) =>
    if (c.word 5).getLsbD 0 != add || c.prog != 0 then s
    else if c.reserved false [3, 4, 5] || (c.word 5).toNat / 2 != 0 then s.done q i c 2
    else f s q i c

/-- SIGNAL_WRITE: M[A] := V, as a release; it runs as a copy of 8 bytes that are at hand. -/
def execSignalWrite (s : State) : Out :=
  .next (s.signal false fun s q i c => s.asCopy q i c (.cpy (c.word 3).toNat 0 8) (valBytes (c.word 4) 8))

/-- SIGNAL_ADD: an i64 add of V at the home unit; A must be aligned (R281). -/
def execSignalAdd (s : State) : Out :=
  .next (s.signal true fun s q i c =>
    if (c.word 3).toNat % 8 ≠ 0 then s.done q i c 3
    else s.asCopy q i c (.cpacc (c.word 3).toNat 0 8 0 3) (valBytes (c.word 4) 8))

/-! ### COPY, FILL, SNAP, QFENCE (16 R401, R393) -/

/-- COPY and FILL: the reserved fields, then the copy. -/
def State.fwCopy (s : State) (op : Nat) (f : Command → CopyOp) : State :=
  let q := s.queueArg
  match s.running q op with
  | none => s
  | some (i, c) =>
    if c.prog ≠ 0 then s
    else if c.reserved false [3, 4, 5] || bits (c.word 5) 40 24 != 0 then s.done q i c 2
    else s.asCopy q i c (f c) []

/-- COPY of queue `arg.a`. -/
def execCopy (s : State) : Out :=
  .next (s.fwCopy 4 fun c => .cpy (c.word 3).toNat (c.word 4).toNat (c.word 5).toNat)

/-- FILL of queue `arg.a`. -/
def execFill (s : State) : Out :=
  .next (s.fwCopy 5 fun c => .cpfill (c.word 3).toNat (c.word 4) false (c.word 5).toNat)

/-- SNAP's checks, then `f`. -/
def State.snapCmd (s : State) (drop : Bool) (f : State → Nat → Nat → Command → State) : State :=
  let q := s.queueArg
  match s.running q 6 with
  | none => s
  | some (i, c) =>
    if (c.word 3).getLsbD 0 != drop then s
    else if c.reserved false [3, 4, 5] || (c.word 3).toNat / 2 != 0 then s.done q i c 2
    else f s q i c

/-- SNAP_NEW (03 R88): the handle is written, and has performed, before the command is done. -/
def execSnapNewCmd (s : State) : Out :=
  .next (s.snapCmd false fun s q i c =>
    let tid := (s.queue q).tid
    if c.phase = 1 then
      if s.cpOut q then s
      else
        let x := s.takeRefused q
        x.1.done q i { c with phase := 0 } (if x.2 then 3 else 0)
    else if !s.quiet q || !s.clockSettled then s
    else match (s.translate none tid none (c.word 5).toNat .write).2 with
    | .fault _ _ => s.done q i c 3
    | .ok _ _ => match s.snapAlloc tid with
      | none => s.done q i c 5
      | some (s', h) => match s'.cpWrite q tid (c.word 5).toNat (valBytes (wd h) 8) with
        | (s'', .done) => s''.setCmd q i { c with phase := 1 }
        | (_, .wait) => s
        | (_, .fail) => s.done q i c 3)

/-- SNAP_DROP (03 R90). -/
def execSnapDropCmd (s : State) : Out :=
  .next (s.snapCmd true fun s q i c =>
    let r := s.snapRelease (s.queue q).tid (c.word 4).toNat
    r.1.done q i c (if r.2 then 0 else 5))

/-- QFENCE (R393): no effect of its own. -/
def execQfence (s : State) : Out :=
  .next (match s.running s.queueArg 10 with
    | some (i, c) => s.done s.queueArg i c (if c.reserved false [] then 2 else 0)
    | none => s)

/-! ### SELFTEST (16 R406) -/

/-- A SELFTEST whose byte was refused gives up its clusters. -/
def State.testsFail (s : State) (q i : Nat) (c : Command) : State :=
  (s.unreserve c).done q i c 3

/-- SELFTEST of queue `arg.a`: only the physical function's; its clusters are reserved. Once the byte of a tested cluster has
performed, it goes on, or is done. -/
def execSelftest (s : State) : Out :=
  .next (
    let q := s.queueArg
    match s.running q 8 with
    | none => s
    | some (i, c) =>
      if (s.queue q).tid ≠ 0 then s.done q i c 1
      else if c.reserved false [3, 4, 5] then s.done q i c 2
      else if s.cpOut q then s
      else
        let x := if c.phase = 0 then (s, false) else s.takeRefused q
        let c := { c with phase := 0 }
        if x.2 then x.1.testsFail q i c
        else if c.untested.isEmpty then x.1.done q i c 0
        else (x.1.setCmd q i c).reserveTests)

/-- SELFTEST_CLUSTER: the lowest reserved cluster of the SELFTEST of queue `arg.a` has run its tests, with outcome `arg.c`: 0
pass, 1 corrected errors only, 2 fail. It is cleared, and its byte is written. -/
def execSelftestCluster (s : State) : Out :=
  .next (
    let q := s.queueArg
    let r := s.arg.c % 3
    match s.running q 8 with
    | none => s
    | some (i, c) =>
      if !c.testing (s.queue q).tid ∨ !s.quiet q then s
      else match c.untested.find? fun p => (s.getClu p).reserved with
        | none => s
        | some p =>
          match s.cpWrite q 0 ((c.word 5).toNat + p) [BitVec.ofNat 8 r] with
          | (_, .wait) => s
          | (s, .fail) => s.testsFail q i c
          | (s, .done) =>
            let bank := coreBank (32 * p)
            let s := if r = 1 then s.logError bank 1 0x0001 false 0 0 none
              else if r = 2 then s.logError bank 2 0x0010 false 0 0 none else s
            let s := s.clearCluster p
            let s := s.setClu p { s.getClu p with reserved := false, withdrawn := r == 2, lastTid := none }
            let c' := { c with prog := c.prog + 2 ^ p, phase := if s.cpOut q then 1 else 0 }
            if c'.phase = 0 ∧ c'.untested.isEmpty then s.done q i c' 0 else s.setCmd q i c')

/-! ### CTXSWAP (16 R407) -/

/-- A launch of a tenant by its queue and sequence value. -/
def State.namedLaunch (s : State) (tid : Nat) (q sq : Word) (st : LaunchSt) : Option (Nat × Launch) :=
  List.find? (α := Nat × Launch) (fun x => x.2.tid == tid && x.2.queue == q.toNat && x.2.seqv == sq && x.2.st == st)
    s.launches

/-- A CTXSWAP that names no such launch fails; the manual gives no code for it, so its FCODE is a free value (log 2). -/
def State.swapFail (s : State) (q i : Nat) (c : Command) : State :=
  let d := s.draw
  d.1.done q i c (1 + d.2.toNat % 9)

/-- CTXSWAP of queue `arg.a`: the launch to be saved is saved, then the other is resumed, each as soon as it can be. -/
def execCtxswap (s : State) : Out :=
  .next (
    let q := s.queueArg
    match s.running q 9 with
    | none => s
    | some (i, c) =>
      let tid := (s.queue q).tid
      if (NatMap.get .reset s.tenants tid).vsaved then s
      else if c.reserved false [3, 4, 5, 6] then s.done q i c 2
      else if c.prog % 16 = 0 then
        if c.word 3 = 0 ∧ c.word 4 = 0 then s.setCmd q i { c with prog := c.prog + 1 }
        else match s.namedLaunch tid (c.word 3) (c.word 4) .running with
          | none => s.swapFail q i c
          | some (lid, l) =>
            if !l.shape.getLsbD 23 then s.swapFail q i c
            else
              let s := s.trySave [lid] true s.lostArg
              match NatMap.find? s.launches lid with
              | some l => if l.st == .running then s else s.setCmd q i { c with prog := c.prog + 1 }
              | none => s
      else if c.word 5 = 0 ∧ c.word 6 = 0 then s.done q i c 0
      else match s.namedLaunch tid (c.word 5) (c.word 6) (.saved true) with
        | none => s.swapFail q i c
        | some (lid, _) => match (s.reserveTests).resume lid s.lostArg with
          | some s => s.done q i c 0
          | none => s)

/-- VF_SAVE: the hypervisor saves function `arg.a`. A CTXSWAP under way that has saved no context is undone: HEAD has not passed its
record, and it starts again after the restore; another keeps its cursor and is marked as interrupted. -/
def execVfSave (s : State) : Out :=
  .next (
    let t := s.arg.a % 256
    if t = 0 then s
    else
      let n : Tenant := { NatMap.get .reset s.tenants t with vsaved := true }
      let s : State := { s with tenants := NatMap.set .reset s.tenants t n }
      let s := (s.launches.filter fun x => x.2.tid == t && x.2.halt == some true).foldl (fun s x => s.haltLaunch x.1 none) s
      let cut (c : Command) : Command :=
        if c.op = 9 ∧ c.started ∧ !c.done then
          (if c.holdsHead then { c with started := false, prog := 0 } else { c with prog := c.prog % 16 + 16 })
        else c
      { s with queues := s.queues.map fun x =>
        if x.2.tid != t then x else (x.1, { x.2 with cmds := x.2.cmds.map cut }) })

/-- VF_RESTORE: function `arg.a` is restored; an interrupted CTXSWAP goes first. -/
def execVfRestore (s : State) : Out :=
  .next (
    let t := s.arg.a % 256
    let n : Tenant := { NatMap.get .reset s.tenants t with vsaved := false }
    { s with tenants := NatMap.set .reset s.tenants t n })

end Sys2Proof.Machine
end

