-- ==== Sys2Proof/Machine/System.lean ====
section
/-! DEFINITION. The device register space and the host's ways into the package: register reads and writes, invalidations,
tenants, queues, fault-queue service, flags, machine-check registers, communicators, debug, dumps, host memory accesses,
scrubbing and attestation (01 R37, R470 to R472, 02 R79, 16 R388, 18 R417 to R426, 21 R447 to R449, R456, R463 to R469). -/

namespace Sys2Proof.Machine

/-! ### The layout (01 R470, R471) -/

/-- A register of the space: of a tenant, a queue, the package, an MCA bank, a hub, a context's DBGCTL, or none. -/
inductive RegAt where
  | tenant (t o : Nat)
  | queue (q o : Nat)
  | pkg (o : Nat)
  | mca (n o : Nat)
  | hub (h o : Nat)
  | dbg (id : Nat)
  | none
  deriving DecidableEq, Repr

/-- The register at an offset of a function's BAR, with what that function may reach. -/
def State.regAt (s : State) (fn off : Nat) : RegAt :=
  if off < 0x10000 then .tenant fn off
  else if off < 0x50000 then
    let q := (off - 0x10000) / 32
    if fn = 0 ∨ (s.queue q).tid = fn then .queue q ((off - 0x10000) % 32) else .none
  else if fn ≠ 0 then .none
  else if off < 0x60000 then .pkg (off - 0x50000)
  else if off < 0x61000 then .mca ((off - 0x60000) / 64) ((off - 0x60000) % 64)
  else if off < 0x80000 then .none
  else if off < 0xC0000 then .hub ((off - 0x80000) / 0x10000) ((off - 0x80000) % 0x10000)
  else if off < 0x100000 then .none
  else if off < 0x108000 then (if off % 8 = 0 then .dbg ((off - 0x100000) / 8) else .none)
  else if 0x1000000 ≤ off ∧ off < 0x2000000 then .tenant ((off - 0x1000000) / 0x10000) ((off - 0x1000000) % 0x10000)
  else .none

/-- A tenant's registers. -/
def State.tenant (s : State) (t : Nat) : Tenant := NatMap.get .reset s.tenants t

/-- A tenant's registers put in their place. -/
def State.setTenant (s : State) (t : Nat) (n : Tenant) : State := { s with tenants := NatMap.set .reset s.tenants t n }

/-- A bit of a flag. -/
def bit (b : Bool) (n : Nat) : Nat := if b then 2 ^ n else 0

/-! ### Reading (01 R470 to R472, 03 R99, 16 R388, R390, 18 R417, R425, 21 R456, R463, R464) -/

/-- TINVC of a pair. -/
def Tenant.tinvc (n : Tenant) (t : Nat) : Word :=
  wd (bit n.tinvBusy 31 + bit n.tinvErr 30 + n.tinvKind * 2 ^ 28 + (if t = 0 then n.tinvTid else t) * 2 ^ 20)

/-- The key of what CMSEL selects in the communicator table (R472). -/
def Tenant.commKey (n : Tenant) : Nat :=
  bits n.cmsel 0 8 * 8192 + if n.cmsel.getLsbD 31 then 4096 else bits n.cmsel 16 12

/-- M of a communicator entry. -/
def Tenant.members (n : Tenant) (e : Nat) : Nat := bits (NatMap.get 0 n.comm (e * 8192 + 4096)) 0 13

/-- A tenant's register as function `fn` reads it. -/
def State.tenantReg (s : State) (fn t o : Nat) : Word :=
  let n := s.tenant t
  let pf (v : Word) : Word := if fn = 0 then v else 0
  if 0x1000 ≤ o ∧ o < 0x1200 then
    pf (if o % 2 = 0 then (NatMap.get 0 n.peert ((o - 0x1000) / 2)).setWidth 64 else 0)
  else match o with
    | 0x00 => pf n.troot
    | 0x08 => pf (wd (bit n.en 0 + bit n.terr 1))
    | 0x10 => pf (wd n.snq)
    | 0x18 => pf n.cmsel
    | 0x20 => pf (NatMap.get 0 n.comm n.commKey)
    | 0x40 => n.tinva
    | 0x48 => n.tinvc t
    | 0x80 => n.fqbase
    | 0x88 => n.fqlog
    | 0x90 => wd n.fqtail
    | 0x98 => n.fqhead
    | 0xA0 => wd (bit n.lost 0 + bit n.badsrv 1)
    | _ => 0

/-- QCTL. -/
def WQueue.ctl (w : WQueue) : Word := wd (w.head * 2 ^ 32 + w.tid * 2 ^ 16 + w.logsz * 256 + w.pri * 4 + bit w.en 0)

/-- QSTAT; BUSY is set while a command has started and not completed. -/
def WQueue.stat (w : WQueue) : Word :=
  wd (w.fseq * 2 ^ 32 + w.fcode * 256 + bit w.xlt 2 + bit w.ovf 1 + bit (w.cmds.any Command.started) 0)

/-- PBUD. -/
def Mgmt.pbud (m : Mgmt) : Word := wd (m.floor * 2 ^ 36 + m.dem * 2 ^ 24 + m.budget)

/-- STARTCTL; GO reads 0. -/
def Mgmt.startctl (m : Mgmt) : Word := wd (m.lrsz * 2 ^ 16 + bit m.sterr 8 + m.stkind * 2)

/-- STARTST. -/
def Mgmt.startst (m : Mgmt) : Word :=
  wd (m.lstep * 2 ^ 48 + m.fails * 2 ^ 32 + m.starts * 2 ^ 16 + bit m.recov 3 + bit m.fallbk 2 + bit m.warm 1 +
    bit m.ready 0)

/-- HWPC's reset: LEN = 3, as WPC's (18 R420, R422). -/
def hwpcReset : Word := 0x0C000000

/-- A hub's register. -/
def State.hubReg (s : State) (h o : Nat) : Word :=
  if 0x1000 ≤ o ∧ o < 0x3000 then
    (if o % 2 = 0 then (NatMap.get 0 s.route (h * 4096 + (o - 0x1000) / 2)).setWidth 64 else 0)
  else if o % 8 ≠ 0 then 0
  else if 0x100 ≤ o ∧ o < 0x180 then NatMap.get 0 s.hwpa (16 * h + (o - 0x100) / 8)
  else if 0x180 ≤ o ∧ o < 0x200 then NatMap.get hwpcReset s.hwpc (16 * h + (o - 0x180) / 8)
  else match o with
    | 0x00 => wd s.lowWater
    | 0x08 => wd (s.lrFree h)
    | 0x10 => NatMap.get 0 s.colfreed h
    | 0x18 => NatMap.get 0 s.colst h
    | _ => 0

/-- A register of an MCA bank, in the order of R425. -/
def Mca.reg (m : Mca) (o : Nat) : Word :=
  match o with
  | 0x00 => m.fcls | 0x08 => m.floc | 0x10 => m.forg | 0x18 => m.wcls | 0x20 => m.wloc | 0x28 => m.worg
  | 0x30 => m.ecnt | 0x38 => m.ecfg
  | _ => 0

/-- Only the management processor answers in OFF, which serves STARTCTL and MCA bank 61 (18 R428, 21 R464, R469). -/
def RegAt.answers (off : Bool) : RegAt → Bool
  | .pkg 0x18 => true
  | .pkg 0x20 => true
  | .mca n _ => !off || n == 61
  | _ => !off

/-- What function `fn` reads at an offset, side effects apart. -/
def State.readReg (s : State) (fn off : Nat) : Word :=
  match (if (s.regAt fn off).answers (s.mgmt.power == .off) then s.regAt fn off else .none) with
  | .tenant t o => s.tenantReg fn t o
  | .queue q o =>
    let w := s.queue q
    match o with
    | 0 => w.qbase
    | 8 => w.qtail
    | 16 => w.ctl
    | 24 => w.stat
    | _ => 0
  | .pkg o => match o with
    | 0x00 => wd s.cclk
    | 0x08 => wd s.pclk
    | 0x10 => s.mgmt.pbud
    | 0x18 => s.mgmt.startctl
    | 0x20 => s.mgmt.startst
    | _ => 0
  | .mca n o => (NatMap.get .reset s.mca n).reg o
  | .hub h o => s.hubReg h o
  | .dbg id => wd (bit (s.getCtx id).dbgStep 0)
  | .none => 0

/-! ### Invalidation (01 R37) -/

/-- A write of TINVC of pair `t`. -/
def State.writeTinvc (s : State) (t : Nat) (w : Word) : State :=
  let n := s.tenant t
  let n := if w.getLsbD 30 then { n with tinvErr := false } else n
  if n.tinvBusy then s.setTenant t (if w.getLsbD 0 then { n with tinvErr := true } else n)
  else
    let kind := bits w 28 2
    let n := { n with tinvKind := kind, tinvTid := if t = 0 then bits w 20 8 else t }
    if w.getLsbD 0 then
      if kind = 3 ∨ (kind = 2 ∧ t ≠ 0) then s.setTenant t { n with tinvErr := true }
      else s.setTenant t { n with tinvBusy := true }
    else s.setTenant t n

/-- The pair an event names: function `arg.a`'s. -/
def State.tenantArg (s : State) : Nat := s.arg.a % 256

/-- A GO of one KIND written to the pair of function `arg.a`. -/
def State.tinv (s : State) (kind : Nat) : State :=
  if s.arg.w.getLsbD 0 ∧ bits s.arg.w 28 2 = kind then s.writeTinvc s.tenantArg s.arg.w else s

/-- TINV_PAGE: `arg.w` is written to TINVC. -/
def execTinvPage (s : State) : Out := .next (s.tinv 0)

/-- TINV_TID. -/
def execTinvTid (s : State) : Out := .next (s.tinv 1)

/-- TINV_ALL_TENANTS. -/
def execTinvAllTenants (s : State) : Out := .next (s.tinv 2)

/-- The entries of every TLB and walk cache that meet a condition on their tenant, address and size go, and the stores on their
way of the tenants named reach their homes. -/
def State.dropTlb (s : State) (tids : Nat → Bool) (p : Nat → Nat → Nat → Bool) : State :=
  let s := s.flush fun f => tids f.tid
  let cut (u : ClusterState) : ClusterState := { u with tlb := u.tlb.filter fun e => !p e.tid e.va e.size }
  let kept := s.walkCache.map fun x => (x.1, x.2.filter fun e => !p e.tid e.va e.size)
  let s : State := { s with walkCache := kept.filter fun x => !x.2.isEmpty }
  (List.range 128).foldl (fun s c => s.setClu c (cut (s.getClu c))) s

/-- Accesses of the tenants named that a cluster has translated and that have not performed in the package: writes that wait for
a stamp or for PCLK to reach it, and requests that peers have not answered (05 R150). -/
def State.translatedOut (s : State) (tids : Nat → Bool) : Bool :=
  let of_ (id : Nat) : Bool := tids (s.tidOf (s.getCtx id))
  let engine (k : Nat) : Bool := match s.copyOf k with | some c => tids c.tid && !c.fw | none => false
  let stamped (c : Context) : Bool := (c.q.sq ++ c.q.csq).any fun e => match e.sent with | .stamped _ => true | _ => false
  s.autoQ.any (fun w => tids w.tid && match w.src with
    | .store _ _ => true
    | .copy k _ _ => decide (k < 8192)
    | _ => false) ||
  s.copies.any (fun c => tids c.tid && !c.fw && decide (s.pclk < c.stamp)) ||
  s.contextIds.any (fun id => of_ id && stamped (s.getCtx id)) ||
  s.launches.any (fun x => tids x.2.tid && x.2.images.any fun y => stamped y.2) ||
  s.peerReqs.any fun r => match r.who with
    | .load id _ _ => of_ id
    | .store id _ => of_ id
    | .copy k _ _ => engine k
    | .ack k _ _ => engine k

/-- TINV_COMPLETE: the invalidation of function `arg.a`'s pair, of the address TINVA holds by then (log 72), ends once what was
translated before has performed. -/
def execTinvComplete (s : State) : Out :=
  .next (
    let t := s.tenantArg
    let n := s.tenant t
    if !n.tinvBusy then s
    else
      let va := bits n.tinva 16 36 * 65536
      let tid := if t = 0 then n.tinvTid else t
      let tids (x : Nat) : Bool := n.tinvKind == 2 || x == tid
      let s := s.dropTlb tids fun i a z => tids i && (n.tinvKind != 0 || (decide (a ≤ va) && decide (va < a + z)))
      if s.translatedOut tids then s else s.setTenant t { s.tenant t with tinvBusy := false })

/-! ### Tenants, queues, communicators (01 R23, R471, R472, 16 R388) -/

/-- A write of TCTL: EN = 1 needs a TROOT in the cellar, outside the lumber room. -/
def State.writeTctl (s : State) (t : Nat) (w : Word) : State :=
  let n := s.tenant t
  let n := if w.getLsbD 1 then { n with terr := false } else n
  if w.getLsbD 0 then
    let root := bits n.troot 16 36 * 65536
    if root < s.lumberBase then s.setTenant t { n with en := true }
    else s.setTenant t { n with en := false, terr := true }
  else s.setTenant t { n with en := false }

/-- TENANT_ENABLE: `arg.w`, whose EN is 1, is written to TCTL of tenant `arg.a`. -/
def execTenantEnable (s : State) : Out :=
  .next (if s.arg.w.getLsbD 0 then s.writeTctl s.tenantArg s.arg.w else s)

/-- A write of QCTL by function `fn`; EN = 1 sets HEAD to the tail word's value, or XLT where that fails translation. -/
def State.writeQctl (s : State) (fn q : Nat) (v : Word) : State :=
  let w := s.queue q
  let w := { w with
    tid := if fn = 0 then bits v 16 8 else w.tid
    logsz := bits v 8 4
    pri := bits v 2 3
    en := v.getLsbD 0 }
  if !v.getLsbD 0 then s.setQueue q w
  else if !s.ringOk w.tid w.tailAt then s.setQueue q { w with en := false, xlt := true }
  else match ((s.setQueue q w).watchTail q).cpWord q w.tid w.tailAt with
    | (s, none) => s.setQueue q { w with en := false, xlt := true }
    | (s, some t) => s.setQueue q { w with head := bits t 0 32 }

/-- A function may write a queue's registers: the physical function, or the one whose TID the queue has. -/
def State.ownsQueue (s : State) (fn q : Nat) : Bool := fn == 0 || (s.queue q).tid == fn

/-- QUEUE_ENABLE: function `arg.b` writes `arg.w`, whose EN is 1, to QCTL of queue `arg.a`. -/
def execQueueEnable (s : State) : Out :=
  .next (
    let fn := s.arg.b % 256
    if s.arg.w.getLsbD 0 ∧ s.ownsQueue fn s.queueArg then s.writeQctl fn s.queueArg s.arg.w else s)

/-- A write of CMDATA of a tenant: a header of M and this device's rank, or a rank's device; a rank at or above M is
ignored. -/
def State.writeCmdata (s : State) (t : Nat) (v : Word) : State :=
  let n := s.tenant t
  let e := bits n.cmsel 0 8
  if n.cmsel.getLsbD 31 then
    let m := bits v 0 13
    if m = 1 ∨ 4096 < m then s
    else s.setTenant t { n with comm := NatMap.set 0 n.comm n.commKey (v &&& 0x0FFF1FFF) }
  else if n.members e ≤ bits n.cmsel 16 12 then s
  else s.setTenant t { n with comm := NatMap.set 0 n.comm n.commKey (v &&& 0xFFF) }

/-- CMDATA_ACCESS: the physical function reads CMDATA of tenant `arg.a`, or with `arg.flag` writes `arg.w` to it. -/
def execCmdataAccess (s : State) : Out :=
  .next (
    let t := s.tenantArg
    if s.arg.flag then s.writeCmdata t s.arg.w else s.send (.readback (s.tenantReg 0 t 0x20)))

/-! ### The fault queue (18 R417 to R419) -/

/-- SYSC records that cores hold, and records that HD0 holds for a tenant, tried again. -/
def State.retryFq (s : State) (t : Nat) : State :=
  let s := s.retryPosts t s.fqOver
  let ids := (s.cur :: s.ctxs.map Prod.fst).filter fun id => !(s.getCtx id).q.sysc.isEmpty && s.tidOf (s.getCtx id) == t
  ids.foldl (fun s id => s.postHeld id) s

/-- A write of a fault-queue register of a tenant. -/
def State.writeFq (s : State) (t o : Nat) (v : Word) : State :=
  let n := s.tenant t
  match o with
  | 0x80 => (s.setTenant t { n with fqbase := v &&& 0xFFFFFFFFFFFFFFC0 }).retryFq t
  | 0x88 => (s.setTenant t { n with fqlog := v &&& 0xF }).retryFq t
  | 0x98 => (s.setTenant t { n with fqhead := v }).retryFq t
  | 0xA0 => s.setTenant t { n with lost := n.lost && !v.getLsbD 0, badsrv := n.badsrv && !v.getLsbD 1 }
  | _ => s

/-- FQ_REGISTER_WRITE: `arg.w` is written to FQBASE, FQLOG or FQHEAD of function `arg.a`, as `arg.b` is 0, 1 or 3. -/
def execFqRegisterWrite (s : State) : Out :=
  .next (if s.arg.b = 0 ∨ s.arg.b = 1 ∨ s.arg.b = 3 then s.writeFq s.tenantArg (0x80 + 8 * s.arg.b) s.arg.w else s)

/-- The command that waits for service under the identifier of an FQSERV write. -/
def State.serviced (s : State) (t : Nat) (v : Word) : Option CopyCmd :=
  s.copies.find? fun c => c.ident == bits v 0 13 && c.tid == t && match c.st with
    | .faulted _ _ _ => true
    | _ => false

/-- A write to FQSERV of a tenant. -/
def State.writeFqserv (s : State) (t : Nat) (v : Word) : State :=
  let bad : State := s.setTenant t { s.tenant t with badsrv := true }
  match s.serviced t v, bits v 62 2 with
  | some c, 1 =>
    let coll := s.colls.any fun x => x.ident == c.ident && !x.bad
    let kept := s.autoQ.any fun w => match w.src with | .copy k _ _ => k == c.ident | _ => false
    s.modCopy c.ident fun x => { x with st := if coll then .collective else if kept then .written else .running }
  | some c, 2 => s.failCopy c.ident
  | _, _ => bad

/-- FQSERV_RESUME (R419): function `arg.a` writes `arg.w`, whose action is RESUME. -/
def execFqservResume (s : State) : Out :=
  .next (if bits s.arg.w 62 2 = 1 then s.writeFqserv s.tenantArg s.arg.w else s)

/-- FQSERV_END. -/
def execFqservEnd (s : State) : Out :=
  .next (if bits s.arg.w 62 2 = 2 then s.writeFqserv s.tenantArg s.arg.w else s)

/-- A write to FLGSET of a tenant: the flag of a context of a running or saved launch of its own (R417, R414). -/
def State.writeFlgset (s : State) (t : Nat) (v : Word) : State :=
  match NatMap.find? s.launches (bits v 32 16) with
  | none => s
  | some l => if l.tid = t then s.raiseFlag (bits v 32 16) (bits v 8 8) (bits v 4 3) (bits v 0 2) (bits v 16 5) else s

/-- FLGSET: function `arg.a` writes `arg.w`. -/
def execFlgset (s : State) : Out := .next (s.writeFlgset s.tenantArg s.arg.w)

/-! ### Machine-check and collector registers (18 R425, R426, 03 R99) -/

/-- A write to FCLS or WCLS of a bank: the record empties only where its SEQ is the one written. -/
def Mca.clear (m : Mca) (worst : Bool) (v : Word) : Mca :=
  if !v.getLsbD 63 then m
  else if worst then
    (if bits v 16 16 = bits m.wcls 16 16 then { m with wcls := 0, wloc := 0, worg := 0 } else m)
  else if bits v 16 16 = bits m.fcls 16 16 then { m with fcls := 0, floc := 0, forg := 0 } else m

/-- MCA_RECORD_CLEAR: `arg.w` is written to FCLS of bank `arg.a`, or with `arg.flag` to WCLS. -/
def execMcaRecordClear (s : State) : Out :=
  .next (
    let b := s.arg.a % 64
    { s with mca := NatMap.set .reset s.mca b ((NatMap.get .reset s.mca b).clear s.arg.flag s.arg.w) })

/-- MCA_ECNT_READ: ECNT of bank `arg.a` is read, and MISS is cleared. -/
def execMcaEcntRead (s : State) : Out :=
  .next (
    let b := s.arg.a % 64
    let m := NatMap.get .reset s.mca b
    let s := s.send (.readback m.ecnt)
    { s with mca := NatMap.set .reset s.mca b { m with ecnt := setBits m.ecnt 16 16 0 } })

/-- COLFREED_READ: COLFREED of hub `arg.a` is read and cleared. -/
def execColfreedRead (s : State) : Out :=
  .next (
    let h := s.arg.a % 4
    let s := s.send (.readback (NatMap.get 0 s.colfreed h))
    { s with colfreed := NatMap.set 0 s.colfreed h 0 })

/-! ### STARTCTL (21 R464) -/

/-- A write of STARTCTL, which keeps an LRSZ out of range where no GO comes with it (log 18): a GO with a reserved KIND, an LRSZ out of range, or while a start runs, sets ERR and changes nothing
else; one that is accepted stops every core and every command processor at once. -/
def State.writeStartctl (s : State) (v : Word) : State :=
  let m := s.mgmt
  let m := if v.getLsbD 8 then { m with sterr := false } else m
  let kind := bits v 1 2
  let lr := bits v 16 4
  if v.getLsbD 0 then
    if kind = 0 ∨ kind = 3 ∨ lr < 3 ∨ 12 < lr ∨ m.starting then { s with mgmt := { m with sterr := true } }
    else { s with
      halted := true
      mgmt := { m with lrsz := lr, stkind := kind, starting := true, goWarm := kind == 2, ready := false } }
  else { s with mgmt := { m with lrsz := lr, stkind := kind } }

/-- STARTCTL_COLD: `arg.w`, with GO and KIND cold, is written to STARTCTL. -/
def execStartctlCold (s : State) : Out :=
  .next (if s.arg.w.getLsbD 0 ∧ bits s.arg.w 1 2 = 1 then s.writeStartctl s.arg.w else s)

/-- STARTCTL_WARM. -/
def execStartctlWarm (s : State) : Out :=
  .next (if s.arg.w.getLsbD 0 ∧ bits s.arg.w 1 2 = 2 then s.writeStartctl s.arg.w else s)

/-! ### Register writes (01 R470, R471) -/

/-- A write of PBUD: FLOOR, and B while the management lane is idle; a field out of its range is left as it is (log 18). -/
def State.writePbud (s : State) (v : Word) (idle : Bool) : State :=
  let ok (n : Nat) : Bool := decide (1600 ≤ n) && decide (n ≤ 3200)
  let fl := bits v 36 12
  let b := bits v 0 12
  { s with mgmt := { s.mgmt with
    floor := if ok fl then fl else s.mgmt.floor
    budget := if idle && ok b then b else s.mgmt.budget } }

/-- A cluster that debugging does not cover: a gated one in CLUSTER_GATED; in IDLE the level is in force over all (21 R469). -/
def State.notLive (s : State) (p : Nat) : Bool := s.mgmt.power == .gated && (s.getClu p).gated

/-- A write of DBGCTL of a context: only at debug level INVASIVE, and only where that is in force (18 R423, 21 R469). -/
def State.writeDbg (s : State) (id : Nat) (v : Word) : State :=
  if s.mgmt.debug == .invasive && s.mgmt.power != .off && !s.notLive (id / 32) && decide (id < 4096) then
    s.modCtx id fun c => { c with dbgStep := v.getLsbD 0 }
  else s

/-- A write of a tenant's register by function `fn`. R23 checks TROOT where TCTL is written: a TROOT written while EN = 1 is taken as it
is, and walks follow it, which is the model's choice (log 79). -/
def State.writeTenant (s : State) (fn t o : Nat) (v : Word) : State :=
  let n := s.tenant t
  let pf (x : State) : State := if fn = 0 then x else s
  if 0x1002 ≤ o ∧ o < 0x1200 ∧ o % 2 = 0 then pf (s.setTenant t { n with peert := NatMap.set 0 n.peert ((o - 0x1000) / 2) (v.setWidth 16) })
  else match o with
    | 0x00 => pf (s.setTenant t { n with troot := v &&& 0xFFFFFFFFF0000 })
    | 0x08 => pf (s.writeTctl t v)
    | 0x10 => pf (s.setTenant t { n with snq := bits v 0 13 })
    | 0x18 => pf (s.setTenant t { n with cmsel := v &&& 0x8FFF00FF })
    | 0x20 => pf (s.writeCmdata t v)
    | 0x40 => s.setTenant t { n with tinva := v }
    | 0x48 => s.writeTinvc t v
    | 0xA8 => s.writeFqserv t v
    | 0xB0 => s.writeFlgset t v
    | _ => s.writeFq t o v

/-- A write by function `fn` at an offset. `idle` says that the management lane is idle. -/
def State.writeReg (s : State) (fn off : Nat) (v : Word) (idle : Bool) : State :=
  match (if (s.regAt fn off).answers (s.mgmt.power == .off) then s.regAt fn off else .none) with
  | .tenant t o => s.writeTenant fn t o v
  | .queue q o =>
    let w := s.queue q
    match o with
    | 0 => if fn = 0 then s.setQueue q { w with qbase := v &&& 0xFFFFFFFFFFF80 } else s
    | 8 => if fn = 0 then s.setQueue q { w with qtail := v &&& 0xFFFFFFFFFFFF8 } else s
    | 16 => s.writeQctl fn q v
    | 24 => s.setQueue q { w with xlt := w.xlt && !v.getLsbD 2, ovf := w.ovf && !v.getLsbD 1 }
    | _ => s
  | .pkg o => match o with
    | 0x10 => s.writePbud v idle
    | 0x18 => s.writeStartctl v
    | _ => s
  | .mca n o =>
    let m := NatMap.get .reset s.mca n
    let m := match o with
      | 0x00 => m.clear false v
      | 0x18 => m.clear true v
      | 0x30 => { m with ecnt := setBits m.ecnt 32 32 (bits v 32 32) }
      | 0x38 => { m with ecfg := v &&& 0xFFFF0007 }
      | _ => m
    { s with mca := NatMap.set .reset s.mca n m }
  | .hub h o =>
    if 0x1000 ≤ o ∧ o < 0x3000 ∧ o % 2 = 0 then
      { s with route := NatMap.set 0 s.route (h * 4096 + (o - 0x1000) / 2) (v.setWidth 16 &&& 0x803F) }
    else if o % 8 ≠ 0 then s
    else if 0x100 ≤ o ∧ o < 0x180 then { s with hwpa := NatMap.set 0 s.hwpa (16 * h + (o - 0x100) / 8) v }
    else if 0x180 ≤ o ∧ o < 0x200 then
      { s with hwpc := NatMap.set hwpcReset s.hwpc (16 * h + (o - 0x180) / 8) (v &&& 0xFDFF0087) }
    else s
  | .dbg id => s.writeDbg id v
  | .none => s

/-- REGISTER_WRITE (R470): function `arg.a` writes `arg.w` at offset `arg.b`; `arg.flag` says that the management lane is
busy. -/
def execRegisterWrite (s : State) : Out := .next (s.writeReg s.tenantArg s.arg.b s.arg.w !s.arg.flag)

/-- DBGCTL_WRITE (18 R423): `arg.w` is written to DBGCTL of context `arg.a`. -/
def execDbgctlWrite (s : State) : Out := .next (s.writeDbg s.arg.a s.arg.w)

/-! ### Dumps and debug levels (18 R423, 21 R467, R469) -/

/-- What a dump reads: in the lumber room the records that stand there (03 R82). -/
def State.dumpBytes (s : State) (pa n : Nat) : List Byte :=
  let recs := (List.range 4).map s.hubLumber
  (List.range n).map fun i =>
    let a := pa + i
    if s.lumberBase ≤ a ∧ a < spaceSize then (recs.getD (hubOf a) []).getD (s.lumberIndex a) (s.byte a) else s.byte a

/-- A byte of a scratchpad whose cluster debugging does not cover. -/
def State.dumpGated (s : State) (pa : Nat) : Bool := pa / spaceSize == 2 && s.notLive (pa % spaceSize / 0x1000000)

/-- A dump of runs of bytes, address and length; one with a byte of gated SRAM is refused. -/
def State.dump (s : State) (runs : List (Nat × Nat)) : Out :=
  let at_ : List Nat := runs.flatMap fun r => (List.range r.2).map (r.1 + ·)
  match at_.find? fun a => !paOk a with
  | some a => .fault (.noSuchAddress a)
  | none =>
    if at_.any s.dumpGated then .next s
    else .next (s.send (.dump ((runs.head?.map Prod.fst).getD 0) (runs.flatMap fun r => s.dumpBytes r.1 r.2)))

/-- The pieces of a tenant address range, each in one page of the smallest size, as the page tables give them; nothing where one does
not translate here. -/
def State.dumpRuns (s : State) (tid va n : Nat) : Option (List (Nat × Nat)) :=
  let first := va / 65536
  ((List.range ((va + n + 65535) / 65536 - first)).map fun k =>
    let lo := max va ((first + k) * 65536)
    let hi := min (va + n) ((first + k + 1) * 65536)
    match (s.translate none tid none lo .read).2 with
    | .ok pa leaf => if leafPeer leaf ≠ 0 then none else some (pa, hi - lo)
    | .fault _ _ => none).foldr (fun x l => match x, l with
      | some r, some l => some (r :: l)
      | _, _ => none) (some [])

/-- MEMORY_DUMP: at level INVASIVE, `arg.b` bytes at `arg.a`, a tenant `arg.c` address where `arg.flag` is set: its walks
change nothing. -/
def execMemoryDump (s : State) : Out :=
  if s.mgmt.debug != .invasive || s.mgmt.power == .off then .next s
  else if s.arg.flag then
    match s.dumpRuns (s.arg.c % 256) s.arg.a s.arg.b with
    | some l => s.dump l
    | none => .next s
  else s.dump [(s.arg.a, s.arg.b)]

/-- Whether a debug level may be entered (R469): by security state and whether an owner token is shown. -/
def debugMay (sec : Security) (lv : DebugLevel) (token : Bool) : Bool :=
  match lv, sec with
  | .none, _ => true
  | .nonInvasive, .sealed => token
  | .nonInvasive, _ => true
  | .invasive, .open_ => true
  | .invasive, .provisioned => token
  | .invasive, .sealed => token
  | .invasive, .failed => false

/-- The debug level numbered `n`. -/
def levelOf (n : Nat) : DebugLevel := match n % 3 with
  | 0 => .none
  | 1 => .nonInvasive
  | _ => .invasive

/-- The token of an event is valid: `arg.flag` says that its signature holds under the owner key; it names this device's serial
number (`arg.w`), the nonce in force (`arg.x`) and the requested level (`arg.c`). -/
def State.tokenOk (s : State) : Bool :=
  s.arg.flag && s.arg.w == Config.serial && s.arg.x == Config.nonce s.mgmt.nonce && levelOf s.arg.c == levelOf s.arg.a

/-- DEBUG_LEVEL_REQUEST (R467, R469): level `arg.a`, with the token numbered `arg.b`, if it is valid, after which another nonce is in
force (log 80). An entry is measured; in SEALED, entry into INVASIVE closes every SPDM session and IDE stream. -/
def execDebugLevelRequest (s : State) : Out :=
  .next (
    let lv := levelOf s.arg.a
    let m := s.mgmt
    if m.power == .off || !debugMay m.security lv s.tokenOk then s
    else
      let m := if s.tokenOk then { m with nonce := m.nonce + 1 } else m
      let m := { m with debug := lv, debugLog := if lv == .none then m.debugLog else m.debugLog ++ [s.arg.a % 3 + 4 * s.arg.b] }
      let m := if lv == .invasive && m.security == .sealed then { m with spdm := 0, ideOpen := false } else m
      { s with mgmt := m })

/-! ### Host memory accesses, configuration, scrubbing (21 R448, R465, 02 R79, 01 R13) -/

/-- HOST_MEM_ACCESS (21 R448): the host reads the 64 B block of the cellar at `arg.a`, of its granules only those that `arg.mask`
names a byte of, or all where that is 0; or with `arg.flag` writes the bytes of `arg.data` that `arg.mask` names. An access
whose granules are not served together (05 R149) comes as several. Above the lumber-room base it is refused. A write of a line
recalled from the host needs that the host reads it first (05 R166, log 69). -/
def execHostMemAccess (s : State) : Out :=
  .next (
    let a := s.arg.a % spaceSize / 64 * 64
    if !s.mgmt.ready || s.mgmt.power == .off then s
    else if s.lumberBase ≤ a then
      let s := s.logError 60 1 0x0013 false 1 a none (8 * 2 ^ 52)
      if s.arg.flag then s else s.send (.hostRead 0 true)
    else
      let mask (i : Nat) : BitVec 8 := s.arg.mask.extractLsb' (8 * i) 8
      let named := (List.range 8).filter fun i => mask i != 0
      if s.arg.flag then
        if NatMap.get false s.recalled (a / 64) then s
        else named.foldl (fun s i => s.homeWrite 0 5 0 ⟨a + 8 * i, mask i, some (s.arg.data.extractLsb' (64 * i) 64)⟩) s
      else
        let l := if named.isEmpty then List.range 8 else named
        let s : State := { s with recalled := NatMap.del s.recalled (a / 64) }
        let s := l.foldl (fun s i => (s.visit (a + 8 * i) false true).1) s
        let s := if named.isEmpty then s.watchHome a 64 false 0 5 0
          else l.foldl (fun s i => s.watchHome (a + 8 * i) 8 false 0 5 0) s
        let poison := l.any fun i => (s.granule (a + 8 * i)).isNone
        s.send (.hostRead (ofBytes 512 ((List.range 64).map fun b => if l.contains (b / 8) then s.byte (a + b) else 0)) poison))

/-- CXL_HOST_RESPONSE (01 R13): the host's memory at the 64 B block `arg.a` holds the bytes of `arg.data` that `arg.mask`
names, from now on for every reader; where the port took the line exclusive, only once the host has taken it again, which
`arg.flag` says (05 R166, log 69). A write of the host to a tail word's line is reported (16 R389). -/
def execCxlHostResponse (s : State) : Out :=
  .next (
    let a := 4 * spaceSize + s.arg.a % spaceSize / 64 * 64
    if NatMap.get false s.recalled (a / 64) && !s.arg.flag then s else
    let s : State := { s with recalled := NatMap.del s.recalled (a / 64) }
    let s := (List.range 64).foldl (fun s i =>
      if s.arg.mask.getLsbD i then s.setByte (a + i) (s.arg.data.extractLsb' (8 * i) 8) else s) s
    s.report a)

/-- CONFIG_REQUEST (21 R465): of function `arg.a`; until the register space is up it is to be retried. -/
def execConfigRequest (s : State) : Out :=
  .next (s.send (if s.mgmt.starting || !s.mgmt.regsUp || s.mgmt.power == .off then .configRetry s.tenantArg else .configOk s.tenantArg))

/-- PATROL_SCRUB (02 R79): the granule at device address `arg.a`; cellar and larder are scrubbed, and with `arg.flag` the granule
as the cellar cache holds it. -/
def execPatrolScrub (s : State) : Out :=
  if !paOk s.arg.a then .fault (.noSuchAddress s.arg.a)
  else
    let a := s.arg.a
    let stored : Site → Bool := fun x => match x with
      | .mem b => !s.arg.flag && if a / spaceSize = 0 then b / 64 == a / 64 else b / 8 == a / 8
      | .line b => s.arg.flag && b / 8 == a / 8
      | _ => false
    .next (if a / spaceSize ≤ 1 then (s.findAt stored).1 else s)

/-! ### Attestation (21 R449) -/

/-- An SPDM request in the physical function's mailbox: virtual functions have none; in FAILED every answer is an ERROR. -/
def State.spdm (s : State) (f : State → State) : State :=
  if s.tenantArg ≠ 0 || s.mgmt.power == .off then s
  else if s.mgmt.security == .failed then s.send (.spdmError false)
  else f s

/-- GET_VERSION. -/
def execGetVersion (s : State) : Out := .next (s.spdm fun s => s.send (.spdm "VERSION 1.2"))

/-- GET_CAPABILITIES. -/
def execGetCapabilities (s : State) : Out := .next (s.spdm fun s => s.send (.spdm "CAPABILITIES"))

/-- NEGOTIATE_ALGORITHMS. -/
def execNegotiateAlgorithms (s : State) : Out :=
  .next (s.spdm fun s => s.send (.spdm "ALGORITHMS SHA-256, RSASSA-PSS-3072 with SHA-256, secp384r1, AES-256-GCM"))

/-- GET_DIGESTS. -/
def execGetDigests (s : State) : Out := .next (s.spdm fun s => s.send (.spdm "DIGESTS"))

/-- GET_CERTIFICATE. -/
def execGetCertificate (s : State) : Out := .next (s.spdm fun s => s.send (.spdm "CERTIFICATE"))

/-- CHALLENGE. -/
def execChallenge (s : State) : Out := .next (s.spdm fun s => s.send (.spdm "CHALLENGE_AUTH"))

/-- The contents of a measurement that the state holds. -/
def State.measured1 (s : State) (n : Nat) : List Nat :=
  match n with
  | 1 => [bit s.stepping 0]
  | 2 => [match s.mgmt.fused with | .open_ => 0 | .provisioned => 1 | .sealed => 2 | .failed => 3]
  | 3 => s.mgmt.debugLog
  | 4 => s.mgmt.repair.toNat :: (List.range 128).map fun p => (s.getClu p).atcap.toNat
  | 5 => [s.lrsz, bit s.mgmt.warm 0]
  | _ => []

/-- GET_MEASUREMENTS: index `arg.b`, 1 to 6; another index is an ERROR. -/
def execGetMeasurements (s : State) : Out :=
  .next (s.spdm fun s =>
    let n := s.arg.b
    if 1 ≤ n ∧ n ≤ 5 then s.send (.measurement n (Config.digest n (s.measured1 n)))
    else if n = 6 then
      s.send (.measurement 6 (Config.digest 6 ((List.range 5).map fun i => (Config.digest (i + 1) (s.measured1 (i + 1))).toNat)))
    else s.send (.spdmError false))

/-- KEY_EXCHANGE: a session is being set up. -/
def execKeyExchange (s : State) : Out :=
  .next (s.spdm fun s => ({ s with mgmt := { s.mgmt with spdm := 1 } }).send (.spdm "KEY_EXCHANGE_RSP"))

/-- FINISH: the session stands; `arg.flag` says that it sets the keys of an IDE stream (21 R446). Without a key exchange it
is an ERROR. -/
def execFinish (s : State) : Out :=
  .next (s.spdm fun s =>
    if s.mgmt.spdm = 1 then
      ({ s with mgmt := { s.mgmt with spdm := 2, ideOpen := s.mgmt.ideOpen || s.arg.flag } }).send (.spdm "FINISH_RSP")
    else s.send (.spdmError false))

/-- SPDM_UNSUPPORTED_REQUEST: ERROR with code UnsupportedRequest. -/
def execSpdmUnsupportedRequest (s : State) : Out := .next (s.spdm fun s => s.send (.spdmError true))

end Sys2Proof.Machine
end

