-- ==== Sys2Proof/Machine/Starting.lean ====
section
/-! DEFINITION. The reset of one tenant, FATAL errors, cold and warm starts, and the power states (03 R113, R114, 18 R428 to
R430, 21 R462 to R469). -/

namespace Sys2Proof.Machine

/-! ### Giving up commands and contexts -/

/-- The engines' commands that meet a condition end without completion, and with them what waits for their writes. -/
def State.dropCopies (s : State) (p : CopyCmd → Bool) : State :=
  let gone (k : Nat) : Bool := s.copies.any fun c => c.ident == k && p c
  { s with
    copies := s.copies.filter fun c => !p c
    colls := s.colls.map fun c => if gone c.ident then { c with bad := true } else c
    autoQ := s.autoQ.filter fun w => match w.src with
      | .copy k _ _ => !gone k
      | _ => true
    peerReqs := s.peerReqs.filter fun r => match r.who with
      | .copy k _ _ => !gone k
      | .ack k _ _ => !gone k
      | _ => true }

/-- A context that has stopped for good and given up everything but its vector registers (02 R48). -/
def Context.discarded (c : Context) : Context :=
  { Context.reset with regs := { Regs.reset with v := c.regs.v, vpoison := c.regs.vpoison } }

/-- The numbers of the stamped transactions, lowest stamp first. -/
def State.stampedTxs (s : State) : List Nat :=
  let l := s.txs.filterMap fun x => match x.2.st with
    | .stamped _ k _ => some (x.1, k)
    | _ => none
  (sortBy (fun a b : Nat × Nat => decide (a.2 ≤ b.2)) l).map Prod.fst

/-- Every stamped transaction published at every hub (R113, R114). -/
def State.publishAll (s : State) : State :=
  s.stampedTxs.foldl (fun s t => (List.range 4).foldl (fun s h => s.publish t h) s) s

/-! ### Reset of one tenant (18 R429, R430) -/

/-- A number of a context of the tenant, running or saved. -/
def State.ofTenant (s : State) (t id : Nat) : Bool :=
  s.launches.any fun x => x.2.tid == t && ((x.2.st == .running && x.2.contexts.any fun c => c.2 == id) ||
    (decide (4096 ≤ id) && (id - 4096) / 4096 == x.1))

/-- Step 1: the contexts of a tenant stop and their buffers are discarded; its launches are gone. -/
def State.stopTenant (s : State) (t : Nat) : State :=
  let mine := s.ofTenant t
  let running := (s.launches.filter fun x => x.2.tid == t && x.2.st == .running).map Prod.snd
  let s1 := running.foldl (fun s l => (l.contexts.map Prod.snd).foldl (fun s id =>
    let k := s.getCore (id / 4)
    let own : Bool := k.array.owner == some id
    let a := if own then { k.array with owner := none, pass := none } else k.array
    let s := s.setCore (id / 4) { k with array := a, arrivals := k.arrivals.filter fun x => x.ctx != id }
    s.modCtx id Context.discarded) s) s
  { s1 with
    launches := s1.launches.filter fun x => x.2.tid != t
    autoQ := s1.autoQ.filter fun w => match w.src with
      | .store id _ => !mine id
      | _ => true
    peerReqs := s1.peerReqs.filter fun r => match r.who with
      | .load id _ _ => !mine id
      | .store id _ => !mine id
      | _ => true }

/-- Step 3: the commands of a tenant's queues complete failed with FCODE RESET, and the queues are disabled. One whose
completion has been released stays as it was reported; one whose word cannot be written yet stays until it is. -/
def State.resetQueues (s : State) (t : Nat) : State :=
  ((s.queues.filter fun x => x.2.tid == t).map Prod.fst).foldl (fun s q =>
    let r := ((s.queue q).cmds.filter fun c => c.phase != 2).foldl (fun (a : State × List Command) c =>
      let s := a.1.unreserve c
      let left (s : State) : State := s.setQueue q { s.queue q with fseq := bits (c.word 2) 0 32, fcode := 9 }
      match s.release1 q c 9 with
      | (_, .wait) => (left s, a.2 ++ [{ c with started := true, done := true, fail := 9, phase := 0, launch := none }])
      | (s, _) => (left s, a.2)) (s, [])
    r.1.setQueue q { r.1.queue q with en := false, cmds := r.2 }) s

/-- Step 4: unstamped transactions abort, stamped ones are published, snapshots are freed (03 R113). -/
def State.resetVersions (s : State) (t : Nat) : State :=
  let s := s.publishAll
  let gone := (s.txs.filter fun x => x.2.tid == t).map fun x => (x.1, x.2.cid)
  let s := gone.foldl (fun s n => s.unregister n.1 n.2) s
  { s with snaps := s.snaps.map fun x => if x.2.st != .free && x.2.tid == t then (x.1, ⟨.free, x.2.gen, 0, 0, 0⟩) else x }

/-- The ports that are up. -/
def State.upPorts (s : State) : List Nat := (List.range 48).filter fun n => (NatMap.get .reset s.ports n).up

/-- Markers sent on every port, and flits of the tenant discarded until each port's own marker (18 R430). -/
def State.sendMarkers (s : State) (t : Nat) : State :=
  let s := s.upPorts.foldl (fun s n => s.sendVl0 n 7 0 0 t none) s
  { s with discard := s.discard.filter (fun d => d % 256 != t) ++ s.upPorts.map fun n => n * 256 + t }

/-- A reset of a tenant. -/
def State.resetTenant (s : State) (t : Nat) : State :=
  let s := (s.stopTenant t).dropCopies fun c => c.tid == t
  let s := (s.resetQueues t).resetVersions t
  let s := s.dropTlb (· == t) fun i _ _ => i == t
  State.sendMarkers { s with
    fqOver := s.fqOver.filter fun r => r.tid != t
    colls := s.colls.filter fun c => c.tid != t
    ports := s.ports.map fun p => (p.1, p.2.holding (p.2.held.filter fun x => bits x.hdr 20 8 != t)) } t

/-- FUNCTION_LEVEL_RESET of tenant `arg.a`; refused while a start runs (21 R465). -/
def execFunctionLevelReset (s : State) : Out :=
  .next (if s.mgmt.starting || s.mgmt.power == .off then s else s.resetTenant s.tenantArg)

/-! ### FATAL errors (18 R427, R428) -/

/-- The ERRCODE of a FATAL error in a bank: the link banks have segments that go down, the others state that is lost. -/
def fatalCode (bank : Nat) : Nat := if 56 ≤ bank ∧ bank ≤ 59 then 0x000C else 0x000D

/-- The place of an error of a bank as a whole, by its die (18 R424, R425). -/
def bankPlace (bank index : Nat) : Nat :=
  (if bank < 32 then bank / 4 else if bank < 56 then 8 + (bank - 32) / 6 else if bank < 60 then 8 + (bank - 56)
    else if bank = 60 then 8 else 15) * 2 ^ 52 + index % 65536

/-- Whether the start that follows a FATAL error in a bank is a warm one (18 R428). -/
def fatalWarm (bank : Nat) : Bool := !([35, 41, 47, 53, 62] : List Nat).contains bank

/-- A start counts, whether it fails or not (21 R463, log 47). -/
def Mgmt.countStart (m : Mgmt) : Mgmt := { m with starts := min 65535 (m.starts + 1) }

/-- A start that fails counts, and the third in a row enters RECOVERY, which is READY without step 7 (21 R463). -/
def Mgmt.failed (m : Mgmt) : Mgmt :=
  let n := min 3 (m.fails + 1)
  { m.countStart with fails := n, starting := false, recov := m.recov || n == 3, ready := m.recov || n == 3 }

/-- A start that fails at a step: the security state is FAILED for it where step 1 or 2 failed (21 R466). -/
def Mgmt.failStart (m : Mgmt) (step : Nat) : Mgmt :=
  { m.failed with lstep := step, security := if step = 1 ∨ step = 2 then .failed else m.fused }

/-- FATAL_ERROR in bank `arg.a`, at its channel, link or entry `arg.b`: every core and command processor stops, the host is told, and
a start is to follow, a cold one where one of several errors asks for it. One
during a start fails that start, LSTEP staying as it is. -/
def execFatalError (s : State) : Out :=
  .next (
    let b := s.arg.a % 64
    if s.mgmt.power == .off then s
    else
      let m := if s.mgmt.starting then s.mgmt.failed else s.mgmt
      let s := (s.logError b 3 (fatalCode b) false 0 0 none (bankPlace b s.arg.b)).send .cxlError
      { s with
        halted := true
        mgmt := { m with
          starting := true, ready := false, goWarm := fatalWarm b && (!s.mgmt.starting || s.mgmt.goWarm) } })

/-! ### Starts (21 R462 to R466) -/

/-- The package with nothing left but what the management processor, the host and the model's own bookkeeping hold. -/
def State.wiped (s : State) : State :=
  { State.reset with
    agenda := s.agenda, arg := s.arg, draws := s.draws, stepping := s.stepping, mgmt := s.mgmt, outbox := s.outbox
    mem := s.mem.filter fun x => decide (4 * spaceSize ≤ x.1)
    memPoison := s.memPoison.filter fun x => decide (4 * spaceSize ≤ 8 * x.1) }

/-- The security state numbered `n` that fuses give. -/
def fuseOf (n : Nat) : Security := match n % 3 with
  | 0 => .open_
  | 1 => .provisioned
  | _ => .sealed

/-- The later of two fused states: the transitions are one-way (21 R466). -/
def laterFuse (a b : Security) : Security :=
  match a, b with
  | .sealed, _ => .sealed
  | _, .sealed => .sealed
  | .provisioned, _ => .provisioned
  | _, b => b

/-- What every start sets at once: debug level NONE, no session, no cluster held for heat, power ON, the register space down. -/
def Mgmt.anew (m : Mgmt) (warm fallbk : Bool) : Mgmt :=
  { m with
    debug := .none, spdm := 0, ideOpen := false, tripped := [], power := .on, starting := false, goWarm := false
    ready := false, regsUp := false, takes := [], warm := warm, fallbk := fallbk }

/-- A start that reaches READY. -/
def Mgmt.startOk (m : Mgmt) : Mgmt := { m.countStart with fails := 0, recov := m.recov && m.warm, ready := true }

/-- ATCAP of a cluster with 8 MiB of its scratchpad present (01 R19). -/
def atcapHalf : Word := 0x0803

/-- The lumber-room size a cold start takes from LRSZ: one out of range acts as its reset value (log 18). -/
def Mgmt.roomSize (m : Mgmt) : Nat := if 3 ≤ m.lrsz ∧ m.lrsz ≤ 12 then m.lrsz else 6

/-- The directory entries of a hub for a lumber room of `n` units: what its sixteenth for spilled entries holds at 48 bytes each
(03 R115, log 31). -/
def entryRoom (n : Nat) : Nat := n * 0x200000000 / 16 / 48

/-- What a warm start keeps of versioned memory: every stamped commit published, no tentative or delta record, no
transaction, no snapshot (03 R114). -/
def State.keepVersions (s : State) : State :=
  let s := s.publishAll
  let s : State := { s with
    dir := s.dir.map fun x => (x.1, { x.2 with recs := [], lock := none, merge := [] })
    txs := [], autoQ := [], unpublished := []
    snaps := s.snaps.map fun x => (x.1, ⟨.free, x.2.gen, 0, 0, 0⟩) }
  (List.range 4).foldl State.updatePress s

/-- Every dirty line of the cellar caches is written back, the errors that this reads being found, and the caches are empty
(02 R66). -/
def State.writeBack (s : State) : State :=
  let dirty := (s.cached.flatMap Prod.snd).filterMap fun x => if x.2 then some x.1 else none
  let s := (s.findAt fun x => match x with | .line a => dirty.contains (a / 128) | _ => false).1
  { s with cached := [], upsets := s.upsets.filter fun u => match u.site with | .line _ => false | _ => true }

/-- What a start finds: everything that ran has ended, registers of the space, tables and links are as at reset; memories, version
state, ATCAP and withdrawn clusters stand, and after a warm request, with dirty lines written back, the MCA banks and collectors. -/
def State.stoppedFor (s : State) (warm : Bool) : State :=
  let s := if warm then s.writeBack else s
  let w := { s.wiped with
    mem := s.mem, memPoison := s.memPoison, halted := true
    upsets := s.upsets.filter fun u => match u.site with | .mem _ => true | _ => false
    dir := s.dir, snaps := s.snaps, txs := s.txs, autoQ := s.autoQ, unpublished := s.unpublished, turn := s.turn
    cclk := s.cclk, pclk := s.pclk, lrsz := s.lrsz, dirRoom := s.dirRoom
    colfreed := if warm then s.colfreed else [], colst := if warm then s.colst else [], mca := if warm then s.mca else [] }
  (List.range 128).foldl (fun w p =>
    let u := s.getClu p
    w.setClu p { ClusterState.reset with atcap := u.atcap, withdrawn := warm && u.withdrawn }) w

/-- Memory of some spaces gone, with its poison and its errors. -/
def State.losing (s : State) (gone : Nat → Bool) : State :=
  { s with
    mem := s.mem.filter fun x => !gone (x.1 / spaceSize)
    memPoison := s.memPoison.filter fun x => !gone (8 * x.1 / spaceSize)
    upsets := s.upsets.filter fun u => match u.site with | .mem a => !gone (a / spaceSize) | _ => true }

/-- A step of a start (R462): 2 the fuses, whose state is `arg.b`; 3 the links: a port comes up whose round trip, byte `n` of `arg.data` in
flit times, is at most 64 (R454), and the register space; 4 the cellar; 5 attic repair, which leaves the clusters `arg.mask` with
8 MiB and the map `arg.x`; 6 the SRAMs; 7 versioned memory; 8 the attestation log. -/
def State.startStep (s : State) (n : Nat) : State :=
  let m := s.mgmt
  match n with
  | 2 => let f := laterFuse m.fused (fuseOf s.arg.b); { s with mgmt := { m with fused := f, security := f } }
  | 3 => { s with
    ports := (List.range 48).foldl (fun l p => NatMap.set .reset l p
      { Port.reset with up := decide (bits s.arg.data (8 * p) 8 ≤ 64) }) []
    mgmt := { m with regsUp := true } }
  | 4 => if m.warm then s else s.losing fun k => k == 0
  | 5 =>
    if m.warm then s
    else (List.range 128).foldl (fun s p => s.setClu p { s.getClu p with
      atcap := if s.arg.mask.getLsbD p then atcapHalf else ClusterState.reset.atcap }) { s with mgmt := { m with repair := s.arg.x } }
  | 6 => s.losing fun k => k == 1 || k == 2
  | 7 =>
    if m.warm then s.keepVersions
    else { s with
      dir := [], snaps := [], txs := [], autoQ := [], unpublished := [], turn := false, cclk := 0, pclk := 0
      lrsz := m.roomSize, dirRoom := entryRoom m.roomSize }
  | 8 => { s with mgmt := { m with debugLog := [] } }
  | _ => s

/-- A start: the steps in order up to the one that fails, `arg.c`, 0 where none does. Its links are down until step 3. In RECOVERY the
device is READY without step 7 (R463). -/
def State.start (s : State) (warm fallbk : Bool) : State :=
  let w := s.stoppedFor warm
  let down : NatMap Port := (List.range 48).foldl (fun l p => NatMap.set .reset l p { Port.reset with up := false }) []
  let w : State := { w with ports := down, mgmt := w.mgmt.anew warm fallbk }
  if 1 ≤ s.arg.c ∧ s.arg.c ≤ 9 then
    let w := ((List.range s.arg.c).drop 1).foldl State.startStep w
    let m := w.mgmt.failStart s.arg.c
    { w with halted := !m.ready, mgmt := { m with regsUp := m.regsUp || m.ready } }
  else
    let w := ((List.range 9).drop 1).foldl State.startStep w
    let m := if warm then w.mgmt else { w.mgmt with floor := 1600, dem := 0, budget := 3200 }
    { w with halted := false, mgmt := m.startOk }

/-- A cold start. -/
def State.coldStart (s : State) (fallbk : Bool) : State := s.start false fallbk

/-- COLD_START: `arg.b`, `arg.c`, `arg.data`, `arg.mask` and `arg.x` as `State.startStep` and `State.start` have them. -/
def execColdStart (s : State) : Out :=
  .next (if s.mgmt.starting && !s.mgmt.goWarm && s.mgmt.power != .off then s.coldStart false else s)

/-- WARM_START: with `arg.flag` the retained training fails its check, and it runs as a cold start. -/
def execWarmStart (s : State) : Out :=
  .next (
    if !(s.mgmt.starting && s.mgmt.goWarm && s.mgmt.power != .off) then s
    else if s.arg.flag then s.coldStart true
    else s.start true false)

/-- MODULE_LEAVES_OFF (21 R464): the start that KIND names, which is cold in any case, the cellar being lost. -/
def execModuleLeavesOff (s : State) : Out :=
  .next (if s.mgmt.power == .off then s.coldStart (s.mgmt.stkind == 2) else s)

/-- LOSS_OF_ALL_POWER: STARTCTL and STARTST take their reset values, and a cold start follows when power is back. Fuses keep
their state. -/
def execLossOfAllPower (s : State) : Out :=
  .next { s.wiped with
    halted := true
    mgmt := { Mgmt.reset with
      starts := 0, ready := false, regsUp := false, power := .off, fused := s.mgmt.fused, security := s.mgmt.fused } }

/-! ### Power states (21 R468, R469) -/

/-- POWER_OFF: only the management processor is left; the debug level reverts to NONE. -/
def execPowerOff (s : State) : Out :=
  .next { s.wiped with
    halted := true
    mgmt := { s.mgmt with
      floor := 1600, dem := 0, budget := 3200, ready := false, starting := false, goWarm := false, debug := .none
      regsUp := false, takes := [], spdm := 0, ideOpen := false, tripped := [], power := .off } }

/-- A cluster's own registers as they are after its state is lost: ATCAP, what withdraws or reserves it, its place in time and its
ceilings stand; on a die that has tripped it is at OP0, to come back to the point of reset (21 R461, R468). -/
def ClusterState.lost (u : ClusterState) : ClusterState :=
  let o := ClusterState.reset.oper
  { ClusterState.reset with
    atcap := u.atcap, withdrawn := u.withdrawn, reserved := u.reserved, tick := u.tick, ceil := u.ceil, ceilNew := u.ceilNew
    hr := u.hr, budgetCeil := u.budgetCeil, theta := u.theta, lastTid := none
    oper := if u.oper.back.isSome then { o with cur := 0, tgt := 0, step := 0, back := some o.cur } else o }

/-- All state of a cluster cleared: registers of its contexts, arrays and arrival queues of its cores, its scratchpad and its own
registers. -/
def State.loseCluster (s : State) (p : Nat) : State :=
  let s := (List.range 32).foldl (fun s i => s.modCtx (32 * p + i) fun c => { c with regs := .reset }) (s.clearCluster p)
  let s := (List.range 8).foldl (fun s k => s.setCore (8 * p + k) .reset) s
  s.setClu p (s.getClu p).lost

/-- A cluster gated: what runs there is lost with its state (log 47). -/
def State.gate (s : State) (p : Nat) : State :=
  let live := ((List.range 32).map (32 * p + ·)).filter fun id => (s.getCtx id).st != .retired
  let s := live.foldl State.loseContext s
  let s := s.dropCopies fun c => !c.fw && c.cluster == p
  let jobs := (s.launches.filter fun x => x.2.isJob && x.2.st == .running && x.2.map.contains p).map Prod.fst
  let lost (c : Command) : Command := match c.launch with
    | some lid => if jobs.contains lid then { c with done := true, fail := 7 } else c
    | none => c
  let s := s.flush fun f => f.from_ / 32 == p
  let s : State := { s with queues := s.queues.map fun x => (x.1, { x.2 with cmds := x.2.cmds.map lost }) }
  let s := s.loseCluster p
  s.setClu p { s.getClu p with gated := true }

/-- A cluster ungated: cleared as on a change of tenant. -/
def State.ungate (s : State) (p : Nat) : State :=
  if (s.getClu p).gated then
    let s := s.loseCluster p
    s.setClu p { s.getClu p with gated := false }
  else s

/-- Power states change only while the package runs. -/
def State.powered (s : State) : Bool := s.mgmt.power != .off && !s.mgmt.starting

/-- The clusters an event names. -/
def State.namedClusters (s : State) : List Nat := (List.range 128).filter fun p => s.arg.mask.getLsbD p

/-- The power state put into force. -/
def State.setPower (s : State) (p : Power) : State := { s with mgmt := { s.mgmt with power := p } }

/-- POWER_CLUSTER_GATE: the clusters `arg.mask`. -/
def execPowerClusterGate (s : State) : Out :=
  .next (
    let l := s.namedClusters.filter fun p => !(s.getClu p).gated
    if !s.powered ∨ l.isEmpty then s else (l.foldl State.gate s).setPower .gated)

/-- POWER_IDLE. -/
def execPowerIdle (s : State) : Out :=
  .next (
    let l := (List.range 128).filter fun p => !(s.getClu p).gated
    if s.powered then (l.foldl State.gate s).setPower .idle else s)

/-- UNGATE_ON_DEMAND: in IDLE, a launch is waiting to be placed. -/
def execUngateOnDemand (s : State) : Out :=
  .next (if s.powered && s.mgmt.power == .idle && s.launchWaits then
      ((List.range 128).foldl State.ungate s).setPower .on
    else s)

/-- CLUSTER_UNGATE: the clusters `arg.mask` go back to ON; with none gated the power state is ON. -/
def execClusterUngate (s : State) : Out :=
  .next (if s.powered && s.mgmt.power == .gated then
      let s := s.namedClusters.foldl State.ungate s
      if (List.range 128).any fun p => (s.getClu p).gated then s else s.setPower .on
    else s)

end Sys2Proof.Machine
end

