-- ==== Sys2Proof/Machine/Power.lean ====
section
/-! DEFINITION. Operating points of the clusters, ceilings, demand, and cooling as the management processor and the power
manager drive them (07 R204, R205, R208 to R210, 21 R456, R458 to R461). -/

namespace Sys2Proof.Machine

/-! ### Operating points (07 R208 to R210) -/

/-- The management processor asks for a point: at once, or once the adjacent step in progress has settled. -/
def Oper.ask (o : Oper) (tick t : Nat) : Oper :=
  if o.settling then { o with mgmt := some t } else { o with tgt := t, byMgmt := true }.onward tick

/-- A context that would issue in the next tick if only time passed. -/
def Context.canGo (c : Context) : Bool := c.st == .issuing && !c.stop && c.freezes.all fun f => f == .ceiling || f == .slew

/-- The ticks left of a settling step have no bundle in them: none is left, the cluster runs at OP0, or no context of it
can issue. -/
def State.settleDue (s : State) (p : Nat) : Bool :=
  let u := s.getClu p
  decide (u.oper.due ≤ u.tick) || u.oper.cur == 0 || s.halted || u.gated ||
    (List.range 32).all fun i => !(s.getCtx (32 * p + i)).canGo

/-- Ticks of a cluster that pass. -/
def ClusterState.passN (c : ClusterState) (n : Nat) : ClusterState := (List.range n).foldl (fun c _ => c.pass) c

/-- OPSET_SETTLE_STEP: in cluster `arg.a`. -/
def execOpsetSettleStep (s : State) : Out :=
  .next (
    let p := s.arg.a % 128
    let u := s.getClu p
    if u.oper.settling && s.settleDue p then
      s.setClu p (if u.oper.due ≤ u.tick then { u with oper := u.oper.settled u.tick } else u.passN (u.oper.due - u.tick))
    else s)

/-- MGMT_OP_TRANSITION: cluster `arg.a` to point `arg.b`; while a hot die is held at OP0, it is the point to come back to. -/
def execMgmtOpTransition (s : State) : Out :=
  .next (
    let p := s.arg.a % 128
    let u := s.getClu p
    let t := s.arg.b % 8
    let o := if u.oper.back.isSome then { u.oper with back := some t } else u.oper.ask u.tick t
    s.setClu p { u with oper := o })

/-- RAMP_WRITE: RAMP`arg.b` of cluster `arg.a` takes `arg.w`. -/
def execRampWrite (s : State) : Out :=
  .next (
    let p := s.arg.a % 128
    let n := s.arg.b % 8
    let u := s.getClu p
    let r := wd (Config.rampReset n * 65537)
    s.setClu p { u with ramp := NatMap.set r u.ramp n (s.arg.w &&& 0xFFFFFFFF) })

/-! ### Demand and ceilings (21 R456, R458, R460) -/

/-- What the declared weights of the running launches of a cluster's eight cores come to over eight ticks with no ceiling of the
budget: a free value for each cluster on which a launch runs, of at most 8,191 wu a core (log 2). -/
def State.declared (s : State) (p : Nat) : State × Nat :=
  if (s.holders p []).isEmpty then (s, 0)
  else let d := s.draw; (d.1, d.2.toNat % (8 * 8191 + 1))

/-- Watts that weights in wu over eight ticks draw at an operating point, as R458 counts them. -/
def wattsOf (wu op : Nat) : Nat := wu * Config.opEnergy op * Config.opMHz op

/-- DEMAND_UPDATE: D is 1,520 W and what the declared weights of each cluster would draw at its operating point. -/
def execDemandUpdate (s : State) : Out :=
  .next (
    if s.mgmt.power == .off then s
    else
      let r := (List.range 128).foldl (fun (a : State × Nat) p =>
        let d := a.1.declared p
        (d.1, a.2 + wattsOf d.2 (d.1.getClu p).oper.cur)) (s, 0)
      { r.1 with mgmt := { r.1.mgmt with dem := min 4095 (1520 + r.2 / 160000000) } })

/-- CEIL.WIN of R458 for a budget and an operating point, in wu. -/
def budgetWin (b op : Nat) : Nat :=
  min 8191 ((b - 1520) * 160000000 / (1024 * Config.opEnergy op * Config.opMHz op))

/-- CEIL of a cluster from the next tick on (07 R204): the power ceiling of the last budget update or the die's thermal
ceiling, whichever is less. -/
def ClusterState.ceiled (u : ClusterState) : ClusterState := { u with ceilNew := some (wd (min u.budgetCeil u.theta)) }

/-- CEIL_UPDATE (R458): what B and the operating points have become since the last one takes effect. -/
def execCeilUpdate (s : State) : Out :=
  .next (if s.mgmt.power == .off then s
    else (List.range 128).foldl (fun s p =>
      let u := s.getClu p
      s.setClu p { u with budgetCeil := budgetWin s.mgmt.budget u.oper.cur }.ceiled) s)

/-! ### Cooling (21 R460, R461) -/

/-- TTHR in quarters of a degree: 90 °C. -/
def throttleAt : Int := 360

/-- The valve position for a temperature in quarters of a degree: 64 at 60 °C, 255 at TTHR, in proportion between. -/
def valveFor (t : Int) : Nat := (max 64 (min 255 (64 + (t - 240) * 191 / 120))).toNat

/-- The thermal ceiling after one period. -/
def nextTheta (th : Nat) (t : Int) : Nat :=
  if throttleAt ≤ t then max 64 (th - th / 8) else if t ≤ throttleAt - 12 then min 8191 (th + 1024) else th

/-- A cluster of a die that trips: to OP0, to come back to the point it has reached or was being moved to. -/
def Oper.trip (o : Oper) (tick : Nat) : Oper :=
  if o.back.isSome then o
  else
    let home := match o.mgmt with
      | some t => t
      | none => if o.settling then (if o.byMgmt then o.tgt else o.step) else o.cur
    { o with back := some home }.ask tick 0

/-- A cluster of a die that has cooled. -/
def Oper.recover (o : Oper) (tick : Nat) : Oper :=
  match o.back with
  | some t => { o with back := none }.ask tick t
  | none => o

/-- The clusters of a die changed. -/
def State.modDie (s : State) (d : Nat) (f : ClusterState → ClusterState) : State :=
  (List.range 16).foldl (fun s i => s.setClu (16 * d + i) (f (s.getClu (16 * d + i)))) s

/-- The largest valve position. -/
def pumpFor (m : NatMap Nat) : Nat := m.foldl (fun a x => max a x.2) 0

/-- THERMAL_UPDATE: die `arg.a` at `arg.temp`, in quarters of a degree; with `arg.flag` its sensor does not answer, and the
zone counts as being at TTHR; else the coolant sensors of the zone and of the inlet read `arg.b` and `arg.c` of flow, and
`arg.w` and `arg.x` in quarters of a degree (R459). -/
def execThermalUpdate (s : State) : Out :=
  .next (
    let d := s.arg.a % 8
    let t := if s.arg.flag then throttleAt else s.arg.temp
    if s.mgmt.power == .off then s
    else
      let s := if s.arg.flag then s.logError 63 1 0x0015 false 0 0 none (15 * 2 ^ 52 + d) else s
      let m := s.mgmt
      let m := if s.arg.flag then m else { m with
        flow := NatMap.set 0 (NatMap.set 0 m.flow d s.arg.b) 8 s.arg.c
        coolant := NatMap.set 0 (NatMap.set 0 m.coolant d s.arg.w.toInt) 8 s.arg.x.toInt }
      let valve := NatMap.set 0 m.valve d (valveFor t)
      let was := NatMap.get false m.tripped d
      let trip : Bool := !was && decide (420 ≤ t)
      let cool : Bool := was && decide (t ≤ 380)
      let s : State := { s with mgmt := { m with
        valve := valve, pump := pumpFor valve, temp := NatMap.set 0 m.temp d t
        silent := NatMap.set false m.silent d s.arg.flag
        tripped := NatMap.set false m.tripped d ((was || trip) && !cool) } }
      let s := s.modDie d fun u => { u with hr := throttleAt - t, theta := nextTheta u.theta t }.ceiled
      if trip then
        (s.modDie d fun u => { u with oper := u.oper.trip u.tick }).logError 63 2 0x0012 false 0 0 none (d * 2 ^ 52)
      else if cool then s.modDie d fun u => { u with oper := u.oper.recover u.tick }
      else s)

end Sys2Proof.Machine
end

