-- ==== Sys2Proof/Machine/Fabric.lean ====
section
/-! DEFINITION. The Skelholt links: receiving flits in order, forwarding, serving peers' requests, responses, replay and flow
control; the collective engine; and the exchange of rack power (10 R309, R310, 18 R430, 21 R450 to R457). The layout of a
flit's payload is the model's (log 19). -/

namespace Sys2Proof.Machine

/-! ### Flit headers (21 R451) -/

/-- TAG. -/
def hdrTag (h : BitVec 128) : Nat := bits h 80 16
/-- LEN. -/
def hdrLen (h : BitVec 128) : Nat := bits h 72 8
/-- SEQ. -/
def hdrSeq (h : BitVec 128) : BitVec 12 := h.extractLsb' 60 12
/-- XOFF. -/
def hdrXoff (h : BitVec 128) : BitVec 8 := h.extractLsb' 52 8
/-- SRC. -/
def hdrSrc (h : BitVec 128) : Nat := bits h 40 12
/-- DST. -/
def hdrDst (h : BitVec 128) : Nat := bits h 28 12
/-- TID. -/
def hdrTid (h : BitVec 128) : Nat := bits h 20 8
/-- KIND. -/
def hdrKind (h : BitVec 128) : Nat := bits h 11 5
/-- VL. -/
def hdrVl (h : BitVec 128) : Nat := bits h 8 3

/-- A header with a nonzero reserved field or an unknown KIND. -/
def hdrBad (h : BitVec 128) : Bool := bits h 16 4 != 0 || bits h 0 8 != 0 || decide (8 ≤ hdrKind h)

/-- The bank of a port's hub (18 R424). -/
def portBank (n : Nat) : Nat := 32 + 6 * (n / 12) + 4

/-- The place of an error of a port: its hub's die and its number there (18 R425). -/
def portPlace (n : Nat) : Nat := (8 + n / 12) * 2 ^ 52 + n % 12

/-- The port an event names. -/
def EvArgs.port (x : EvArgs) : Nat := x.a % 48

/-- Word `i` of a payload. -/
def EvArgs.word (x : EvArgs) (i : Nat) : Word := x.data.extractLsb' (64 * i) 64

/-- Word `i` of a payload, or poison. -/
def EvArgs.val (x : EvArgs) (i : Nat) : Option Word := if x.mask.getLsbD i then none else some (x.word i)

/-- Byte `i` of a payload. -/
def EvArgs.byte (x : EvArgs) (i : Nat) : Byte := x.data.extractLsb' (8 * i) 8

/-- The CRC of a flit's header is that of its header below it and its payload (21 R451). -/
def EvArgs.crcOk (x : EvArgs) : Bool :=
  x.hdr.extractLsb' 96 32 == Config.flitCrc (x.hdr.extractLsb' 0 96).toNat
    (x.w.toNat :: x.b :: x.c :: (List.range 30).map fun i => ((x.val i).map BitVec.toNat).getD 0)

/-! ### Receiving (21 R450 to R454) -/

/-- A flit put into its lane's buffer. -/
def State.hold (s : State) (x : EvArgs) : State := s.modPort x.port fun p => p.holding (p.held ++ [x])

/-- A flit of the kind `mine` at port `arg.a`: `arg.hdr` its header. In SEQ order, and with the CRC that it has, it is
taken into its lane's buffer, and what waited for its mask goes; `serve` answers whether it is done with, and otherwise it stays
there, where the same event serves it again. One with a reserved field set or an unknown KIND is discarded and logged. -/
def State.receive (s : State) (mine : BitVec 128 → Bool) (serve : State → EvArgs → State × Bool) : State :=
  let x := s.arg
  let n := x.port
  let p := s.port n
  let lane (y : EvArgs) : Bool := hdrVl y.hdr == hdrVl x.hdr
  let go (s : State) (y : EvArgs) : State :=
    let r := serve s { y with temp := x.temp }
    if r.2 then r.1.modPort n fun p => p.holding (p.held.filter fun z => z.hdr != y.hdr) else r.1
  if !p.up || s.mgmt.power == .off then s
  else match p.held.find? fun y => y.hdr == x.hdr with
  | some y => if mine y.hdr && p.held.find? lane == some y then go s y else s
  | none =>
    if !x.crcOk || hdrSeq x.hdr != p.rxSeq then s.send (.nak n p.rxSeq.toNat)
    else if !mine x.hdr then s
    else
      let s := (s.modPort n fun p => { p with rxSeq := p.rxSeq + 1, xoff := hdrXoff x.hdr }).drainVl0 n
      if hdrBad x.hdr then s.logError (portBank n) 1 0x0014 false 0 0 none (portPlace n)
      else
        let y : EvArgs := { x with temp := 0 }
        if p.held.any lane then s.hold y else go (s.hold y) y

/-- A header of a KIND, well formed. -/
def ofKind (k : Nat) (h : BitVec 128) : Bool := hdrKind h == k && !hdrBad h

/-- A flit for another device: sent on whole by the table of the hub it came to, on the same lane; with no port it is dropped. -/
def State.passOn (s : State) (x : EvArgs) : State × Bool :=
  let h := x.hdr
  match s.routeTo (x.port / 12) (hdrDst h) with
  | none => (s, true)
  | some m =>
    let p := s.port m
    if !p.up then (s, true)
    else if p.xoff.getLsbD (hdrVl h) then (s, false)
    else
      let data := (List.range 30).map fun i => (⟨8 * i, 0xFF, x.val i⟩ : Granule)
      let t := State.sendFlit { s with device := hdrSrc h } m (hdrTag h) (hdrLen h) (hdrDst h) (hdrTid h) (hdrKind h)
        (hdrVl h) x.w.toNat data (x.b, x.c)
      ({ t with device := s.device }, true)

/-- A flit of a tenant: discarded between a reset of the tenant and the port's marker (18 R430), passed on where it is for
another device, else served. -/
def State.addressed (f : State → EvArgs → State × Bool) (s : State) (x : EvArgs) : State × Bool :=
  if s.discard.contains (x.port * 256 + hdrTid x.hdr) then (s, true)
  else if hdrDst x.hdr ≠ s.device then s.passOn x
  else f s x

/-- SKELHOLT_IDLE: only the mask counts. -/
def execSkelholtIdle (s : State) : Out := .next (s.receive (ofKind 0) fun s _ => (s, true))

/-- SKELHOLT_UNKNOWN_KIND (R451). -/
def execSkelholtUnknownKind (s : State) : Out := .next (s.receive hdrBad fun s _ => (s, true))

/-- SKELHOLT_RESET_MARKER (18 R430): the port's flits of the tenant count again. -/
def execSkelholtResetMarker (s : State) : Out :=
  .next (s.receive (ofKind 7) fun s x =>
    ({ s with discard := s.discard.filter fun d => d != x.port * 256 + hdrTid x.hdr }, true))

/-! ### Peers' requests (01 R28, 03 R117, 21 R455) -/

/-- The access check of a peer's request: a tenant that is served here, and bytes of its cellar or its larder. -/
def State.peerMay (s : State) (tid pa n : Nat) : Bool :=
  let off := pa % spaceSize
  (NatMap.get .reset s.tenants tid).en && match pa / spaceSize with
    | 0 => decide (off + n ≤ s.lumberBase)
    | 1 => decide (off + n ≤ Config.larderBytes)
    | _ => false

/-- The port a response to a request leaves by. -/
def State.replyPort (s : State) (x : EvArgs) : Nat := (s.routeTo (x.port / 12) (hdrSrc x.hdr)).getD x.port

/-- A response may be sent: its lane is not stopped. A port that is down loses it. -/
def State.mayReply (s : State) (x : EvArgs) : Bool :=
  let p := s.port (s.replyPort x)
  !p.up || !p.xoff.getLsbD 3

/-- A response: `status` 0 done, 1 refused by the access check, 2 failed on poison. -/
def State.reply (s : State) (x : EvArgs) (len status : Nat) (data : List Granule) : State × Bool :=
  let n := s.replyPort x
  if (s.port n).up then
    (s.sendFlit n (hdrTag x.hdr) len (hdrSrc x.hdr) (hdrTid x.hdr) 4 3 status data, true)
  else (s, true)

/-- A request served once its response can be sent and its access is allowed. -/
def State.serve (s : State) (x : EvArgs) (n : Nat) (f : State → Nat → State × Bool) : State × Bool :=
  if !s.mayReply x then (s, false)
  else if !s.peerMay (hdrTid x.hdr) x.w.toNat n then s.reply x 0 1 []
  else f s x.w.toNat

/-- The granules of a request that are served now: those not served yet, or of them only number `arg.temp` − 1 (05 R149). -/
def EvArgs.partsNow (x : EvArgs) (n : Nat) : List Nat :=
  (List.range n).filter fun i => !x.x.getLsbD i && (x.temp == 0 || x.temp == (i + 1 : Nat))

/-- A granule of a request that has been served, with the value read. -/
def EvArgs.served (x : EvArgs) (i : Nat) (v : Option Word) : EvArgs :=
  { x with
    x := x.x ||| (1#64 <<< i)
    data := (x.data &&& ~~~ (0xFFFFFFFFFFFFFFFF#1920 <<< (64 * i))) ||| ((v.getD 0).setWidth 1920 <<< (64 * i))
    mask := if v.isNone then x.mask ||| (1#128 <<< i) else x.mask }

/-- A request kept with what has been served of it. -/
def State.keepPart (s : State) (x : EvArgs) : State :=
  s.modPort x.port fun p => { p with held := p.held.map fun y => if y.hdr = x.hdr then { x with temp := 0 } else y }

/-- Every granule of a request has been served. -/
def EvArgs.whole (x : EvArgs) (n : Nat) : Bool := (List.range n).all fun i => x.x.getLsbD i

/-- A read: LEN bytes from `arg.w`, each granule at one time. -/
def State.peerRead (s : State) (x : EvArgs) : State × Bool :=
  let n := hdrLen x.hdr
  s.serve x n fun s pa =>
    let gs := granules pa (List.replicate n 0) false
    let now := x.partsNow gs.length
    let at_ (i : Nat) : Nat := pa / 8 * 8 + 8 * i
    let r := now.foldl (fun (a : State × EvArgs) i =>
      let s := (a.1.visit (at_ i) false true).1
      (s, a.2.served i (s.granule (at_ i)))) (s, x)
    let s := if now.length = gs.length then r.1.watchHome pa n false (hdrTid x.hdr) 6 (hdrSrc x.hdr)
      else now.foldl (fun s i => s.watchHome (at_ i) 8 false (hdrTid x.hdr) 6 (hdrSrc x.hdr)) r.1
    if r.2.whole gs.length then
      s.reply x n 0 (((List.range gs.length).zip gs).map fun g => { g.2 with data := r.2.val g.1 })
    else (s.keepPart r.2, false)

/-- SKELHOLT_READ_REQUEST. -/
def execSkelholtReadRequest (s : State) : Out := .next (s.receive (ofKind 1) (State.addressed State.peerRead))

/-- The granules a write flit stores from an address up. -/
def EvArgs.stores (x : EvArgs) (pa : Nat) : List Granule :=
  let l := (List.range (hdrLen x.hdr)).map x.byte
  (granules pa l false).map fun g =>
    if (List.range 8).any fun i => g.mask.getLsbD i && x.mask.getLsbD ((g.addr + i - pa) / 8) then { g with data := none }
    else g

/-- A peer's write of a versioned page waits at its hub for the next stamps, one for each line (03 R84, R97, R117); the answer
goes when they are made. -/
def State.peerQueue (s : State) (x : EvArgs) (pa : Nat) (op : Nat → AutoOp) (lines : List Nat) : State × Bool :=
  if s.cclk = clockEnd ∨ pa / spaceSize ≠ 0 then s.reply x 0 1 []
  else
    let y : EvArgs := { x with temp := 0 }
    ({ s with autoQ := s.autoQ ++ lines.map fun l =>
      ⟨l, op l, .peer y, hdrTid x.hdr, true, x.c / 8 % 2 == 1⟩ }, true)

/-- A write: LEN bytes from `arg.w` up; `arg.c` as `verReq` has it. -/
def State.peerWrite (s : State) (x : EvArgs) : State × Bool :=
  s.serve x (hdrLen x.hdr) fun s pa =>
    let ws := x.stores pa
    if x.c / 4 % 2 = 1 ∧ ws ≠ [] then
      s.peerQueue x pa (fun l => .write (ws.filter fun g => g.addr / 128 == l)) (ws.map fun g => g.addr / 128).eraseDups
    else
      let now := x.partsNow ws.length
      let s := now.foldl (fun s i => match ws[i]? with
        | some g => s.homeWrite (hdrTid x.hdr) 6 (hdrSrc x.hdr) g
        | none => s) s
      let done := now.foldl (fun (y : EvArgs) i => { y with x := y.x ||| (1#64 <<< i) }) x
      if done.whole ws.length then s.reply x 0 0 [] else (s.keepPart done, false)

/-- SKELHOLT_WRITE. -/
def execSkelholtWrite (s : State) : Out := .next (s.receive (ofKind 2) (State.addressed State.peerWrite))

/-- The new value of a peer's RMW (02 R61): `op` 0 to 5 the updates of R303, 6 a swap, 7 a compare and swap, which writes
nothing where the values differ. -/
def peerNew (op ety z old v cmp : Nat) : Option Nat :=
  match op with
  | 6 => some (v % 2 ^ (8 * z))
  | 7 => if old = cmp % 2 ^ (8 * z) then some (v % 2 ^ (8 * z)) else none
  | o => some (rmwElem ety o old (v % 2 ^ (8 * z)))

/-- Element `i` of `z` bytes of a payload, or poison. -/
def EvArgs.elem (x : EvArgs) (z i : Nat) : Option Nat := (x.val (z * i / 8)).map fun w => nbits w.toNat (8 * (z * i % 8)) (8 * z)

/-- A write of a peer's RMW: before it a page with SYSATOM is recalled from the host, and on one without it may come only when
the next act that is not the host's does (05 R166, log 69). -/
def State.peerRmwWrite (s : State) (x : EvArgs) (g : Granule) : State :=
  if g.addr / spaceSize = 0 ∧ x.c / 8 % 2 = 0 ∧ s.arg.flag then
    { s with openRmws := s.openRmws ++ [⟨hdrTid x.hdr, 6, hdrSrc x.hdr, g, true⟩] }
  else s.homeWrite (hdrTid x.hdr) 6 (hdrSrc x.hdr) g

/-- The elements of a request from number `i` on, one after another; the answer is the value read last, or nothing where poison is
met, which stays in the target (02 R78). -/
def State.peerElems (s : State) (x : EvArgs) (pa z cmp : Nat) : Nat → Nat → Nat → State × Option Nat
  | 0, _, got => (s, some got)
  | f + 1, i, _ =>
    let a := pa + z * i
    let s := (s.visit a false true).1
    let s := if a / spaceSize = 0 ∧ x.c / 8 % 2 = 1 then s.recall a (.cxlSnoop a) else s
    match s.granule (a / 8 * 8), x.elem z i with
    | some w, some v =>
      let old := nbits w.toNat (8 * (a % 8)) (8 * z)
      let s := s.watchHome a z false (hdrTid x.hdr) 6 (hdrSrc x.hdr)
      let s := match peerNew (x.b % 8) (x.c % 4) z old v cmp with
        | none => s
        | some v => s.peerRmwWrite x (elemGranule a z v)
      State.peerElems s x pa z cmp f (i + 1) old
    | _, _ =>
      let s := s.writeG ⟨a / 8 * 8, 0, none⟩
      (s.logError (memBank a) 2 0x0008 true 1 a none (memPlace a false), none)

/-- A read-modify-write of LEN bytes at `arg.w`: `arg.b` the operation, `arg.c` the element type, 4 more for a versioned page and 8
more for SYSATOM; the payload holds the operands, of an update one for each element (02 R62), and word 1 what CPCAS compares. The
value read goes back. A request that meets poison fails. -/
def State.peerRmw (s : State) (x : EvArgs) : State × Bool :=
  let ety := x.c % 4
  let upd : Bool := decide (x.b % 8 < 6)
  let z := if upd then etySize ety else if hdrLen x.hdr = 8 then 8 else 4
  let n := if upd then max 1 (hdrLen x.hdr / z) else 1
  let vals := (List.range n).map (x.elem z)
  let cmp := (x.word 1).toNat % 2 ^ (8 * z)
  s.serve x (z * n) fun s pa =>
    if pa % z ≠ 0 then s.reply x 0 1 []
    else if x.c / 4 % 2 = 1 ∧ vals.all Option.isSome then
      let v := (vals.headD none).getD 0
      s.peerQueue x pa (fun l => match x.b % 8 with
        | 6 => .swap pa z v none
        | 7 => .swap pa z v (some cmp)
        | o => .update ety o z (((List.range n).map fun i => (pa + z * i, ((vals.getD i none).getD 0))).filter fun e =>
          e.1 / 128 == l)) ((List.range n).map fun i => (pa + z * i) / 128).eraseDups
    else match s.peerElems x pa z cmp n 0 0 with
      | (s, some old) => s.reply x z 0 [⟨pa / 8 * 8, 0xFF, some (wd old)⟩]
      | (s, none) => s.reply x 0 2 []

/-- SKELHOLT_RMW. -/
def execSkelholtRmw (s : State) : Out := .next (s.receive (ofKind 3) (State.addressed State.peerRmw))

/-! ### Responses (01 R40 to R42, 21 R453, R455) -/

/-- A change to a context with the focus on it, the focus then going back. -/
def State.on (s : State) (id : Nat) (f : State → State) : State := (f (s.focus id)).focus s.cur

/-- A request that is refused, or with `lost` one whose port went down. -/
def State.peerFails (s : State) (who : PeerFor) (lost : Bool) : State :=
  let end_ (k code va : Nat) : State := match s.copyOf k with
    | some c => if lost then s.failCopy k else s.faultCopy c 0x09 (BitVec.ofNat 16 code) va
    | none => s
  let refuse (s : State) (k : Nat) : State :=
    if 65536 ≤ k then s.setQueue (k - 65536) { s.queue (k - 65536) with refused := true } else s
  let op (k : Nat) : CopyOp := match s.copyOf k with | some c => c.op | none => .cpstat
  match who with
  | .load cid id g =>
    if 4096 ≤ cid then s
    else s.on cid fun s => match s.ctx.q.lq.find? fun e => e.id == id with
      | some e => s.loadFault e 0x09 4 g
      | none => s
  | .store cid id =>
    let back (e : StoreEntry) : StoreEntry := if e.id = id then { e with sent := .no } else e
    let s := s.modCtx cid fun c => { c with q := { c.q with sq := c.q.sq.map back, csq := c.q.csq.map back } }
    if 4096 ≤ cid then s
    else s.on cid fun s => match s.ctx.q.sq.find? fun e => e.id == id with
      | some e => match e.kind with
        | .store ws _ => s.storeFaulted e 0x09 5 ((ws.head?.map fun g => g.addr).getD 0)
        | _ => s
      | none => s
  | .copy k off _ => end_ k 4 ((((op k).srcAt off).map fun x => x.1).getD 0)
  | .ack k off _ => refuse (end_ k 5 ((op k).dstAt off).1) k

/-- The elements of a collective's DST that an acknowledged write covers. -/
def Coll.wrote (c : Coll) (off len : Nat) : Coll :=
  { c with done := NatMap.set false c.done (off / max 1 len) true }

/-- A request that is answered. -/
def State.peerDone (s : State) (who : PeerFor) (v : Option Word) : State :=
  match who with
  | .load cid id g =>
    if 4096 ≤ cid then s
    else s.on cid fun s => match s.ctx.q.lq.find? fun e => e.id == id with
      | some e => if e.need.contains g then s.giveGranule e g v else s
      | none => s
  | .store cid id => s.modCtx cid fun c => { c with q := { c.q with
      sq := c.q.sq.filter fun e => e.id != id
      csq := c.q.csq.filter fun e => e.id != id } }
  | .copy k off len => s.modCopy k fun c => c.keep off (off + len) off 0 v
  | .ack k off len =>
    match s.copyOf k with
    | none => s
    | some c =>
      if s.colls.any fun x => x.ident == k && !x.bad then
        { s with colls := s.colls.map fun x => if x.ident = k && !x.bad then x.wrote off len else x }
      else
        let swapped (s : State) : State :=
          let s := s.modCopy k fun x => { x with st := .written }
          match c.land with
          | some l => s.answer c.cid l (.value (v.getD 0) true)
          | none => s
        match c.op with
        | .cpswap _ _ _ => swapped s
        | .cpcas _ _ _ _ => swapped s
        | .cprel _ _ _ => s.modCopy k fun x => { x with st := .written, cursor := 8 }
        | _ => s.modCopy k fun x => x.mark off len

/-- A collective's flit that its next rank does not serve fails the collective (01 R28, 21 R455). -/
def State.collRefused (s : State) (x : EvArgs) : State :=
  (s.colls.filter fun k => !k.bad && k.tid == hdrTid x.hdr && k.next == hdrSrc x.hdr).foldl (fun s k =>
    State.failCopy { s with colls := s.colls.map fun y => if y.ident = k.ident then { y with bad := true } else y } k.ident) s

/-- A response: `arg.b` its status, as `State.reply` has it, payload word 0 its data. One that failed on poison is reported
(02 R78). -/
def State.answered (s : State) (x : EvArgs) : State :=
  if hdrTag x.hdr = collTag then (if x.b = 0 then s else s.collRefused x)
  else match s.peerReqs.find? fun r => r.tag == hdrTag x.hdr with
  | none => s
  | some r =>
    let s : State := { s with peerReqs := s.peerReqs.filter fun q => q.tag != r.tag }
    if x.b = 0 then s.peerDone r.who (x.val 0)
    else match (if x.b = 2 then r.who else .load 4096 0 0) with
      | .ack k off _ => match s.copyOf k with
        | some c => s.poisonPost c (portBank r.port) (c.op.dstAt off).1
        | none => s.peerFails r.who false
      | _ => s.peerFails r.who (x.b == 2)

/-- SKELHOLT_RESPONSE. -/
def execSkelholtResponse (s : State) : Out :=
  .next (s.receive (ofKind 4) (State.addressed fun s x => (s.answered x, true)))

/-! ### Collectives (10 R309, R310) -/

/-- KIND of a descriptor. -/
def Coll.kind (c : Coll) : Nat := bits c.w0 0 4
/-- OP. -/
def Coll.op (c : Coll) : Nat := bits c.w0 4 4
/-- ETYPE, as a format code: 0 FP32, 1 BF16. -/
def Coll.ety (c : Coll) : Nat := bits c.w0 8 2
/-- ROOT. -/
def Coll.root (c : Coll) : Nat := bits c.w0 24 8
/-- Bytes of an element. -/
def Coll.size (c : Coll) : Nat := if c.ety = 1 then 2 else 4
/-- The rank that ends element `e`'s reduction. -/
def Coll.owner (c : Coll) (e : Nat) : Nat := e * c.members / max 1 c.count
/-- The first element that rank `r` ends. -/
def Coll.first (c : Coll) (r : Nat) : Nat := (r * c.count + c.members - 1) / max 1 c.members
/-- How many elements rank `r` ends. -/
def Coll.chunk (c : Coll) (r : Nat) : Nat := c.first (r + 1) - c.first r
/-- The rank where element `e`'s partial sum starts. -/
def Coll.start (c : Coll) (e : Nat) : Nat := (c.owner e + 1) % max 1 c.members
/-- The flits that reach this device in all: hops of elements that start elsewhere, and values distributed. -/
def Coll.due (c : Coll) : Nat :=
  let hops := c.count - c.chunk ((c.rank + c.members - 1) % max 1 c.members)
  match c.kind with
  | 0 => hops + (c.count - c.chunk c.rank)
  | 1 => hops
  | 2 => (c.members - 1) * c.count
  | _ => if c.rank = c.root then 0 else c.count

/-- Every other member's descriptor has been compared and agrees (R310). -/
def Coll.agreed (c : Coll) : Bool := decide (c.members ≤ c.met + 1)

/-- A nonzero reserved field or a reserved code of a descriptor. -/
def collReserved (w : Nat → Word) : Bool :=
  decide (2 ≤ bits (w 0) 8 2) || decide (3 ≤ bits (w 0) 4 4) || decide (4 ≤ bits (w 0) 0 4) || w 5 != 0 || w 6 != 0 || w 7 != 0

/-- One hop: the partial value and this rank's element (R310). -/
def Coll.hop (c : Coll) (h e p x : Nat) : Nat :=
  match c.op with
  | 1 => fminmax c.ety false p x
  | 2 => fminmax c.ety true p x
  | _ =>
    let r := bits c.w0 10 5
    let rd : Rnd :=
      if c.w0.getLsbD 15 then
        ⟨5, r, drawBits (c.key ^^^ wd (h * 2 ^ 56)) (counter 5 (e % 2 ^ 64 + bits c.w0 32 32 * 2 ^ 64)) 0 r⟩
      else rne
    roundFloat c.ety rd 0 (flSum false [decodeFloat c.ety p, decodeFloat c.ety x])

/-- The hub of the engine that serves a command: its die's first near hub. -/
def CopyCmd.collHub (c : CopyCmd) : Nat := Config.nearHub (c.cluster / 16) 0

/-- A collective's flit to the next rank: descriptor word 0, COUNT, element, hop and source rank with a mark for what it is (0 a
value, 1 a failure, 2 a descriptor to compare), value. -/
def State.collSend (s : State) (k : Coll) (hub vl e h rank mark v : Nat) : Sent :=
  match s.routeTo hub k.next with
  | none => .fail
  | some n =>
    let p := s.port n
    if !p.up then .fail
    else if p.xoff.getLsbD vl then .wait
    else
      let ws : List Word := [k.w0, wd k.count, wd e, wd (h + rank * 65536 + mark * 2 ^ 32), wd v]
      let data := ((List.range 5).zip ws).map fun x => (⟨8 * x.1, 0xFF, some x.2⟩ : Granule)
      .sent (s.sendFlit n collTag 40 k.next k.tid 5 vl 0 data)

/-- A collective changed. -/
def State.modColl (s : State) (k : Coll) (f : Coll → Coll) : State :=
  { s with colls := s.colls.map fun x => if x.tid = k.tid ∧ x.w0 = k.w0 ∧ x.ident = k.ident then f x else x }

/-- A collective fails: its command fails, and the next rank is told. -/
def State.collFail (s : State) (k : Coll) (hub : Nat) : State × Bool :=
  let s1 := (s.modColl k fun x => { x with bad := true }).failCopy k.ident
  match s1.collSend k hub 5 0 0 k.rank 1 0 with
  | .sent t => (t, true)
  | .wait => (s, false)
  | .fail => (s1, true)

/-- Poison met by the collective engine (02 R78). -/
def State.collPoison (s : State) (k : Coll) (c : CopyCmd) (off : Nat) : State × Bool :=
  let r := (s.engWrite c (k.dst + off) off (List.replicate k.size 0) true).1
  let b := portBank (12 * c.collHub)
  let r := (r.logError b 2 0x0008 true 0 0 none).copyPost c 5 mchk.toNat b (k.dst + off) c.lid
  r.collFail k c.collHub

/-- This rank's element `e`: read from SRC. Nothing while it is not there. -/
def State.collElem (s : State) (k : Coll) (c : CopyCmd) (e : Nat) : State × Option (Nat × Bool) :=
  let r := s.fetch c.ident ((List.range k.size).map fun i => e * k.size + i)
  match r.2, r.1.copyOf c.ident with
  | .done, some c => let b := c.taken (e * k.size) k.size; (r.1, some ((ofBytes 32 b.1).toNat, b.2))
  | x, _ => (r.1.engEnd c c.cursor x fun s => s, none)

/-- Element `i` of DST written once; the answer says whether it is. -/
def State.collPut (s : State) (k : Coll) (c : CopyCmd) (i v : Nat) : State × Bool :=
  if NatMap.get false k.done i then (s, true)
  else
    let off := i * k.size
    let r := s.engWrite c (k.dst + off) off (valBytes (BitVec.ofNat 64 v) k.size) false
    match r.2 with
    | .done => (r.1.modColl k fun x => x.wrote off k.size, true)
    | x => (r.1.engEnd c c.cursor x fun s => s, false)

/-- A collective that has sent its descriptor, had every flit and dealt with every element of its own is over. -/
def State.collEnd (s : State) (ident : Nat) : State :=
  match s.colls.find? fun x => x.ident == ident && !x.bad with
  | none => s
  | some k =>
    if k.told ∧ k.agreed ∧ k.count ≤ k.sent ∧ k.due ≤ k.got then
      (s.modColl k fun x => { x with bad := true }).modCopy ident fun c => { c with st := .written }
    else s

/-- The outcome of sending on a collective's flit: `f` where it went. -/
def State.collOn (s : State) (k : Coll) (hub : Nat) (r : Sent) (f : State → State × Bool) : State × Bool :=
  match r with
  | .sent t => f t
  | .wait => (s, false)
  | .fail => s.collFail k hub

/-- The command of a collective, where the engine may go on with it. -/
def State.collCmd (s : State) (k : Coll) : Option CopyCmd :=
  match s.copyOf k.ident with
  | some c => if c.st == .collective then some c else none
  | none => none

/-- This rank's descriptor goes to the next one; once all agree, element `e` of its own starts its sum, or is distributed. -/
def State.collOwn (s : State) (k : Coll) (c : CopyCmd) : State × Bool :=
  let e := k.sent
  let next (s : State) : State × Bool := ((s.modColl k fun x => { x with sent := e + 1 }).collEnd k.ident, true)
  let skip : Bool := match k.kind with
    | 0 => k.start e != k.rank
    | 1 => k.start e != k.rank
    | 2 => false
    | _ => k.root != k.rank
  if !k.told then
    s.collOn k c.collHub (s.collSend k c.collHub 4 0 1 k.rank 2 0) fun s =>
      ((s.modColl k fun x => { x with told := true }).collEnd k.ident, true)
  else if !k.agreed || decide (k.count ≤ e) then (s, false)
  else if skip then next s
  else match s.collElem k c e with
    | (s, none) => (s, false)
    | (s, some (x, pois)) =>
      if pois then s.collPoison k c (e * k.size)
      else if k.kind ≤ 1 then s.collOn k c.collHub (s.collSend k c.collHub 4 e 1 k.rank 0 x) next
      else
        let i := if k.kind = 2 then k.rank * k.count + e else e
        let w := s.collPut k c i x
        if w.2 then w.1.collOn k c.collHub (w.1.collSend k c.collHub 5 e 1 k.rank 0 x) next else (w.1, false)

/-- Elements of this rank's own, as far as they go. -/
def State.collRun (ident : Nat) : Nat → State → State
  | 0, s => s
  | n + 1, s =>
    match s.colls.find? fun x => x.ident == ident && !x.bad with
    | none => s
    | some k => match s.collCmd k with
      | none => s
      | some c =>
        let r := s.collOwn k c
        if r.2 then State.collRun ident n r.1 else r.1

/-- CPCOLL's descriptor read and handed over (R309): the communicator names the members; a second command of one COMM and
SEQ fails; a nonzero reserved field fails it everywhere. -/
def State.collStart (s : State) (c : CopyCmd) : State :=
  let r := s.fetch c.ident (List.range 64)
  match r.2, r.1.copyOf c.ident with
  | .done, some c =>
    let s := r.1
    let b := c.taken 0 64
    let w (i : Nat) : Word := ofBytes 64 ((b.1.drop (8 * i)).take 8)
    let t := NatMap.get .reset s.tenants c.tid
    let comm := bits (w 0) 16 8
    let m := t.members comm
    let rank := bits (NatMap.get 0 t.comm (comm * 8192 + 4096)) 16 12
    let z := if bits (w 0) 8 2 = 1 then 2 else 4
    let k : Coll :=
      { ident := c.ident, tid := c.tid, met := 0, told := false, bad := false, w0 := w 0, count := (w 1).toNat, src := (w 2).toNat
        dst := (w 3).toNat, key := w 4, members := m, rank := rank
        next := bits (NatMap.get 0 t.comm (comm * 8192 + (rank + 1) % max 1 m)) 0 12, done := [], sent := 0, got := 0 }
    let twice := s.colls.any fun x => x.tid == c.tid && bits x.w0 16 8 == comm && bits x.w0 32 32 == bits (w 0) 32 32
    if b.2 then
      let p := portBank (12 * c.collHub)
      ((s.logError p 2 0x0008 true 0 0 none).copyPost c 5 mchk.toNat p (match c.op with | .cpcoll a => a | _ => 0) c.lid).failCopy
        c.ident
    else if m < 2 ∨ m ≤ rank ∨ twice then s.refuseCopy c 0 0 0
    else if collReserved w then (State.collFail { s.copyPost c 8 0 0 0 0 with colls := s.colls ++ [k] } k c.collHub).1
    else
      let s : State := { s with colls := s.colls ++ [k] }
      let s := s.modCopy c.ident fun x =>
        { x with st := .collective, op := .cpy k.dst k.src (k.count * z), buf := [], cursor := 0 }
      s.collEnd c.ident
  | x, _ => r.1.engEnd c c.cursor x fun s => s

/-- Part of an engine's work: a CPCOLL's descriptor, elements of its own, or part of a copy. -/
def State.enginePart (s : State) (k off len : Nat) : State :=
  match s.copyOf k with
  | none => s
  | some c => match c.op, c.st with
    | .cpcoll _, .running => s.collStart c
    | _, .collective => State.collRun k (len + 1) s
    | _, _ => s.copyPart k off len

/-- Another member's descriptor differs from this one's in KIND, OP, ETYPE, SEQ or COUNT. -/
def Coll.differs (k : Coll) (x : EvArgs) : Bool :=
  bits k.w0 0 10 != bits (x.word 0) 0 10 || bits k.w0 32 32 != bits (x.word 0) 32 32 || (x.word 1).toNat != k.count

/-- A descriptor that agrees, which goes on round the ring; or, once all have, a hop or a distributed value. -/
def State.collStep (s : State) (k : Coll) (c : CopyCmd) (x : EvArgs) : State × Bool :=
  let e := (x.word 2).toNat
  let h := bits (x.word 3) 0 16
  let rank := bits (x.word 3) 16 12
  let hub := c.collHub
  let done (s : State) : State × Bool := ((s.modColl k fun y => { y with got := y.got + 1 }).collEnd k.ident, true)
  let onward (s : State) (vl h rank v : Nat) : State × Bool :=
    s.collOn k hub (s.collSend k hub vl e h rank 0 v) done
  if (x.word 3).getLsbD 33 then
    let met (s : State) : State × Bool := ((s.modColl k fun y => { y with met := y.met + 1 }).collEnd k.ident, true)
    if h + 1 < k.members then s.collOn k hub (s.collSend k hub 4 0 (h + 1) rank 2 0) met else met s
  else if !k.agreed then (s, false)
  else if hdrVl x.hdr = 4 then
    match s.collElem k c e with
    | (s, none) => (s, false)
    | (s, some (v, pois)) =>
      if pois then s.collPoison k c (e * k.size)
      else
        let p := k.hop h e (x.word 4).toNat v
        if h + 1 < k.members then onward s 4 (h + 1) rank p
        else
          let w := s.collPut k c (if k.kind = 1 then e - k.first k.rank else e) p
          if !w.2 then (w.1, false) else if k.kind = 1 then done w.1 else onward w.1 5 1 k.rank p
  else
    let w := s.collPut k c (if k.kind = 2 then rank * k.count + e else e) (x.word 4).toNat
    if !w.2 then (w.1, false)
    else if h + 1 < k.members then onward w.1 5 (h + 1) rank (x.word 4).toNat
    else done w.1

/-- A collective's flit: compared with this member's descriptor, then a hop or a distribution. It waits for a member that has
not issued its command; of a tenant that is not served it is refused (21 R455). -/
def State.collFlit (s : State) (x : EvArgs) : State × Bool :=
  let tid := hdrTid x.hdr
  let comm := bits (x.word 0) 16 8
  let sq := bits (x.word 0) 32 32
  let hubOf_ (k : Coll) : Nat := match s.copyOf k.ident with | some c => c.collHub | none => x.port / 12
  let here := s.colls.filter fun k => k.tid == tid && bits k.w0 16 8 == comm
  if !(NatMap.get .reset s.tenants tid).en then (if s.mayReply x then s.reply x 0 1 [] else (s, false))
  else match here.find? fun k => bits k.w0 32 32 == sq with
  | none =>
    match here.find? fun k => k.met == 0 && !k.bad with
    | some k => s.collFail k (hubOf_ k)
    | none => (s, false)
  | some k =>
    if k.bad then (s, true)
    else if (x.word 3).getLsbD 32 || k.differs x then s.collFail k (hubOf_ k)
    else match s.copyOf k.ident with
      | none => s.collFail k (hubOf_ k)
      | some c =>
        if c.failed then s.collFail k (hubOf_ k)
        else
          match s.collCmd k with
          | none => (s, false)
          | some c => s.collStep k c x

/-- SKELHOLT_COLLECTIVE. -/
def execSkelholtCollective (s : State) : Out :=
  .next (s.receive (ofKind 5) (State.addressed State.collFlit))

/-! ### Replay and flow control (21 R453, R454) -/

/-- A port goes down: the requests that went by it fail, and the collectives whose next rank lies there. -/
def State.portDown (s : State) (n : Nat) : State :=
  let s := s.logError (portBank n) 2 0x0011 false 0 0 none (portPlace n)
  let s := s.modPort n fun p => { p.holding [] with up := false, offer := 0, hops := 0, vl0 := [] }
  let gone := s.peerReqs.filter fun r => r.port == n
  let s : State := { s with peerReqs := s.peerReqs.filter fun r => r.port != n }
  let s := gone.foldl (fun s r => s.peerFails r.who true) s
  (s.colls.filter fun k => !k.bad).foldl (fun s k => match s.copyOf k.ident with
    | some c => if s.routeTo c.collHub k.next = some n then (s.collFail k c.collHub).1 else s
    | none => s) s

/-- A flit sent again: its header with the mask of now, and the CRC that follows. -/
def withXoff (h : BitVec 128) (m : BitVec 8) (pa : Nat) (req : Nat × Nat) (data : List Granule) : BitVec 128 :=
  sealFlit (((h.extractLsb' 0 96).setWidth 128 &&& ~~~ ((0xFF : BitVec 128) <<< 52)) ||| (m.setWidth 128 <<< 52)) pa req data

/-- A flit retried on die-to-die segment `arg.b` of hub `arg.a` is logged; the die-to-die protocol is not architectural (18
R427). -/
def State.segmentRetry (s : State) : State :=
  let h := s.arg.a % 4
  s.logError (56 + h) 1 0x000B false 0 0 none ((8 + h) * 2 ^ 52 + s.arg.b % 65536)

/-- FLIT_REPLAY: port `arg.a` is told by a NAK to replay from SEQ `arg.b`; flits before it have been received. The ninth NAK
of one flit takes the port down. With `arg.flag` it is a flit of a die-to-die segment. -/
def execFlitReplay (s : State) : Out :=
  .next (
    let n := s.arg.port
    let p := s.port n
    let seq : BitVec 12 := BitVec.ofNat 12 s.arg.b
    let again := p.sent.dropWhile fun f => hdrSeq f.1 != seq
    if s.arg.flag then s.segmentRetry
    else if !p.up ∨ again.isEmpty then s
    else
      let times := if p.nak = seq.toNat then p.replays else 0
      if 8 ≤ times then s.portDown n
      else
        let s := s.logError (portBank n) 1 0x000B false 0 0 none (portPlace n)
        let l := again.map fun f => (withXoff f.1 p.full f.2.1 f.2.2.1 f.2.2.2, f.2)
        let s := s.modPort n fun p => { p with sent := l, nak := seq.toNat, replays := times + 1, mask := p.full }
        l.foldl (fun s f => s.send (.flit n f.1 f.2.1 f.2.2.1 f.2.2.2)) s)

/-- XOFF_IDLE_FLIT: the mask of port `arg.a` has changed and an idle flit carries it. -/
def execXoffIdleFlit (s : State) : Out :=
  .next (
    let n := s.arg.port
    let p := s.port n
    if p.up && p.full != p.mask then s.sendFlit n 0 0 0 0 0 0 0 [] else s)

/-! ### Rack power (21 R456, R457) -/

/-- The surplus S. -/
def Mgmt.surplus (m : Mgmt) : Nat := m.budget - max m.dem m.floor

/-- The deficit. -/
def Mgmt.deficit (m : Mgmt) : Nat := min m.dem 3200 - m.budget

/-- A budget message to a neighbour; its LEN is one the manual does not give (log 2). -/
def State.budgetFlit (s : State) (n tag : Nat) (m : Message) : State :=
  let d := s.draw
  d.1.sendVl0 n 6 tag (d.2.toNat % 241) 0 (some m)

/-- The port with the largest offer heard, the lowest of several, one port left out. -/
def State.bestOffer (s : State) (but : Nat) : Option Nat :=
  (List.range 48).foldl (fun (a : Option Nat) n =>
    if n = but || !(s.port n).up || (s.port n).offer == 0 then a
    else match a with
      | some m => if (s.port m).offer < (s.port n).offer then some n else a
      | none => some n) none

/-- What is offered on a port: the surplus of this device, or the largest offer heard on another port within 3 hops. -/
def State.offerFor (s : State) (n : Nat) : Nat × Nat :=
  (List.range 48).foldl (fun a m =>
    let p := s.port m
    if m ≠ n && p.up && decide (p.hops ≤ 3) && decide (a.1 < p.offer) then (p.offer, p.hops + 1) else a)
    (s.mgmt.surplus, 0)

/-- BUDGET_OFFER_TIMER: an offer to each neighbour, and a take where there is a deficit. -/
def execBudgetOfferTimer (s : State) : Out :=
  .next (
    if s.mgmt.power == .off then s
    else
      let offers := s.upPorts.map fun n => (n, s.offerFor n)
      let s := offers.foldl (fun s x => s.budgetFlit x.1 0 (.offer x.1 x.2.1 x.2.2)) s
      if s.mgmt.deficit = 0 then s
      else match s.bestOffer 48 with
        | some n => s.budgetFlit n 0 (.take n s.mgmt.deficit)
        | none => s)

/-- OFFER: `arg.b` W at `arg.c` hops. -/
def execOffer (s : State) : Out :=
  .next (s.receive (ofKind 6) fun s x => (s.modPort x.port fun p => { p with offer := x.b, hops := x.c }, true))

/-- A tag no relayed take has. -/
def State.relayTag (s : State) (n : Nat) : Nat :=
  ((List.range 65536).find? fun t => t != 0 && s.relays.all fun r => r.1 != t * 64 + n).getD 0

/-- A take of some watts from a port: what this device has over is granted at once, the rest is asked of its own best offer or
goes back unmet. -/
def State.serveTake (s : State) (n tag want : Nat) : State :=
  let g := min want s.mgmt.surplus
  let rest := want - g
  let s1 : State := { s with mgmt := { s.mgmt with budget := s.mgmt.budget - g } }
  match (if rest = 0 then none else s.bestOffer n) with
  | none => s1.budgetFlit n tag (.grant n g rest)
  | some m =>
    let t := s1.relayTag m
    let s2 := (s1.budgetFlit n tag (.grant n g 0)).budgetFlit m t (.take m rest)
    { s2 with relays := s2.relays ++ [(t * 64 + m, tag * 64 + n, rest)] }

/-- TAKE: `arg.b` W. With bit 63 of `arg.x` another take arrives in the same tick; the takes of one tick are served in increasing
port number. -/
def execTake (s : State) : Out :=
  .next (s.receive (ofKind 6) fun s x =>
    let l := s.mgmt.takes ++ [(x.port, hdrTag x.hdr, x.b)]
    if x.x.getLsbD 63 then ({ s with mgmt := { s.mgmt with takes := l } }, true)
    else
      let s : State := { s with mgmt := { s.mgmt with takes := [] } }
      ((sortBy (fun a b : Nat × Nat × Nat => decide (a.1 ≤ b.1)) l).foldl (fun s t => s.serveTake t.1 t.2.1 t.2.2) s, true))

/-- GRANT: `arg.b` W granted and `arg.c` W returned unmet; for a take that was passed on it goes back the way the take came,
else it is added to B. One whose way is down is lost. -/
def execGrant (s : State) : Out :=
  .next (s.receive (ofKind 6) fun s x =>
    let key := hdrTag x.hdr * 64 + x.port
    match s.relays.find? fun r => r.1 == key with
    | some r =>
      let back := r.2.1 % 64
      let left := r.2.2 - (x.b + x.c)
      let relay (y : Nat × Nat × Nat) : Nat × Nat × Nat := if y.1 = key then (key, r.2.1, left) else y
      let s : State := { s with relays := (s.relays.map relay).filter (fun y => y.2.2 != 0) }
      (if (s.port back).up then s.budgetFlit back (r.2.1 / 64) (.grant back x.b x.c) else s, true)
    | none => ({ s with mgmt := { s.mgmt with budget := min 4095 (s.mgmt.budget + x.b) } }, true))

end Sys2Proof.Machine
end

