-- ==== Sys2Proof/Machine/Commit.lean ====
section
/-! DEFINITION. The stamps of the commit clock: the auto-commit groups that the hubs hold ready and the transactions that are
voted, one stamp at a time, and what follows a stamp for each write of a group (03 R83 to R86, R97, R108, R115, R117). -/

namespace Sys2Proof.Machine

/-! ### The group that is ready (03 R84, R97) -/

/-- A write of a line is whole: no more bytes of it are to come from a command that still runs. -/
def State.autoWhole (s : State) (w : AutoWrite) : Bool := match w.src with
  | .copy k _ left => left == 0 || match s.copyOf k with
    | some c => c.stopped
    | none => true
  | _ => true

/-- A waiting write may take a stamp now: it is whole, its line is free, and an answer it asks for can be sent. -/
def State.autoReady (s : State) (w : AutoWrite) : Bool := s.autoWhole w && s.lineFree w.line && match w.src with
  | .peer x => s.mayReply x
  | _ => true

/-- There is room for a record of a line beside those of some other lines, and for its directory entry (03 R108, R115). -/
def State.groupRoom (s : State) (lines : List Nat) (line : Nat) : Bool :=
  let h := hubOf (128 * line)
  let mates := lines.filter fun l => hubOf (128 * l) == h
  let new := mates.filter fun l => (NatMap.find? s.dir l).isNone
  lines.contains line || (s.recordOkReserve h (144 * (mates.length + 1)) &&
    ((NatMap.find? s.dir line).isSome || decide (new.length < s.entriesLeft h)))

/-- The writes of the next auto-commit group, in the order they came: those of one line keep theirs. -/
def State.readyGroup (s : State) : List AutoWrite :=
  (s.autoQ.foldl (fun (a : List AutoWrite × List Nat) w =>
    if a.2.contains w.line || !s.autoWhole w then a
    else if s.autoReady w && s.groupRoom (a.1.map AutoWrite.line).eraseDups w.line then (a.1 ++ [w], a.2)
    else (a.1, a.2 ++ [w.line])) ([], [])).1

/-! ### A write at its stamp -/

/-- What a write of a group ends in: made, with an old value or the number of its elements; or stopped by poison at an address
after some elements. -/
inductive AutoEnd where
  | made (v : Nat)
  | poison (pa n : Nat)
  deriving DecidableEq, Repr

/-- The agent of a write: kind and number, as a watchpoint record names it (18 R422). -/
def State.autoAgent (s : State) (w : AutoWrite) : Nat × Nat := match w.src with
  | .store cid _ => (0, cid)
  | .copy k _ _ => match s.copyOf k with | some c => c.who | none => (1, k)
  | .peer x => (6, hdrSrc x.hdr)
  | .queue q => (3, processor q)

/-- The value of `z` bytes at an address; nothing where its granule is poison. -/
def State.valueAt (s : State) (pa z : Nat) : Option Nat := (s.granule pa).map fun w => nbits w.toNat (8 * (pa % 8)) (8 * z)

/-- The line of an RMW's element recalled from the host where its page has SYSATOM (05 R166). -/
def State.recallFor (s : State) (w : AutoWrite) (pa : Nat) : State := if w.sys then s.recall pa (.cxlSnoop pa) else s

/-- An element of an RMW written at its stamp; on a page without SYSATOM, where `arg.flag` says so, only when the next act that is
not the host's comes (05 R166, log 69). -/
def State.autoElem (s : State) (w : AutoWrite) (g : Granule) : State :=
  let who := s.autoAgent w
  if !w.sys && s.arg.flag then { s with openRmws := s.openRmws ++ [⟨w.tid, who.1, who.2, g, w.alloc⟩] }
  else (s.store g w.alloc).watchHome g.addr 8 true w.tid who.1 who.2

/-- The elements of an update applied one after another, up to one in a poisoned granule. -/
def State.updateAuto (s : State) (w : AutoWrite) (ety op z : Nat) : List (Nat × Nat) → Nat → State × AutoEnd
  | [], n => (s, .made n)
  | (pa, v) :: l, n => match s.valueAt pa z with
    | none => (s, .poison pa n)
    | some old =>
      let who := s.autoAgent w
      let s := (s.recallFor w pa).watchHome pa z false w.tid who.1 who.2
      (s.autoElem w (elemGranule pa z (rmwElem ety op old v))).updateAuto w ety op z l (n + 1)

/-- A write of a group at its stamp (03 R97). -/
def State.applyAuto (s : State) (c : Nat) (w : AutoWrite) : State × AutoEnd :=
  let who := s.autoAgent w
  let h := hubOf (128 * w.line)
  match w.op with
  | .write ws =>
    let s := s.commitLine w.line c ws w.alloc
    (ws.foldl (fun s g => s.watchHome g.addr 8 true w.tid who.1 who.2) s, .made 0)
  | .update ety op z l =>
    let r := ((s.visitLine w.line true w.alloc).supersede w.line c).updateAuto w ety op z l 0
    ((r.1.report (128 * w.line)).updatePress h, r.2)
  | .swap pa z v cmp =>
    let s := s.visitLine w.line (cmp == none) w.alloc
    match s.valueAt pa z with
    | none => (s, .poison pa 0)
    | some old =>
      let s := (s.recallFor w pa).watchHome pa z false w.tid who.1 who.2
      if cmp.any (· != old) then (s, .made old)
      else
        let s := (s.supersede w.line c).autoElem w (elemGranule pa z v)
        ((s.report pa).updatePress h, .made old)

/-- What a stamp means to whoever asked for a write (03 R86): a store stands in its queue until PCLK reaches it; a command is
counted on, answered, or stopped by poison (02 R78); a peer is answered once all its lines are written; a queue's processor
waits for PCLK. -/
def State.ownAuto (s : State) (c : Nat) (w : AutoWrite) (e : AutoEnd) : State :=
  match w.src with
  | .store cid id =>
    let mark (x : StoreEntry) : StoreEntry := if x.id = id then { x with sent := .stamped c } else x
    s.modCtx cid fun x => { x with q := { x.q with sq := x.q.sq.map mark, csq := x.q.csq.map mark } }
  | .copy k off _ =>
    let s := s.modCopy k fun x => { x with stamp := c }
    match s.copyOf k with
    | none => s
    | some x => match w.op, e with
      | .write _, _ => s
      | .update _ _ z _, .made n => s.modCopy k fun x => x.mark off (z * n)
      | .update _ _ z _, .poison pa n =>
        State.portPoison (s.modCopy k fun x => x.mark off (z * n)) x pa (x.op.dstAt (off + z * n)).1
      | .swap _ _ _ _, .made old => s.rmwDone x off 0 old false
      | .swap _ _ _ _, .poison pa _ => s.portPoison x pa x.op.dstBase
  | .peer x =>
    match e with
    | .poison pa _ =>
      let s := s.writeG ⟨pa / 8 * 8, 0, none⟩
      ((s.logError (memBank pa) 2 0x0008 true 1 pa none (memPlace pa false)).reply x 0 2 []).1
    | .made v =>
      if s.autoQ.any fun y => y.src == .peer x then s
      else match w.op with
        | .write _ => (s.reply x 0 0 []).1
        | .update _ _ z l => (s.reply x z 0 [⟨((l.head?.map Prod.fst).getD 0) / 8 * 8, 0xFF, some (wd v)⟩]).1
        | .swap pa z _ _ => (s.reply x z 0 [⟨pa / 8 * 8, 0xFF, some (wd v)⟩]).1
  | .queue q => s.setQueue q { s.queue q with outStamp := c }

/-- The next stamp goes to a group. -/
def State.stampGroup (s : State) (g : List AutoWrite) : State :=
  let s := s.takeStamp
  let c := s.cclk
  (g.foldl (fun s w =>
    let r := State.applyAuto { s with autoQ := s.autoQ.erase w } c w
    r.1.ownAuto c w r.2) s).advance

/-! ### The end of the clock (03 R85) -/

/-- A write of a command that waits when the clock has ended: the command stops at its cursor and posts the fault. The result of a
collective, which is not made again, goes on waiting until the service ends it. -/
def State.refuseOwn (s : State) (w : AutoWrite) (k off : Nat) : State :=
  match s.copyOf k with
  | none => { s with autoQ := s.autoQ.erase w }
  | some c => match c.st with
    | .faulted _ _ _ => s
    | _ =>
      let va := (c.op.dstAt off).1
      let whole : Bool := match c.op with | .cpy _ _ _ => c.st == .written | _ => false
      if whole || s.colls.any fun x => x.ident == k && !x.bad then
        (s.modCopy k fun x => { x with st := .faulted 0x09 5 va }).copyPost c 2 0x09 5 va (s.progressOf c)
      else s.faultCopy c 0x09 5 va

/-- A write that waits when the clock has ended is refused as a late fault with code WRITE. -/
def State.refuseAuto (s0 : State) (w : AutoWrite) : State :=
  let s : State := { s0 with autoQ := s0.autoQ.erase w }
  match w.src with
  | .store cid id =>
    let back (x : StoreEntry) : StoreEntry := if x.id = id then { x with sent := .no } else x
    s.modCtx cid fun x => { x with q := { x.q with sq := x.q.sq.map back, csq := x.q.csq.map back } }
  | .copy k off _ => s0.refuseOwn w k off
  | .peer x => (State.reply { s with autoQ := s.autoQ.filter fun y => y.src != .peer x } x 0 1 []).1
  | .queue q => s.setQueue q { s.queue q with refused := true }

/-! ### STAMP_ISSUE -/

/-- STAMP_ISSUE (03 R84): the next stamp goes to the transactions that are voted, of several to the lowest TXID (log 32), and to
the group that is ready, in alternation. `arg.flag` as `State.autoElem` has it. -/
def execStampIssue (s : State) : Out :=
  .next (
    let t := (s.txs.map Prod.fst).find? s.voted
    if s.halted then s
    else if s.cclk = clockEnd then
      let s := s.autoQ.foldl (fun s w => if s.autoQ.contains w then s.refuseAuto w else s) s
      match t with
      | some t => s.stampTx t
      | none => s
    else
      let g := s.readyGroup
      match t with
      | some t => if g.isEmpty || s.turn then State.stampTx { s with turn := false } t else State.stampGroup { s with turn := true } g
      | none => if g.isEmpty then s else State.stampGroup { s with turn := true } g)

end Sys2Proof.Machine
end

