-- ==== Sys2Proof/Machine/Dispatch.lean ====
section
/-! DEFINITION. The meaning of every instruction and event row, one arm each. -/

namespace Sys2Proof.Machine

open Sys2Proof

/-- What one row does to the state. -/
def exec (i : Instr) (s : State) : Host.Outcome State Fault Refusal :=
  match i with
  | .br f => Sys2Proof.Machine.execBr f s
  | .br64 f => Sys2Proof.Machine.execBr64 f s
  | .bri r => Sys2Proof.Machine.execBri r s
  | .call f => Sys2Proof.Machine.execCall f s
  | .call64 f => Sys2Proof.Machine.execCall64 f s
  | .calli r => Sys2Proof.Machine.execCalli r s
  | .loop b ii n vr sr => Sys2Proof.Machine.execLoop b ii n vr sr s
  | .loopn b ii n0 n1 n2 n3 vr sr => Sys2Proof.Machine.execLoopn b ii n0 n1 n2 n3 vr sr s
  | .wait f c => Sys2Proof.Machine.execWait f c s
  | .yield d => Sys2Proof.Machine.execYield d s
  | .fmtset r => Sys2Proof.Machine.execFmtset r s
  | .fmtset64 im => Sys2Proof.Machine.execFmtset64 im s
  | .balset a => Sys2Proof.Machine.execBalset a s
  | .walset a => Sys2Proof.Machine.execWalset a s
  | .opset t => Sys2Proof.Machine.execOpset t s
  | .gjoin g c k => Sys2Proof.Machine.execGjoin g c k s
  | .qmark c => Sys2Proof.Machine.execQmark c s
  | .fence c => Sys2Proof.Machine.execFence c s
  | .fencep d => Sys2Proof.Machine.execFencep d s
  | .txbegin a => Sys2Proof.Machine.execTxbegin a s
  | .txcommit d k a => Sys2Proof.Machine.execTxcommit d k a s
  | .snapnew d k a => Sys2Proof.Machine.execSnapnew d k a s
  | .snapset r k a => Sys2Proof.Machine.execSnapset r k a s
  | .snapdrop r k a => Sys2Proof.Machine.execSnapdrop r k a s
  | .trap c => Sys2Proof.Machine.execTrap c s
  | .sysc f v => Sys2Proof.Machine.execSysc f v s
  | .crd d r => Sys2Proof.Machine.execCrd d r s
  | .cwr a r => Sys2Proof.Machine.execCwr a r s
  | .add d a b => Sys2Proof.Machine.execAdd d a b s
  | .sub d a b => Sys2Proof.Machine.execSub d a b s
  | .mul d a b => Sys2Proof.Machine.execMul d a b s
  | .mulh d a b => Sys2Proof.Machine.execMulh d a b s
  | .mulhn d a b => Sys2Proof.Machine.execMulhn d a b s
  | .div d a b => Sys2Proof.Machine.execDiv d a b s
  | .divn d a b => Sys2Proof.Machine.execDivn d a b s
  | .rem d a b => Sys2Proof.Machine.execRem d a b s
  | .remn d a b => Sys2Proof.Machine.execRemn d a b s
  | .and d a b => Sys2Proof.Machine.execAnd d a b s
  | .or d a b => Sys2Proof.Machine.execOr d a b s
  | .xor d a b => Sys2Proof.Machine.execXor d a b s
  | .andn d a b => Sys2Proof.Machine.execAndn d a b s
  | .shl d a b => Sys2Proof.Machine.execShl d a b s
  | .shr d a b => Sys2Proof.Machine.execShr d a b s
  | .sar d a b => Sys2Proof.Machine.execSar d a b s
  | .rol d a b => Sys2Proof.Machine.execRol d a b s
  | .min d a b => Sys2Proof.Machine.execMin d a b s
  | .max d a b => Sys2Proof.Machine.execMax d a b s
  | .minn d a b => Sys2Proof.Machine.execMinn d a b s
  | .maxn d a b => Sys2Proof.Machine.execMaxn d a b s
  | .addi d a im => Sys2Proof.Machine.execAddi d a im s
  | .addi64 d a im => Sys2Proof.Machine.execAddi64 d a im s
  | .clz d a => Sys2Proof.Machine.execClz d a s
  | .ctz d a => Sys2Proof.Machine.execCtz d a s
  | .popc d a => Sys2Proof.Machine.execPopc d a s
  | .mov d a => Sys2Proof.Machine.execMov d a s
  | .bfx d a o l => Sys2Proof.Machine.execBfx d a o l s
  | .bfxs d a o l => Sys2Proof.Machine.execBfxs d a o l s
  | .bfi d a o l => Sys2Proof.Machine.execBfi d a o l s
  | .sel d a b k => Sys2Proof.Machine.execSel d a b k s
  | .movi d im => Sys2Proof.Machine.execMovi d im s
  | .movi64 d im => Sys2Proof.Machine.execMovi64 d im s
  | .addx d a b x => Sys2Proof.Machine.execAddx d a b x s
  | .addx64 d a b h x => Sys2Proof.Machine.execAddx64 d a b h x s
  | .cmp c a b k => Sys2Proof.Machine.execCmp c a b k s
  | .cmp64 c a b k => Sys2Proof.Machine.execCmp64 c a b k s
  | .cmpi c a k im => Sys2Proof.Machine.execCmpi c a k im s
  | .cmpi64 c a k im => Sys2Proof.Machine.execCmpi64 c a k im s
  | .fadd d a b => Sys2Proof.Machine.execFadd d a b s
  | .fsub d a b => Sys2Proof.Machine.execFsub d a b s
  | .fmul d a b => Sys2Proof.Machine.execFmul d a b s
  | .ffma d a b c => Sys2Proof.Machine.execFfma d a b c s
  | .fmin d a b => Sys2Proof.Machine.execFmin d a b s
  | .fmax d a b => Sys2Proof.Machine.execFmax d a b s
  | .fcmp c a b k => Sys2Proof.Machine.execFcmp c a b k s
  | .fcmp64 c a b k => Sys2Proof.Machine.execFcmp64 c a b k s
  | .cvtf d a sf df => Sys2Proof.Machine.execCvtf d a sf df s
  | .aird d j f => Sys2Proof.Machine.execAird d j f s
  | .aiwr r j f => Sys2Proof.Machine.execAiwr r j f s
  | .rng d => Sys2Proof.Machine.execRng d s
  | .ld d b im => Sys2Proof.Machine.execLd d b im s
  | .ld64 d b im z x => Sys2Proof.Machine.execLd64 d b im z x s
  | .ldacq d b im => Sys2Proof.Machine.execLdacq d b im s
  | .ldacq64 d b im z x c => Sys2Proof.Machine.execLdacq64 d b im z x c s
  | .ldl d b z x a im => Sys2Proof.Machine.execLdl d b z x a im s
  | .ldacqLong d b z x c a im => Sys2Proof.Machine.execLdacqLong d b z x c a im s
  | .vld d b im => Sys2Proof.Machine.execVld d b im s
  | .vld64 d b im g => Sys2Proof.Machine.execVld64 d b im g s
  | .vldl d b g a im => Sys2Proof.Machine.execVldl d b g a im s
  | .vldb d b im => Sys2Proof.Machine.execVldb d b im s
  | .vldb64 d b im g => Sys2Proof.Machine.execVldb64 d b im g s
  | .vldx d x b g c m => Sys2Proof.Machine.execVldx d x b g c m s
  | .tld d b g t r x w => Sys2Proof.Machine.execTld d b g t r x w s
  | .pref c b im => Sys2Proof.Machine.execPref c b im s
  | .st d b im => Sys2Proof.Machine.execSt d b im s
  | .st64 d b im z => Sys2Proof.Machine.execSt64 d b im z s
  | .strel d b im => Sys2Proof.Machine.execStrel d b im s
  | .strel64 d b im z c => Sys2Proof.Machine.execStrel64 d b im z c s
  | .vst d b im => Sys2Proof.Machine.execVst d b im s
  | .vst64 d b im g => Sys2Proof.Machine.execVst64 d b im g s
  | .vstm d b im => Sys2Proof.Machine.execVstm d b im s
  | .vstm64 d b im m l => Sys2Proof.Machine.execVstm64 d b im m l s
  | .vstx d x b g c m => Sys2Proof.Machine.execVstx d x b g c m s
  | .tst d b g t r => Sys2Proof.Machine.execTst d b g t r s
  | .ald b k n t l => Sys2Proof.Machine.execAld b k n t l s
  | .alds b k n t l => Sys2Proof.Machine.execAlds b k n t l s
  | .azero t => Sys2Proof.Machine.execAzero t s
  | .amm b r k o n c w l y z => Sys2Proof.Machine.execAmm b r k o n c w l y z s
  | .amms b r k o n c w l y z => Sys2Proof.Machine.execAmms b r k o n c w l y z s
  | .aeval b r o n c => Sys2Proof.Machine.execAeval b r o n c s
  | .abwd b r z q o c => Sys2Proof.Machine.execAbwd b r z q o c s
  | .agrad b r z q c => Sys2Proof.Machine.execAgrad b r z q c s
  | .aupd a r => Sys2Proof.Machine.execAupd a r s
  | .amode m b c g => Sys2Proof.Machine.execAmode m b c g s
  | .aknot b d => Sys2Proof.Machine.execAknot b d s
  | .aextend l u => Sys2Proof.Machine.execAextend l u s
  | .aout d g c o m e x => Sys2Proof.Machine.execAout d g c o m e x s
  | .aouts b q c o m e x => Sys2Proof.Machine.execAouts b q c o m e x s
  | .aoog d c => Sys2Proof.Machine.execAoog d c s
  | .agout d g o q c => Sys2Proof.Machine.execAgout d g o q c s
  | .acout d g o q l => Sys2Proof.Machine.execAcout d g o q l s
  | .scale a c f n => Sys2Proof.Machine.execScale a c f n s
  | .scx a f n => Sys2Proof.Machine.execScx a f n s
  | .sckey a => Sys2Proof.Machine.execSckey a s
  | .cpy b a r n => Sys2Proof.Machine.execCpy b a r n s
  | .cpys b a r => Sys2Proof.Machine.execCpys b a r s
  | .cpacc b a r n o t => Sys2Proof.Machine.execCpacc b a r n o t s
  | .cpswap d b v w a => Sys2Proof.Machine.execCpswap d b v w a s
  | .cpcas d b v c w a => Sys2Proof.Machine.execCpcas d b v c w a s
  | .cpsend a => Sys2Proof.Machine.execCpsend a s
  | .cpfill b a r n => Sys2Proof.Machine.execCpfill b a r n s
  | .cpbinit b a => Sys2Proof.Machine.execCpbinit b a s
  | .cparr b r im c => Sys2Proof.Machine.execCparr b r im c s
  | .cpcoll b => Sys2Proof.Machine.execCpcoll b s
  | .cprel a b c => Sys2Proof.Machine.execCprel a b c s
  | .cpstat d a => Sys2Proof.Machine.execCpstat d a s
  | .pand d a b g k => Sys2Proof.Machine.execPand d a b g k s
  | .por d a b g k => Sys2Proof.Machine.execPor d a b g k s
  | .pxor d a b g k => Sys2Proof.Machine.execPxor d a b g k s
  | .pandn d a b g k => Sys2Proof.Machine.execPandn d a b g k s
  | .pnot d a g k => Sys2Proof.Machine.execPnot d a g k s
  | .pmov d a g k => Sys2Proof.Machine.execPmov d a g k s
  | .psetk k a g c => Sys2Proof.Machine.execPsetk k a g c s
  | .pcnt d a g => Sys2Proof.Machine.execPcnt d a g s
  | .pfirst d a g => Sys2Proof.Machine.execPfirst d a g s
  | .pktom d a g => Sys2Proof.Machine.execPktom d a g s
  | .vadd d a b et => Sys2Proof.Machine.execVadd d a b et s
  | .vadd64 d a b e4 => Sys2Proof.Machine.execVadd64 d a b e4 s
  | .vsub d a b et => Sys2Proof.Machine.execVsub d a b et s
  | .vsub64 d a b e4 => Sys2Proof.Machine.execVsub64 d a b e4 s
  | .vmul d a b et => Sys2Proof.Machine.execVmul d a b et s
  | .vmul64 d a b e4 => Sys2Proof.Machine.execVmul64 d a b e4 s
  | .vfma d a b c e4 => Sys2Proof.Machine.execVfma d a b c e4 s
  | .vfms d a b c e4 => Sys2Proof.Machine.execVfms d a b c e4 s
  | .vmin d a b et => Sys2Proof.Machine.execVmin d a b et s
  | .vmin64 d a b e4 => Sys2Proof.Machine.execVmin64 d a b e4 s
  | .vmax d a b et => Sys2Proof.Machine.execVmax d a b et s
  | .vmax64 d a b e4 => Sys2Proof.Machine.execVmax64 d a b e4 s
  | .vabs d a et => Sys2Proof.Machine.execVabs d a et s
  | .vabs64 d a e4 => Sys2Proof.Machine.execVabs64 d a e4 s
  | .vneg d a et => Sys2Proof.Machine.execVneg d a et s
  | .vneg64 d a e4 => Sys2Proof.Machine.execVneg64 d a e4 s
  | .vrcp d a et => Sys2Proof.Machine.execVrcp d a et s
  | .vrcp64 d a e4 => Sys2Proof.Machine.execVrcp64 d a e4 s
  | .vrsq d a et => Sys2Proof.Machine.execVrsq d a et s
  | .vrsq64 d a e4 => Sys2Proof.Machine.execVrsq64 d a e4 s
  | .vsqrt d a et => Sys2Proof.Machine.execVsqrt d a et s
  | .vsqrt64 d a e4 => Sys2Proof.Machine.execVsqrt64 d a e4 s
  | .vexp2 d a et => Sys2Proof.Machine.execVexp2 d a et s
  | .vexp264 d a e4 => Sys2Proof.Machine.execVexp264 d a e4 s
  | .vlog2 d a et => Sys2Proof.Machine.execVlog2 d a et s
  | .vlog264 d a e4 => Sys2Proof.Machine.execVlog264 d a e4 s
  | .vsin d a et => Sys2Proof.Machine.execVsin d a et s
  | .vsin64 d a e4 => Sys2Proof.Machine.execVsin64 d a e4 s
  | .vcos d a et => Sys2Proof.Machine.execVcos d a et s
  | .vcos64 d a e4 => Sys2Proof.Machine.execVcos64 d a e4 s
  | .vtanh d a et => Sys2Proof.Machine.execVtanh d a et s
  | .vtanh64 d a e4 => Sys2Proof.Machine.execVtanh64 d a e4 s
  | .vsigm d a et => Sys2Proof.Machine.execVsigm d a et s
  | .vsigm64 d a e4 => Sys2Proof.Machine.execVsigm64 d a e4 s
  | .vsilu d a et => Sys2Proof.Machine.execVsilu d a et s
  | .vsilu64 d a e4 => Sys2Proof.Machine.execVsilu64 d a e4 s
  | .vand d a b => Sys2Proof.Machine.execVand d a b s
  | .vand64 d a b => Sys2Proof.Machine.execVand64 d a b s
  | .vor d a b => Sys2Proof.Machine.execVor d a b s
  | .vor64 d a b => Sys2Proof.Machine.execVor64 d a b s
  | .vxor d a b => Sys2Proof.Machine.execVxor d a b s
  | .vxor64 d a b => Sys2Proof.Machine.execVxor64 d a b s
  | .vnot d a => Sys2Proof.Machine.execVnot d a s
  | .vnot64 d a => Sys2Proof.Machine.execVnot64 d a s
  | .vshl d a b et => Sys2Proof.Machine.execVshl d a b et s
  | .vshl64 d a b e4 => Sys2Proof.Machine.execVshl64 d a b e4 s
  | .vshr d a b et => Sys2Proof.Machine.execVshr d a b et s
  | .vshr64 d a b e4 => Sys2Proof.Machine.execVshr64 d a b e4 s
  | .vsar d a b et => Sys2Proof.Machine.execVsar d a b et s
  | .vsar64 d a b e4 => Sys2Proof.Machine.execVsar64 d a b e4 s
  | .viadd d a b et => Sys2Proof.Machine.execViadd d a b et s
  | .viadd64 d a b e4 => Sys2Proof.Machine.execViadd64 d a b e4 s
  | .visub d a b et => Sys2Proof.Machine.execVisub d a b et s
  | .visub64 d a b e4 => Sys2Proof.Machine.execVisub64 d a b e4 s
  | .vimul d a b et => Sys2Proof.Machine.execVimul d a b et s
  | .vimul64 d a b e4 => Sys2Proof.Machine.execVimul64 d a b e4 s
  | .vimin d a b et => Sys2Proof.Machine.execVimin d a b et s
  | .vimin64 d a b e4 => Sys2Proof.Machine.execVimin64 d a b e4 s
  | .vimax d a b et => Sys2Proof.Machine.execVimax d a b et s
  | .vimax64 d a b e4 => Sys2Proof.Machine.execVimax64 d a b e4 s
  | .vcmp m a b c => Sys2Proof.Machine.execVcmp m a b c s
  | .vcmp64 m c a b e4 p => Sys2Proof.Machine.execVcmp64 m c a b e4 p s
  | .vicmp m a b c => Sys2Proof.Machine.execVicmp m a b c s
  | .vicmp64 m c a b e4 p => Sys2Proof.Machine.execVicmp64 m c a b e4 p s
  | .vsel d a b m => Sys2Proof.Machine.execVsel d a b m s
  | .vmov d a => Sys2Proof.Machine.execVmov d a s
  | .vmov64 d a => Sys2Proof.Machine.execVmov64 d a s
  | .vsplat d r w => Sys2Proof.Machine.execVsplat d r w s
  | .vsplat64 d im w => Sys2Proof.Machine.execVsplat64 d im w s
  | .viota d r t w g => Sys2Proof.Machine.execViota d r t w g s
  | .vperm d a b et => Sys2Proof.Machine.execVperm d a b et s
  | .vperm64 d a b e4 => Sys2Proof.Machine.execVperm64 d a b e4 s
  | .vxcp d a g => Sys2Proof.Machine.execVxcp d a g s
  | .vxcp64 d a g => Sys2Proof.Machine.execVxcp64 d a g s
  | .vredadd d a k et => Sys2Proof.Machine.execVredadd d a k et s
  | .vredadd64 d a e4 w => Sys2Proof.Machine.execVredadd64 d a e4 w s
  | .vredmax d a k et => Sys2Proof.Machine.execVredmax d a k et s
  | .vredmax64 d a e4 => Sys2Proof.Machine.execVredmax64 d a e4 s
  | .vredmin d a k et => Sys2Proof.Machine.execVredmin d a k et s
  | .vredmin64 d a e4 => Sys2Proof.Machine.execVredmin64 d a e4 s
  | .vscan d a k et => Sys2Proof.Machine.execVscan d a k et s
  | .vscan64 d a e4 x => Sys2Proof.Machine.execVscan64 d a e4 x s
  | .vcompress d a r z => Sys2Proof.Machine.execVcompress d a r z s
  | .vcompress64 d a r z e4 => Sys2Proof.Machine.execVcompress64 d a r z e4 s
  | .vexpand d a r z => Sys2Proof.Machine.execVexpand d a r z s
  | .vexpand64 d a r z e4 => Sys2Proof.Machine.execVexpand64 d a r z e4 s
  | .vcvt d a sf df p m x => Sys2Proof.Machine.execVcvt d a sf df p m x s
  | .vrnd d a sf tf r => Sys2Proof.Machine.execVrnd d a sf tf r s
  | .vrng d k => Sys2Proof.Machine.execVrng d k s
  | .vpack d a b sf => Sys2Proof.Machine.execVpack d a b sf s
  | .vunpk d a sf df p r => Sys2Proof.Machine.execVunpk d a sf df p r s
  | .vspcomp d a x m sf => Sys2Proof.Machine.execVspcomp d a x m sf s
  | .vblkscl d a b o df p => Sys2Proof.Machine.execVblkscl d a b o df p s
  | .nop => Sys2Proof.Machine.execNop s
  | .ret => Sys2Proof.Machine.execRet s
  | .lexit => Sys2Proof.Machine.execLexit s
  | .retire => Sys2Proof.Machine.execRetire s
  | .gleave => Sys2Proof.Machine.execGleave s
  | .vjoin => Sys2Proof.Machine.execVjoin s
  | .txabort => Sys2Proof.Machine.execTxabort s
  | .eret => Sys2Proof.Machine.execEret s
  | .bkpt => Sys2Proof.Machine.execBkpt s
  | .aswap => Sys2Proof.Machine.execAswap s
  | .arefine => Sys2Proof.Machine.execArefine s
  | .oneTickBundle => Sys2Proof.Machine.execOneTickBundle s
  | .heldWordRepeat => Sys2Proof.Machine.execHeldWordRepeat s
  | .loopTick => Sys2Proof.Machine.execLoopTick s
  | .eccFreezeEnd => Sys2Proof.Machine.execEccFreezeEnd s
  | .residueFreezeEnd => Sys2Proof.Machine.execResidueFreezeEnd s
  | .patrolScrub => Sys2Proof.Machine.execPatrolScrub s
  | .fatalError => Sys2Proof.Machine.execFatalError s
  | .resultWriteback => Sys2Proof.Machine.execResultWriteback s
  | .arrivalTickLanding => Sys2Proof.Machine.execArrivalTickLanding s
  | .lateDataLands => Sys2Proof.Machine.execLateDataLands s
  | .longLoadFault => Sys2Proof.Machine.execLongLoadFault s
  | .storeFault => Sys2Proof.Machine.execStoreFault s
  | .barrierOverrun => Sys2Proof.Machine.execBarrierOverrun s
  | .trapEntry => Sys2Proof.Machine.execTrapEntry s
  | .eretResume => Sys2Proof.Machine.execEretResume s
  | .captureEntryWrite => Sys2Proof.Machine.execCaptureEntryWrite s
  | .settingTakesEffect => Sys2Proof.Machine.execSettingTakesEffect s
  | .fmtTakesEffect => Sys2Proof.Machine.execFmtTakesEffect s
  | .vjoinRelease => Sys2Proof.Machine.execVjoinRelease s
  | .fenceRelease => Sys2Proof.Machine.execFenceRelease s
  | .fencepRelease => Sys2Proof.Machine.execFencepRelease s
  | .qmarkRelease => Sys2Proof.Machine.execQmarkRelease s
  | .storePerform => Sys2Proof.Machine.execStorePerform s
  | .strelPerform => Sys2Proof.Machine.execStrelPerform s
  | .icmInterlockRelease => Sys2Proof.Machine.execIcmInterlockRelease s
  | .arbitrationGrant => Sys2Proof.Machine.execArbitrationGrant s
  | .pageWalkComplete => Sys2Proof.Machine.execPageWalkComplete s
  | .queueRoom => Sys2Proof.Machine.execQueueRoom s
  | .waitComplete => Sys2Proof.Machine.execWaitComplete s
  | .dormancyEntry => Sys2Proof.Machine.execDormancyEntry s
  | .retireComplete => Sys2Proof.Machine.execRetireComplete s
  | .contextWake => Sys2Proof.Machine.execContextWake s
  | .ceilingStretch => Sys2Proof.Machine.execCeilingStretch s
  | .slewWithhold => Sys2Proof.Machine.execSlewWithhold s
  | .slewFiller => Sys2Proof.Machine.execSlewFiller s
  | .groupTick => Sys2Proof.Machine.execGroupTick s
  | .lockstepStart => Sys2Proof.Machine.execLockstepStart s
  | .opsetSettleStep => Sys2Proof.Machine.execOpsetSettleStep s
  | .mgmtOpTransition => Sys2Proof.Machine.execMgmtOpTransition s
  | .copyAccept => Sys2Proof.Machine.execCopyAccept s
  | .copyComplete => Sys2Proof.Machine.execCopyComplete s
  | .cprelWrite => Sys2Proof.Machine.execCprelWrite s
  | .cpsendDelivery => Sys2Proof.Machine.execCpsendDelivery s
  | .homeUnitRmw => Sys2Proof.Machine.execHomeUnitRmw s
  | .cparrApply => Sys2Proof.Machine.execCparrApply s
  | .stampIssue => Sys2Proof.Machine.execStampIssue s
  | .txPrepare => Sys2Proof.Machine.execTxPrepare s
  | .prepareResume => Sys2Proof.Machine.execPrepareResume s
  | .txPublish => Sys2Proof.Machine.execTxPublish s
  | .collectorReclaim => Sys2Proof.Machine.execCollectorReclaim s
  | .preempt => Sys2Proof.Machine.execPreempt s
  | .contextResume => Sys2Proof.Machine.execContextResume s
  | .tailWordWrite => Sys2Proof.Machine.execTailWordWrite s
  | .tailRead => Sys2Proof.Machine.execTailRead s
  | .dispatch => Sys2Proof.Machine.execDispatch s
  | .launchPlacement => Sys2Proof.Machine.execLaunchPlacement s
  | .commandCompletion => Sys2Proof.Machine.execCommandCompletion s
  | .waitvPoll => Sys2Proof.Machine.execWaitvPoll s
  | .updjobCursor => Sys2Proof.Machine.execUpdjobCursor s
  | .selftestCluster => Sys2Proof.Machine.execSelftestCluster s
  | .launch => Sys2Proof.Machine.execLaunch s
  | .waitv => Sys2Proof.Machine.execWaitv s
  | .signalWrite => Sys2Proof.Machine.execSignalWrite s
  | .signalAdd => Sys2Proof.Machine.execSignalAdd s
  | .copy => Sys2Proof.Machine.execCopy s
  | .fill => Sys2Proof.Machine.execFill s
  | .snapNewCmd => Sys2Proof.Machine.execSnapNewCmd s
  | .snapDropCmd => Sys2Proof.Machine.execSnapDropCmd s
  | .updjob => Sys2Proof.Machine.execUpdjob s
  | .selftest => Sys2Proof.Machine.execSelftest s
  | .ctxswap => Sys2Proof.Machine.execCtxswap s
  | .qfence => Sys2Proof.Machine.execQfence s
  | .tinvPage => Sys2Proof.Machine.execTinvPage s
  | .tinvTid => Sys2Proof.Machine.execTinvTid s
  | .tinvAllTenants => Sys2Proof.Machine.execTinvAllTenants s
  | .tinvComplete => Sys2Proof.Machine.execTinvComplete s
  | .tenantEnable => Sys2Proof.Machine.execTenantEnable s
  | .queueEnable => Sys2Proof.Machine.execQueueEnable s
  | .fqservResume => Sys2Proof.Machine.execFqservResume s
  | .fqservEnd => Sys2Proof.Machine.execFqservEnd s
  | .fqRegisterWrite => Sys2Proof.Machine.execFqRegisterWrite s
  | .flgset => Sys2Proof.Machine.execFlgset s
  | .startctlCold => Sys2Proof.Machine.execStartctlCold s
  | .startctlWarm => Sys2Proof.Machine.execStartctlWarm s
  | .mcaRecordClear => Sys2Proof.Machine.execMcaRecordClear s
  | .mcaEcntRead => Sys2Proof.Machine.execMcaEcntRead s
  | .colfreedRead => Sys2Proof.Machine.execColfreedRead s
  | .cmdataAccess => Sys2Proof.Machine.execCmdataAccess s
  | .dbgctlWrite => Sys2Proof.Machine.execDbgctlWrite s
  | .registerWrite => Sys2Proof.Machine.execRegisterWrite s
  | .memoryDump => Sys2Proof.Machine.execMemoryDump s
  | .debugLevelRequest => Sys2Proof.Machine.execDebugLevelRequest s
  | .functionLevelReset => Sys2Proof.Machine.execFunctionLevelReset s
  | .hostMemAccess => Sys2Proof.Machine.execHostMemAccess s
  | .configRequest => Sys2Proof.Machine.execConfigRequest s
  | .getVersion => Sys2Proof.Machine.execGetVersion s
  | .getCapabilities => Sys2Proof.Machine.execGetCapabilities s
  | .negotiateAlgorithms => Sys2Proof.Machine.execNegotiateAlgorithms s
  | .getDigests => Sys2Proof.Machine.execGetDigests s
  | .getCertificate => Sys2Proof.Machine.execGetCertificate s
  | .challenge => Sys2Proof.Machine.execChallenge s
  | .getMeasurements => Sys2Proof.Machine.execGetMeasurements s
  | .keyExchange => Sys2Proof.Machine.execKeyExchange s
  | .finish => Sys2Proof.Machine.execFinish s
  | .spdmUnsupportedRequest => Sys2Proof.Machine.execSpdmUnsupportedRequest s
  | .skelholtIdle => Sys2Proof.Machine.execSkelholtIdle s
  | .skelholtReadRequest => Sys2Proof.Machine.execSkelholtReadRequest s
  | .skelholtWrite => Sys2Proof.Machine.execSkelholtWrite s
  | .skelholtRmw => Sys2Proof.Machine.execSkelholtRmw s
  | .skelholtResponse => Sys2Proof.Machine.execSkelholtResponse s
  | .skelholtCollective => Sys2Proof.Machine.execSkelholtCollective s
  | .skelholtResetMarker => Sys2Proof.Machine.execSkelholtResetMarker s
  | .flitReplay => Sys2Proof.Machine.execFlitReplay s
  | .xoffIdleFlit => Sys2Proof.Machine.execXoffIdleFlit s
  | .budgetOfferTimer => Sys2Proof.Machine.execBudgetOfferTimer s
  | .offer => Sys2Proof.Machine.execOffer s
  | .take => Sys2Proof.Machine.execTake s
  | .grant => Sys2Proof.Machine.execGrant s
  | .demandUpdate => Sys2Proof.Machine.execDemandUpdate s
  | .ceilUpdate => Sys2Proof.Machine.execCeilUpdate s
  | .thermalUpdate => Sys2Proof.Machine.execThermalUpdate s
  | .coldStart => Sys2Proof.Machine.execColdStart s
  | .warmStart => Sys2Proof.Machine.execWarmStart s
  | .moduleLeavesOff => Sys2Proof.Machine.execModuleLeavesOff s
  | .powerClusterGate => Sys2Proof.Machine.execPowerClusterGate s
  | .powerIdle => Sys2Proof.Machine.execPowerIdle s
  | .powerOff => Sys2Proof.Machine.execPowerOff s
  | .ungateOnDemand => Sys2Proof.Machine.execUngateOnDemand s
  | .vfSave => Sys2Proof.Machine.execVfSave s
  | .vfRestore => Sys2Proof.Machine.execVfRestore s
  | .clusterUngate => Sys2Proof.Machine.execClusterUngate s
  | .lossOfAllPower => Sys2Proof.Machine.execLossOfAllPower s
  | .skelholtUnknownKind => Sys2Proof.Machine.execSkelholtUnknownKind s
  | .cxlHostResponse => Sys2Proof.Machine.execCxlHostResponse s
  | .rampWrite => Sys2Proof.Machine.execRampWrite s

end Sys2Proof.Machine
end

