-- ==== Sys2Proof/Machine/Step.lean ====
section
/-! DEFINITION. One step: the act the agenda names, or, where it names none, the first act of a fixed order that would change
something (log 1). A bundle issues by running its words one after another over the state its commitment leaves. -/

namespace Sys2Proof.Machine

open Sys2Proof

/-! ### Running an issued bundle -/

/-- The words of a bundle in the order they take effect, until one raises a trap before the bundle. -/
def runWords : List (Slot × Option Nat × Bool) → State → Out
  | [], s => .next s
  | x :: xs, s =>
    match if (s.enter x).deadRead x then .next (s.enter x).trapMchk else exec x.1.op (s.enter x) with
    | .next t => if t.issue.trap.isSome then .next t else runWords xs (t.measure x)
    | .fault r => .fault r
    | .refused r => .refused r

/-- A state with the errors in storage that a bundle met while it ran found in it (02 R76, R77). -/
def State.foundBy (before ran : State) : State :=
  if before.upsets = ran.upsets then before
  else (before.upsets.filter fun u => !ran.upsets.contains u).foldl State.meetUpset { before with upsets := ran.upsets }

/-- What stands once the words have run: the bundle's end; or, where a slot faulted or the fetch met a watchpoint (18 R411
item 7), the trap before the bundle, taken in the state from which it was committed, the errors it met being found. -/
def State.settled (before ran : State) (addr : Nat) : State :=
  match ran.issue.trap with
  | some e => (before.foundBy ran).undone addr e
  | none => match ran.issue.watch with
    | some w => (before.foundBy ran).undone addr (watchCause, BitVec.ofNat 16 (w + 16 * 31), 0)
    | none => ran.finish before.inh

/-- A bundle that has been committed is run. -/
def State.runIssued (s committed : State) : Out :=
  if committed.issue.live then
    match runWords committed.issue.todo committed with
    | .next t => .next (s.prep.1.settled t committed.issue.addr)
    | .fault r => .fault r
    | .refused r => .refused r
  else .next committed

/-- The host's accesses to memory. -/
def hostAct : Act → Bool
  | .event .hostMemAccess _ => true
  | .event .cxlHostResponse _ => true
  | _ => false

/-- What an act does; see `State.runAct`. A row that is a word runs in bundles only. RMWs that have read and not written write before any act but the host's
(05 R166, log 69). -/
def State.doAct (s0 : State) (a : Act) : Out :=
  let s := if s0.openRmws.isEmpty || hostAct a then s0 else s0.closeRmws
  match a with
  | .event i x =>
    if Instr.isWord i then .next s
    else match exec i { s with arg := x } with
      | .next t => s.runIssued { t with arg := s.arg }
      | o => o
  | .issue => s.runIssued s.front
  | .performLoad n g => .next (s.performLoad n g)
  | .copyPart k off len => .next (s.enginePart k off len)
  | .copyFetch k off len => .next (s.fetchRun k off len)
  | .prefetch n => .next (s.prefetch n)
  | .stream a n => .next (s.streamAhead a n)
  | .focus n => .next (s.focus (n % 4096))
  | .nameDevice n => .next { s with device := n % 4096 }

/-- One act; the records of what it met at the memory-side watchpoints are posted after it (18 R422). -/
def State.runAct (s : State) (a : Act) : Out := match s.doAct a with
  | .next t => .next t.postWatched
  | o => o

/-! ### The default order -/

/-- An event with its first argument. -/
def ev (i : Instr) (a : Nat := 0) (b : Nat := 0) : Act := .event i { EvArgs.reset with a := a, b := b }

/-- An act would change something. -/
def State.changes (s : State) (a : Act) : Bool := match s.runAct a with
  | .next t => t != s
  | _ => true

/-- The acts of the focused context's queues, buffers and freezes. -/
def State.contextActs (s : State) : List Act :=
  let q := s.ctx.q
  [ev .fmtTakesEffect, ev .settingTakesEffect] ++ (List.range q.capture.length).map (fun n => ev .captureEntryWrite n) ++
    q.lq.map (fun e => Act.performLoad e.id none) ++ q.landing.map (fun l => ev .arrivalTickLanding l.id) ++
    [ev .lateDataLands, ev .longLoadFault, ev .storeFault, ev .barrierOverrun] ++
    q.sq.flatMap (fun e => [ev .storePerform e.id, ev .strelPerform e.id]) ++
    (if q.aouts.isEmpty then [] else [ev .storePerform 0 2]) ++
    [ev .qmarkRelease, ev .vjoinRelease, ev .fenceRelease, ev .fencepRelease, ev .trapEntry, ev .eretResume,
     ev .eccFreezeEnd, ev .residueFreezeEnd, ev .icmInterlockRelease, ev .dormancyEntry, ev .retireComplete,
     ev .copyAccept (2 * s.clusterId + s.coreId % 8 / 4)]

/-- The acts of the copy engines. -/
def State.copyActs (s : State) : List Act := s.copies.flatMap fun c =>
  [ev .copyComplete c.ident, ev .cparrApply c.ident, ev .cprelWrite c.ident, ev .homeUnitRmw c.ident,
   .copyPart c.ident c.cursor (c.op.total - c.cursor), ev .cpsendDelivery c.ident]

/-- The acts by which stores on their way reach their homes and requests that lost a bank are made again. -/
def State.pathActs (s : State) : List Act :=
  let again (p : Nat) (x : Nat × Nat) : Act :=
    let r := x.1 % 16
    let kind : BitVec 128 := if 8 ≤ r then 0 else 1#128 <<< (16 + x.1 / 16 * 16 + r)
    .event .arbitrationGrant { EvArgs.reset with a := p, b := x.2, mask := (1#128 <<< r) ||| kind }
  (if s.flights.isEmpty then [] else [ev .storePerform 0 1]) ++ ((s.clusterId, s.clu) :: s.clus).flatMap fun u =>
    u.2.denied.map (again u.1)

/-- The acts of versioned memory. -/
def State.versionActs (s : State) : List Act :=
  ev .stampIssue :: s.txs.flatMap fun x => (List.range 4).flatMap fun h =>
    [ev .txPrepare x.1 h, ev .prepareResume x.1 h, ev .txPublish x.1 h]

/-- What reports of writes have made due: tail words and the words that WAITVs wait for are read again (16 R389, R402). -/
def State.dueActs (s : State) : List Act :=
  let again (c : Command) : Bool := c.started && !c.done && c.prog == 0 && c.op == 2
  s.queues.flatMap fun x => (if x.2.poll && x.2.en then [ev .tailRead x.1] else []) ++
    if x.2.cmds.any again then [ev .waitv x.1] else []

/-- The acts that make contexts go on. -/
def State.wakeActs (s : State) : List Act :=
  [ev .lockstepStart (s.tidOf s.ctx) (bits s.ctx.c.gid 0 8), ev .groupTick (s.tidOf s.ctx) (bits s.ctx.c.gid 0 8)] ++
    s.contextIds.flatMap fun n => match (s.getCtx n).st with
      | .waiting _ _ _ => [ev .waitComplete n]
      | .dormant => [ev .contextWake n]
      | .blocked => [ev .queueRoom n]
      | _ => []

/-- The acts of the command processors and the registers. -/
def State.firmwareActs (s : State) : List Act :=
  (s.queues.flatMap fun x => [ev .commandCompletion x.1 4096, ev .tailRead x.1]) ++ [ev .dispatch, ev .preempt] ++
    (s.queues.flatMap fun x => [Instr.launch, .updjob, .waitv, .signalWrite, .signalAdd, .copy, .fill, .snapNewCmd,
      .snapDropCmd, .qfence, .selftest, .ctxswap, .updjobCursor].map fun i => ev i x.1) ++
    (s.queues.flatMap fun x => x.2.cmds.flatMap fun c => c.untested.map fun p => ev .selftestCluster x.1 p) ++
    (s.tenants.map fun x => ev .tinvComplete x.1) ++
    (if s.mgmt.starting then [ev (if s.mgmt.goWarm then .warmStart else .coldStart)] else []) ++ [ev .ungateOnDemand]

/-- How soon a context that may issue is to do so: by its cluster's ticks, a core that has issued in the present tick coming
last in it. -/
def State.turnKey (s : State) : Nat := 2 * s.clu.tick + if s.issuedNow then 1 else 0

/-- The contexts that may issue: those whose cluster's tick comes first before the others, on one tick by cores. -/
def State.issuers (s : State) : List Nat :=
  let l := (s.contextIds.map s.focus).filter fun f => f.mayIssue
  (sortBy (fun a b : Nat × Nat => decide (a.1 ≤ b.1)) (l.map fun f => (f.turnKey * 1024 + f.coreId, f.cur))).map Prod.snd

/-- A context other than the focused one with something to do of its own. -/
def State.otherBusy (s : State) : Option Nat :=
  s.contextIds.find? fun n => n != s.cur && (s.focus n).contextActs.any (s.focus n).changes

/-- The acts that let a tick pass where the focused context is held by a power limit or a settling point. -/
def State.tickActs (s : State) : List Act := [ev .ceilingStretch, ev .slewWithhold, ev .opsetSettleStep s.clusterId]

/-- The acts of no single context: the next bundle of the first context that can go on, or the passing of a tick. -/
def State.issueAct (s : State) : Option Act :=
  s.issuers.findSome? fun n =>
    let f := s.focus n
    ((if f.changes .issue then some .issue else f.tickActs.find? f.changes)).map fun a => if n = s.cur then a else .focus n

/-- What passes where nothing else is to be done: filler until the clusters' steps are at rest, and the waiting polls. -/
def State.idleActs (s : State) : List Act :=
  (((s.clusterId, s.clu) :: s.clus).filter fun u => u.2.slew.p != 0 || u.2.slew.prev != 0).map (fun u => ev .slewFiller u.1) ++
    s.queues.map fun x => ev .waitvPoll x.1

/-- The act taken where the agenda names none. -/
def State.defaultAct (s : State) : Option Act :=
  match s.contextActs.find? s.changes with
  | some a => some a
  | none => match (s.copyActs ++ s.pathActs ++ s.versionActs ++ s.wakeActs ++ s.dueActs).find? s.changes with
    | some a => some a
    | none => match s.otherBusy with
      | some n => some (.focus n)
      | none => match s.issueAct with
        | some a => some a
        | none => (s.firmwareActs ++ s.tickActs ++ s.idleActs).find? s.changes

/-- One step. With nothing to do the package waits for its surroundings. -/
def step (s : State) : Host.Outcome State Fault Refusal :=
  match s.agenda with
  | a :: l => State.runAct { s with agenda := l } a
  | [] => match s.defaultAct with
    | some a => s.runAct a
    | none => .next s

/-! ### Placing one instruction -/

/-- Where `withFetchWord` puts its bundle: a page of tenant 0 and the cellar page under it. -/
def fetchPage : Nat := 0x10000

/-- The leaf of that page: valid, readable, writable, executable, accessed. -/
def fetchLeaf : Word := 0x100DF

/-- The launch that the placed instruction runs in: one context of one core, tenant 0. -/
def fetchLaunch : Launch :=
  { queue := 0, seqv := 0, words := [1, 0, 0, 0, 0, 0, 0, 0, 0x1000, 0], tid := 0, pri := 0, map := [0], st := .running
    halt := none, order := 0, images := [], arrays := [], arrivals := [], fail := 0 }

/-- The bundle that holds the words of one instruction, in the first position whose class has them (log 13), and one-tick
bundles after it. -/
def fetchCode (nbits w : Nat) : List W32 :=
  let ws := tableWords nbits w
  let ws := if (ws.headD 0).extractLsb' 0 2 == 1#2 && ws.length == 1 then ws ++ [0#32] else ws
  let at_ := (tableSlots.find? fun p => (decodeWords p ws).isSome).getD 0
  let bw := match decodeTableWord nbits w with
    | some i => instrWeight i / 4
    | none => 0
  headerWord bw false false (1#17 <<< at_.toNat) :: ws ++ List.replicate 130 3#32

/-- `s` with one instruction as the next bundle of the focused context, which issues it in the next step (log 1): the bundle's
bytes, the translation of its page, a launch that the context belongs to and whose array its core has, and nothing in the
context that would come first. -/
def State.withFetchWord (s : State) (nbits w : Nat) : State :=
  let s : State := s.setBytes fetchPage ((fetchCode nbits w).flatMap fun c => valBytes c 4)
  let p := s.clusterId
  { s with
    agenda := .issue :: s.agenda
    halted := false
    issue := .reset
    memPoison := s.memPoison.filter fun x => !(decide (fetchPage / 8 ≤ x.1) && decide (x.1 < fetchPage / 8 + 128))
    launches := NatMap.put s.launches 1 { fetchLaunch with map := [p] }
    upsets := [], openRmws := [], flights := []
    core := { s.core with ecc := false, array := { s.core.array with owner := some s.cur } }
    clu := { s.clu with
      gated := false, denied := []
      oper := if s.clu.oper.cur = 0 then ClusterState.reset.oper else s.clu.oper
      tlb := tlbInstall s.clu.tlb ⟨0, fetchPage, 65536, fetchLeaf⟩ }
    tenants := NatMap.set .reset s.tenants 0 { NatMap.get .reset s.tenants 0 with en := true }
    ctx := { s.ctx with
      st := .issuing, pc := fetchPage, checked := false, seq := none, holds := [], freezes := [], pend := [], icms := []
      settings := [], fetched := [], streamed := [], stop := false, q := .reset, c := { s.ctx.c with lid := 1 } } }

end Sys2Proof.Machine
end

