-- ==== Sys2Proof/Safety.lean ====
section
/-! DEFINITION. What a sound state is, in the terms the statements use: memory and the line directory stand in their one
canonical form, and the device's number fits its twelve bits. -/

namespace Sys2Proof.Machine

/-- The keys of a table rise strictly. -/
def risingFrom {α : Type} : NatMap α → Bool
  | [] => true
  | [_] => true
  | a :: b :: t => decide (a.1 < b.1) && risingFrom (b :: t)

/-- The canonical form of memory: addresses strictly rising, and no byte listed that equals what an unlisted one reads as. -/
def Memory.wf (m : List Host.Cell) : Bool := risingFrom m && m.all fun c => c.2 != 0

/-- A sound state: memory in canonical form, each line once in the directory in rising order (03 R81), and a device number of
twelve bits (21 R450). -/
def State.sound (s : State) : Bool := Memory.wf s.mem && risingFrom s.dir && decide (s.device < 4096)

/-- A step is safe when it neither faults nor is refused and leaves a sound state. -/
def Safe (s : State) : Prop := ∃ t, step s = .next t ∧ t.sound = true

end Sys2Proof.Machine
end

