-- ==== Sys2Proof/Certificates/Slice0/Obligations.lean ====
section
/-! DEFINITION. The statements about the Nurus NX8 that the provers are asked to prove: what each instruction and event row
does, what it leaves unchanged, and the rules of the whole machine. -/

/-! ### How the statements speak

`onlyOwes`, `clean` and the other names here only abbreviate; they hold no meaning of an instruction. -/

namespace Sys2Proof.Claims

open Sys2Proof Sys2Proof.Machine

/-- The word at hand has a true predicate and the scalar registers it consumes hold no poison. -/
def clean (s : State) (regs : List Nat) : Prop := s.pred = true ∧ ∀ r ∈ regs, s.spois r = false

/-- `s` with one more result owed, and nothing else changed: no register, no flag, no memory. -/
def owing (s : State) (r : Result) : State :=
  { s with ctx := { s.ctx with q := { s.ctx.q with results := s.ctx.q.results ++ [r] } } }

/-- `s` owing a value without poison to scalar register `d` after `lat` bundles. -/
def owingS (s : State) (d : BitVec 6) (v : Word) (lat : Nat) : State :=
  owing s ⟨.sreg (s.sname d.toNat), v.setWidth 512, 1, 0, lat, false⟩

/-- `s` owing a truth value to predicate `k` after one bundle. -/
def owingK (s : State) (k : Nat) (b exact : Bool) : State := owing s ⟨.kreg k, if b then 1 else 0, 1, 0, 1, exact⟩

/-- `s` owing a mask to register `n` of group `g` after one bundle, all lanes. -/
def owingM (s : State) (g n : Nat) (v : BitVec 16) (exact : Bool) : State :=
  owing s ⟨.mreg g n, v.setWidth 512, 0xFFFF, 0, 1, exact⟩

/-- `t` is `s` but for the results owed and for what the bundle at hand measures and draws; no trap has been taken. -/
def onlyOwes (s t : State) : Prop :=
  { t with issue := s.issue, ctx := { t.ctx with q := { t.ctx.q with results := s.ctx.q.results } } } = s ∧
    t.issue.trap = s.issue.trap ∧ t.issue.target = s.issue.target

/-- `s` with other queues in the focused context, and nothing else changed. -/
def withQ (s : State) (q : Queues) : State := { s with ctx := { s.ctx with q := q } }

/-- `s` with other control registers in the focused context, and nothing else changed. -/
def withC (s : State) (c : CRegs) : State := { s with ctx := { s.ctx with c := c } }

/-- `s` with one more freeze of the focused context. -/
def frozenBy (s : State) (f : Freeze) : State :=
  { s with ctx := { s.ctx with freezes := if s.ctx.freezes.contains f then s.ctx.freezes else s.ctx.freezes ++ [f] } }

/-- `s` with the branch of the bundle at hand going to `a`. -/
def branching (s : State) (a : Word) : State := { s with issue := { s.issue with target := some a.toNat } }

/-- `s` with one more control-register write waiting, for `n` bundles. -/
def setting (s : State) (r : Nat) (v : Word) (n : Nat) : State :=
  { s with ctx := { s.ctx with settings := s.ctx.settings ++ [⟨r, v, n⟩] } }

/-- An integer limited to the range of i64. -/
def clampI64 (v : Int) : Word := BitVec.ofInt 64 (max (-(2 ^ 63)) (min (2 ^ 63 - 1) v))

/-- The conditions of R224 by code. -/
def holds (c : Nat) (x y : Word) : Bool :=
  match c with
  | 0 => x == y
  | 1 => x != y
  | 2 => decide (x.toInt < y.toInt)
  | 3 => decide (x.toInt ≤ y.toInt)
  | 4 => decide (x.toInt > y.toInt)
  | 5 => decide (x.toInt ≥ y.toInt)
  | 6 => decide (x.toNat < y.toNat)
  | 7 => decide (x.toNat ≤ y.toNat)
  | 8 => decide (x.toNat > y.toNat)
  | _ => decide (x.toNat ≥ y.toNat)

/-- An immediate that IMX may extend: 26 high bits where it is present, else the sign (08 R225). -/
def immediate (s : State) {w : Nat} (f : BitVec w) : Int :=
  match s.env.pfx.imx with
  | some h => (h ++ f).toInt
  | none => f.toInt

/-- A memory word's one range `a` to `a + n − 1` raises nothing: aligned to `al`, present where it must be or is local,
canonical, and watched by no watchpoint. -/
def accessOk (s : State) (a n al : Nat) (mustLocal : Bool) (kind : Nat) : Prop :=
  a % al = 0 ∧ (if mustLocal ∨ a < 0x1000000 then s.localBad a n = false else a + n ≤ 2 ^ 52) ∧ s.watches kind a n = none

/-- A load-queue entry as its word leaves it. -/
def loadEntry (s : State) (kind : LKind) (swz : Bool) (need : List Nat) (fmt : LFmt) (left : Nat) (acq : Option Nat) :
    LoadEntry :=
  { id := s.ctx.q.nextId, kind := kind, swz := swz, need := need, got := [], fmt := fmt, left := left, snp := s.verSource
    acq := acq, bundle := s.issue.addr, handler := s.inh, hold := false }

/-- `s` with a load that counts its own latency in the load queue. -/
def loading (s : State) (swz : Bool) (need : List Nat) (fmt : LFmt) (left : Nat) (acq : Option Nat) : State :=
  withQ s { s.ctx.q with
    nextId := s.ctx.q.nextId + 1
    lq := s.ctx.q.lq ++ [loadEntry s .fixed swz need fmt left acq] }

/-- A landing-buffer entry as its word leaves it. -/
def landingEntry (s : State) (kind : LandKind) (ad : Nat) : Landing :=
  { id := s.ctx.q.nextId, kind := kind, left := ad, answer := .waiting, bundle := s.issue.addr, handler := s.inh
    eager := false }

/-- `s` with a long load in the load queue and the landing buffer under one number. -/
def landing (s : State) (need : List Nat) (fmt : LFmt) (ad : Nat) (acq : Option Nat) : State :=
  withQ s { s.ctx.q with
    nextId := s.ctx.q.nextId + 1
    lq := s.ctx.q.lq ++ [loadEntry s (.land s.ctx.q.nextId) false need fmt ad acq]
    landing := s.ctx.q.landing ++ [landingEntry s (.load fmt) ad] }

/-- A store-queue entry as its word leaves it. -/
def storeEntry (s : State) (kind : SKind) (loc swz : Bool) : StoreEntry :=
  { id := s.ctx.q.nextId, kind := kind, local_ := loc, swz := swz, tx := s.txOfWrite, bundle := s.issue.addr
    handler := s.inh, sent := .no }

/-- `s` with one more store-queue entry. -/
def storing (s : State) (kind : SKind) (loc swz : Bool) : State :=
  withQ s { s.ctx.q with
    nextId := s.ctx.q.nextId + 1
    sq := s.ctx.q.sq ++ [storeEntry s kind loc swz] }

/-- `s` with an entry in the store queue and one in the landing buffer under one number. -/
def asking (s : State) (kind : LandKind) (ad : Nat) (k : SKind) : State :=
  withQ s { s.ctx.q with
    nextId := s.ctx.q.nextId + 1
    landing := s.ctx.q.landing ++ [landingEntry s kind ad]
    sq := s.ctx.q.sq ++ [storeEntry s k false false] }

/-- The scope of a word: its SCO prefix, else the field (08 R225). -/
def scope (s : State) (field : Nat) : Nat := match s.env.pfx.sco with | some c => c.toNat | none => field

/-- The address of a memory word: base and displacement modulo 2^64 (10 R280). -/
def address (base : Word) (disp : Int) : Nat := (base + BitVec.ofInt 64 disp).toNat

/-- What taking a trap leaves (09 R261, 07 R197): the trap registers, the program at TVEC with T required there, the results in
flight in the capture buffer, no hold and no loop; a loop that had run to its end has advanced VWB. Registers and clusters are
as before. -/
def trapped (s t : State) (cause : BitVec 8) (detail : BitVec 16) (tbund tnext : Nat) : Prop :=
  t.ctx.c = { s.boundary.ctx.c with
      tcause := BitVec.ofNat 64 (detail.toNat * 2 ^ 32 + 2 ^ 31 + cause.toNat)
      tbund := BitVec.ofNat 64 (tbund % 2 ^ 52 / 4 * 4)
      tnext := BitVec.ofNat 64 (tnext % 2 ^ 52 / 4 * 4) } ∧
    t.ctx.pc = s.ctx.c.tvec.toNat % 2 ^ 52 / 4 * 4 ∧ t.ctx.checked = true ∧ t.ctx.holds = [] ∧ t.ctx.seq = none ∧
    t.ctx.q = { s.ctx.q with results := [], capture := s.ctx.q.capture ++ s.ctx.q.results } ∧
    t.ctx.regs = s.ctx.regs ∧ t.ctx.st = s.ctx.st ∧ t.ctx.settings = s.ctx.settings ∧ t.clu = s.clu ∧ t.ctxs = s.ctxs

/-- The granule of a naturally aligned write of the low `n` bytes of `v`, little-endian; poison has no data. -/
def cell (a n : Nat) (v : Word) (poison : Bool) : Granule :=
  ⟨a / 8 * 8, BitVec.ofNat 8 ((2 ^ n - 1) * 2 ^ (a % 8)),
   if poison then none else some (BitVec.ofNat 64 (v.toNat % 2 ^ (8 * n) * 2 ^ (8 * (a % 8))))⟩

/-- The granules of the enabled lanes of register `r` of group `g` written to a line, lowest first. -/
def line (s : State) (a g r : Nat) (lanes : BitVec 16) : List Granule :=
  ((List.range 8).filter fun k => lanes.getLsbD (2 * k) || lanes.getLsbD (2 * k + 1)).map fun k =>
    let lo := lanes.getLsbD (2 * k)
    let hi := lanes.getLsbD (2 * k + 1)
    ⟨a + 8 * k, BitVec.ofNat 8 ((if lo then 15 else 0) + (if hi then 240 else 0)),
     if (lo && s.vpois g r (2 * k)) || (hi && s.vpois g r (2 * k + 1)) then none
     else some (s.vlane g r (2 * k + 1) ++ s.vlane g r (2 * k))⟩

/-- The lines of the groups a GM field names: the `j`-th named group has the line at `a + 64 × j` (10 R288). -/
def lines (a r : Nat) (gm : BitVec 8) : List (Nat × Nat × Nat) :=
  (((List.range 8).filter fun g => gm.getLsbD g).zipIdx).map fun x => (a + 64 * x.2, x.1, r)

/-- The lines of a tile: row `i` of the `j`-th named group at `a + 64 × (i × stride + j)`, register `r + i` (10 R292). -/
def tile (a r rows stride : Nat) (gm : BitVec 8) : List (Nat × Nat × Nat) :=
  (List.range rows).flatMap fun i =>
    (((List.range 8).filter fun g => gm.getLsbD g).zipIdx).map fun x => (a + 64 * (i * stride + x.2), x.1, r + i)

/-- The elements of a gather or scatter: for each enabled lane of each named group, base plus index shifted (10 R291). -/
def gathered (s : State) (base : Word) (x : Nat) (gm : BitVec 8) (sc m : Nat) : List (Nat × Nat × Nat) :=
  ((List.range 8).filter fun g => gm.getLsbD g).flatMap fun g =>
    ((List.range 16).filter fun l => (s.mreg g m).getLsbD l).map fun l =>
      ((base + BitVec.ofNat 64 ((s.vlane g x l).toNat * 2 ^ sc)).toNat, g, l)

/-- Every line of a list may be accessed in the local window. -/
def linesOk (s : State) (l : List (Nat × Nat × Nat)) (kind : Nat) : Prop := ∀ x ∈ l, accessOk s x.1 64 64 true kind

/-- A word of class A or K may act: clean, and its context owns the array; no pass is going on. -/
def owner (s : State) (regs : List Nat) : Prop :=
  clean s regs ∧ s.core.array.owner = some s.cur ∧ s.core.array.pass = none

/-- A pass as it stands before step 0 (13 R351). -/
def pass0 (s : State) (i : Instr) (opnds : List Nat) : Pass :=
  { slot := ⟨s.env, i⟩, k := 0, ran := false, bad := false, cut := false, opnds := opnds, fmt := s.ctx.c.fmt, la := s.core.array.la, xa := s.core.array.xa
    lb := s.core.array.lb, sckey := s.core.array.sckey, apc := s.core.array.apc, row := [] }

/-- `s` with another array in its core, and nothing else changed. -/
def withA (s : State) (a : ArrayState) : State := { s with core := { s.core with array := a } }

/-- The word `i` at hand is at the step `p` of its pass: the first, with operands `l`, or one of a held word (13 R351). -/
def stepOf (s : State) (i : Instr) (l : List Nat) (p : Pass) : Prop :=
  s.pred = true ∧ s.core.array.owner = some s.cur ∧ p.bad = false ∧
    (s.core.array.pass = none ∧ p = pass0 s i l ∨
      s.core.array.pass = some p ∧ s.issue.held = true ∧ p.slot = ⟨s.env, i⟩)

/-- Gradient `q` of a cell after a sample of AGRAD in spline mode (13 R374): at a row whose position is no number, NaN; else the
row's nonzero basis value or base function times `d` is added. -/
def gradAfter (a : ArrayState) (pos : Option RowPos) (d old : W32) (q : Nat) : W32 :=
  match pos with
  | none => if q < a.g + 4 then BitVec.ofNat 32 (canonNan 0) else old
  | some p =>
    let e : Fl := if p.sigma ≤ q ∧ q ≤ p.sigma + 3 then bf16 (p.e.getD (q - p.sigma) 0).toNat
      else if q = a.g + 3 then bf16 p.bb.toNat else .zero
    if e.isZero then old else toF32 rne (flSum false [f32 old, (f32 d).mul e])

/-- The ranges a step reads on two streams and writes raise nothing, and no error waits in memory: bases aligned, ranges
present, the two streams in different bank groups, nothing watched (13 R352, R353). -/
def streamsOk (s : State) (bases a b w : List (Nat × Nat)) : Prop :=
  (∀ x ∈ bases, x.1 % x.2 = 0) ∧ (∀ x ∈ a ++ b ++ w, s.localBad x.1 x.2 = false) ∧ bankGroups a &&& bankGroups b = 0 ∧
    (∀ x ∈ a ++ b, s.watches 1 x.1 x.2 = none) ∧ (∀ x ∈ w, s.watches 2 x.1 x.2 = none) ∧ s.upsets = []

/-- `t` differs from `s` in the array, in the draw counter and in what the bundle measures only. -/
def onlyArray (s t : State) : Prop :=
  { t with issue := s.issue, draws := s.draws, core := { t.core with array := s.core.array } } = s ∧
    t.issue.trap = s.issue.trap

/-- An address operand of a class P word raises nothing: aligned, its nonempty ranges present where it is local, canonical
where it is not, and unwatched (01 R42, 10 R282). -/
def operandOk (s : State) (a align : Nat) (ranges : List (Nat × Nat)) (kind : Nat) : Prop :=
  a % align = 0 ∧ (if a < 0x1000000 then ∀ r ∈ ranges, r.2 ≠ 0 → s.localBad r.1 r.2 = false else a < 2 ^ 52) ∧
    ∀ r ∈ ranges, r.2 ≠ 0 → s.watches kind r.1 r.2 = none

/-- `s` with a class P command as the youngest entry of the store queue, and its landing entry where it has one. -/
def commanding (s : State) (op : CopyOp) (land : Option (LandKind × Nat)) : State :=
  let q := s.ctx.q
  let c : CopyCmd :=
    { ident := 0, cid := s.cur, lid := s.ctx.c.lid.toNat % 65536, vc := s.ctx.place.1, tid := s.tidOf s.ctx
      num := q.issued + 1, qid := q.nextId, ahead := [], buf := [], stamp := 0, op := op, land := land.map fun _ => q.nextId, st := .queued
      cursor := 0, failed := false, tx := none, snp := s.verSource, bundle := s.issue.addr, handler := s.inh }
  withQ s { q with
    nextId := q.nextId + 1
    issued := q.issued + 1
    landing := match land with
      | some (k, ad) => q.landing ++ [landingEntry s k ad]
      | none => q.landing
    sq := q.sq ++ [storeEntry s (.cmd c) false false] }

/-- An engine's access at an address of a scratchpad finds its bank free, no stored error and no store on its way. -/
def unhindered (s : State) (c : CopyCmd) (pa : Nat) : Prop :=
  s.engDenied c pa = false ∧ s.upsets = [] ∧ s.flights = []

/-- The rows of a strided operand: row `r` at base plus `r` strides, modulo 2^64 (10 R302). -/
def rowsOf (base len rows : Nat) (stride : Int) : List (Nat × Nat) :=
  (List.range rows).map fun r => ((BitVec.ofInt 64 ((base : Int) + ((r : Nat) : Int) * stride)).toNat, len)

/-- A store-queue entry that is no longer the handler's (09 R262, R264). -/
def unhandled (e : StoreEntry) : StoreEntry :=
  { e with handler := false, kind := match e.kind with | .cmd k => .cmd { k with handler := false } | k => k }

/-- A context goes on after waiting: it is READY, or its core, having no other, issues it. Its registers, and all of memory,
are as before. -/
def wakes (s t : State) (id : Nat) : Prop :=
  ((t.getCtx id).st = .ready ∨ (t.getCtx id).st = .issuing) ∧ (t.getCtx id).regs = (s.getCtx id).regs ∧
    (t.getCtx id).q = (s.getCtx id).q ∧ t.mem = s.mem

/-- What a flip of the barrier word with words 1 to 3 `w1`, `w2`, `w3` does to each subscriber that runs (10 R307, 14 R383): it
has the flag, or, where it waited for it, goes on. -/
def flagged (s t : State) (w1 w2 w3 : Word) : Prop :=
  ∀ v i id, v ≤ w2.toNat / 2 ^ 8 % 2 ^ 8 → i < 32 → w2.getLsbD (32 + i) = true → id < 4096 →
    s.findPlace (w3.toNat % 65536) (w2.toNat % 256 + v) (i / 4) (i % 4) = some id →
    ((∃ clr b, (s.getCtx id).st = .waiting (w1.toNat % 32) clr b) →
      (t.getCtx id).st = .ready ∨ (t.getCtx id).st = .issuing) ∧
    ((∀ clr b, (s.getCtx id).st ≠ .waiting (w1.toNat % 32) clr b) →
      (t.getCtx id).c.flg.getLsbD (w1.toNat % 32) = true)

/-- `i` takes ALIGN before its bundle, with its slot position as DETAIL (09 R261, 18 R410); no memory changes. -/
def takesAlign (s : State) (i : Instr) : Prop :=
  ∃ t, exec i s = .next t ∧ trapped s t 0x0B (BitVec.ofNat 16 s.env.pos.toNat) s.issue.addr s.issue.addr ∧
    t.issue.trap = some (0x0B, BitVec.ofNat 16 s.env.pos.toNat, 0) ∧ t.mem = s.mem

/-- The lanes a class V word enables hold no poison in the registers it consumes. -/
def lanesClean (s : State) (regs : List Nat) : Prop :=
  ∀ l, l < 16 → s.lanes.getLsbD l = true → ∀ r ∈ regs, s.vpois s.group r l = false

/-- The number element `n` of a list of source elements stands for, by its code. -/
def num (c : Nat) (v : List Nat) (n : Nat) : Fl := decodeFloat c (v.getD n 0)

/-- The word answers a state that owes one vector result, to register `d` of its slot's lane group in the enabled lanes, and
is otherwise as before; element `e` of lane `l` of the result is `f l e` of the source elements. Codes give element widths
(11 R315, R317). -/
def elementwise (s : State) (i : Instr) (d : Nat) (srcs : List Nat) (c lat : Nat) (f : Nat → Nat → List Nat → Nat) : Prop :=
  lanesClean s srcs → ∃ t val, exec i s = .next t ∧ onlyOwes s t ∧
    t.ctx.q.results = s.ctx.q.results ++ [⟨.vreg s.group d, val, s.lanes, 0, lat, false⟩] ∧
    ∀ l, l < 16 → s.lanes.getLsbD l = true → ∀ e, e < 32 / codeWidth c →
      elem (codeWidth c) (val.extractLsb' (32 * l) 32) e =
        f l e (srcs.map fun r => elem (codeWidth c) (s.vlane s.group r l) e) % 2 ^ codeWidth c

/-- As `elementwise`, with what each enabled lane of the result is. -/
def lanewise (s : State) (i : Instr) (d : Nat) (srcs : List Nat) (lat : Nat) (f : Nat → W32) : Prop :=
  lanesClean s srcs → ∃ t val, exec i s = .next t ∧ onlyOwes s t ∧
    t.ctx.q.results = s.ctx.q.results ++ [⟨.vreg s.group d, val, s.lanes, 0, lat, false⟩] ∧
    ∀ l, l < 16 → s.lanes.getLsbD l = true → val.extractLsb' (32 * l) 32 = f l

/-- A copy of lanes: no source is consumed, and a copied poison lane is poisoned (11 R319). -/
def copies (s : State) (i : Instr) (d lat : Nat) (src : Nat → Nat × Nat) : Prop :=
  ∃ t val poison, exec i s = .next t ∧ onlyOwes s t ∧
    t.ctx.q.results = s.ctx.q.results ++ [⟨.vreg s.group d, val, s.lanes, poison, lat, false⟩] ∧
    ∀ l, l < 16 → s.lanes.getLsbD l = true → val.extractLsb' (32 * l) 32 = s.vlane (src l).1 (src l).2 l ∧
      poison.getLsbD l = s.vpois (src l).1 (src l).2 l

/-- A compare: a mask result, exact after one bundle, in the enabled lanes. -/
def compares (s : State) (i : Instr) (m a b c part : Nat) (f : Nat → Nat → Bool) : Prop :=
  lanesClean s [a, b] → ∃ t v, exec i s = .next t ∧ onlyOwes s t ∧
    t.ctx.q.results = s.ctx.q.results ++ [⟨.mreg s.group m, v, s.lanes, 0, 1, true⟩] ∧
    ∀ l, l < 16 → s.lanes.getLsbD l = true → v.getLsbD l =
      f (elem (codeWidth c) (s.vlane s.group a l) part) (elem (codeWidth c) (s.vlane s.group b l) part)

/-- A reduction: element 0 of lane 0 of `d` in its group gets the value, whatever lanes are enabled; the rest of the lane
stays, and where there is any its poison too. -/
def reduces (s : State) (i : Instr) (d a c o lat : Nat) (v : List Nat → Nat) : Prop :=
  lanesClean s [a] → ∃ t val, exec i s = .next t ∧ onlyOwes s t ∧
    t.ctx.q.results = s.ctx.q.results ++ [⟨.vreg s.group d, val, 1,
      if codeWidth o < 32 ∧ s.vpois s.group d 0 = true then 1 else 0, lat, false⟩] ∧
    (0 < 32 / codeWidth o → elem (codeWidth o) (val.extractLsb' 0 32) 0 = v (s.velems c a) % 2 ^ codeWidth o) ∧
    ∀ e, 0 < e → e < 32 / codeWidth o →
      elem (codeWidth o) (val.extractLsb' 0 32) e = elem (codeWidth o) (s.vlane s.group d 0) e

/-- The number an element stands for, by its code. -/
def number (c v : Nat) : Int := if isSigned c then (BitVec.ofNat (codeWidth c) v).toInt else v

/-- An integer result as an element: limited to the code's range under a SAT prefix, else modulo the element width. -/
def fitted (s : State) (c : Nat) (v : Int) : Nat :=
  let w := codeWidth c
  let lo : Int := if isSigned c then -(2 ^ (w - 1)) else 0
  let hi : Int := if isSigned c then 2 ^ (w - 1) - 1 else 2 ^ w - 1
  ((if s.satInt then max lo (min hi v) else v) % 2 ^ w).toNat

/-- `t` differs from `s` in cluster `p` at most: it is `u` there. -/
def cluSet (s t : State) (p : Nat) (u : ClusterState) : Prop :=
  t.getClu p = u ∧ (∀ q, q ≠ p → t.getClu q = s.getClu q) ∧ t.ctx = s.ctx ∧ t.core = s.core ∧ t.mem = s.mem ∧
    t.mgmt = s.mgmt

/-- A landing entry of a context answered. -/
def answered (s t : State) (cid land : Nat) (a : Answer) : Prop :=
  (t.getCtx cid).q.landing =
    (s.getCtx cid).q.landing.map fun l => if l.id = land then { l with answer := a } else l

/-- A cluster's filler for a step that ends (07 R205, R207, 14 R384): what the step before had, less DOWN, less what the step
has, rounded up to a multiple of 4. -/
def fillerOf (u : ClusterState) : Nat :=
  (u.slew.prev - (u.rampOf u.oper.cur).toNat / 65536 % 65536 - u.slew.p + 3) / 4 * 4

/-- `t` differs from `s` in queue `q` at most, which is `w` there; memory and contexts are as before. -/
def queueSet (s t : State) (q : Nat) (w : WQueue) : Prop :=
  t.queue q = w ∧ (∀ r, r ≠ q → t.queue r = s.queue r) ∧ t.ctx = s.ctx ∧ t.mem = s.mem ∧ t.tenants = s.tenants

/-- No WAITV of a list has started: one starts only once those before it have completed (16 R393). -/
abbrev noWaitv (l : List Command) : Prop := ∀ d ∈ l, d.op = 2 → d.started = false

/-- Queue `q` runs command `c`, the first of its list that has started and is not done. -/
def runs (s : State) (q : Nat) (c : Command) (rest : List Command) : Prop :=
  s.arg.a = q ∧ q < 8192 ∧ s.fwRuns = true ∧ (s.queue q).cmds = c :: rest ∧ c.started = true ∧ c.done = false ∧ noWaitv rest

/-- The queue with its first command done, with a failure code. -/
def doneWith (s : State) (q : Nat) (c : Command) (rest : List Command) (code : Nat) : WQueue :=
  { s.queue q with cmds := { c with done := true, fail := code } :: rest }

/-- A tenant's address translates for a read or write without a trace, to memory of this package that is not versioned. -/
def reaches (s : State) (tid va pa : Nat) (acc : Access) : Prop :=
  ∃ leaf, s.translate none tid none va acc = (s, .ok pa leaf) ∧ leafPeer leaf = 0 ∧ leafVer leaf = false ∧
    va % 8 = 0 ∧ pa % 8 = 0 ∧ pa / spaceSize = 0

/-- No memory-side watchpoint is enabled (18 R422). -/
def unwatched (s : State) : Prop := ∀ i, (NatMap.get 0x0C000000 s.hwpc i).getLsbD 0 = false

/-- A launch's contexts stopped, and what they have sent brought to its home (18 R413). -/
def halted (s : State) (lid : Nat) (l : Launch) (swap : Bool) : State :=
  (if l.isJob then [] else l.contexts).foldl (fun s x => s.bringHome x.2) (s.stopFor swap lid)

/-- A running launch whose contexts can be saved at once: no load is outstanding, none is a lock-step member, and every page of
the save area can be reached; no error waits in memory (18 R413, R416). -/
def saves (s : State) (lid : Nat) (l : Launch) (swap : Bool) : Prop :=
  s.issue.live = false ∧ l.st = .running ∧ s.upsets = [] ∧
    (l.isJob = true ∨ (∀ x ∈ l.contexts, (s.getCtx x.2).q.lq = [] ∧ (s.getCtx x.2).c.gid.getLsbD 8 = false) ∧
      ∀ i, i < l.contexts.length → (halted s lid l swap).imageFails l i = false)

/-- Launch `lid`, which was `l`, stands saved in `t` as it was in `s`: its contexts' registers, their images written in order by
their cores, and then its scratchpads copied page by page into the save area (16 R400, 18 R413, R415). -/
def saved (s t : State) (lid : Nat) (l : Launch) (swap : Bool) : Prop :=
  ∃ l', NatMap.find? t.launches lid = some l' ∧ l'.st = .saved swap ∧ l'.words = l.words ∧ l'.tid = l.tid ∧
    (l.isJob = false → ∀ x ∈ l.contexts, ∃ y, NatMap.find? l'.images (placeKey x.1) = some y ∧
      y.regs = (s.getCtx x.2).regs ∧ y.c = (s.getCtx x.2).c ∧ y.pc = (s.getCtx x.2).pc) ∧
    (l.isJob = true → t.mem = s.mem) ∧
    (l.isJob = false → t.mem = (((List.range l.map.length).zip l.map).foldl (fun u x => u.movePad l x.1 x.2 true)
      (((List.range l.contexts.length).zip l.contexts).foldl
        (fun u x => u.writeImage l x.1 x.2.2 ((u.getCore (x.2.2 / 4)).array.owner == some x.2.2)) (halted s lid l swap))).mem)

/-- A saved launch can be brought back to the clusters `m` whole: no error waits, and every page of its save area can be reached
once its scratchpads are back (18 R416). -/
def restorable (s : State) (l : Launch) (m : List Nat) : Prop :=
  s.upsets = [] ∧ (l.isJob = true ∨ ∀ i, i < l.contexts.length →
    (((List.range m.length).zip m).foldl (fun u x => u.movePad l x.1 x.2 false) (m.foldl (fun u p => u.takeCluster l.tid p) s)).imageFails
      l i = false)

/-- Launch `lid`, which was `l` and saved, runs in `t` on the clusters `m` with what was saved (18 R414). -/
def resumed (t : State) (lid : Nat) (l : Launch) (m : List Nat) : Prop :=
  ∃ l', NatMap.find? t.launches lid = some l' ∧ l'.st = .running ∧ l'.map = m ∧ l'.words = l.words ∧ l'.fail = l.fail ∧
    (l.isJob = false → ∀ x ∈ l'.contexts, ∀ y, NatMap.find? l.images (placeKey x.1) = some y →
      (t.getCtx x.2).regs = y.regs ∧ (t.getCtx x.2).c = y.c ∧ (t.getCtx x.2).pc = y.pc)

/-- The launch a record starts, as the dispatcher enters it (16 R396, R397). -/
def launchOf (s : State) (q : Nat) (c : Command) (m : List Nat) : Launch :=
  { queue := q, seqv := c.word 2, words := c.words, tid := (s.queue q).tid, pri := (s.queue q).pri, map := m
    st := .running, halt := none, order := s.nextOrder, images := [], arrays := [], arrivals := [], fail := 0 }

/-- The copy command of the engines that serves a firmware command of queue `q` (16 R401). -/
def served (s : State) (q : Nat) (op : CopyOp) (buf : NatMap (Option Byte)) : CopyCmd :=
  { ident := 8192 + q, cid := 2 ^ 40 + q, lid := 0, vc := 0, tid := (s.queue q).tid, num := 0, qid := 0, ahead := [], buf := buf
    stamp := 0, op := op, land := none, st := .running, cursor := 0, failed := false, tx := none, snp := 0, bundle := 0
    handler := false }

/-- A command's record has no reserved field set; `cond` where COND may stand, `named` its own words (16 R391). -/
def fieldsClear (c : Command) (cond : Bool) (named : List Nat) : Prop :=
  (c.word 0).toNat < 65536 ∧ (cond = false → (c.word 0).toNat / 4096 = 0) ∧ (c.word 0).toNat / 512 % 8 ≤ 5 ∧
    (c.word 0).getLsbD 8 = false ∧ (c.word 2).getLsbD 63 = false ∧
    ∀ n, 3 ≤ n → n < 16 → n ∉ named → c.word n = 0

/-- `s` with one tenant's registers changed and nothing else. -/
def withT (s : State) (t : Nat) (n : Tenant) : State := { s with tenants := NatMap.set .reset s.tenants t n }

/-- The flit at hand comes next in its port's sequence, undamaged, and nothing waits at its port: `s` once it is received, its
sequence number and its mask noted (21 R450, R453, R454). -/
def received (s : State) : State := { s with ports := NatMap.set .reset s.ports (s.arg.a % 48) { s.port (s.arg.a % 48) with
  rxSeq := (s.port (s.arg.a % 48)).rxSeq + 1, xoff := s.arg.hdr.extractLsb' 52 8 } }

/-- The conditions of `received`. -/
def inOrder (s : State) : Prop :=
  (s.port (s.arg.a % 48)).up = true ∧ s.mgmt.power ≠ .off ∧ (s.port (s.arg.a % 48)).held = [] ∧
    (s.port (s.arg.a % 48)).full = 0 ∧ (s.port (s.arg.a % 48)).vl0 = [] ∧ s.arg.crcOk = true ∧
    s.arg.hdr.extractLsb' 60 12 = (s.port (s.arg.a % 48)).rxSeq

/-- The header at hand is well formed and of a kind (21 R451). -/
def kindIs (s : State) (k : Nat) : Prop :=
  s.arg.hdr.extractLsb' 16 4 = 0#4 ∧ s.arg.hdr.extractLsb' 0 8 = 0#8 ∧ s.arg.hdr.extractLsb' 11 5 = BitVec.ofNat 5 k

/-- The flit at hand is for this device and of a tenant whose flits count. -/
def forUs (s : State) : Prop :=
  (s.arg.hdr.extractLsb' 28 12).toNat = s.device ∧
    s.arg.a % 48 * 256 + (s.arg.hdr.extractLsb' 20 8).toNat ∉ s.discard

/-- The request at hand may be served: its tenant is served here, its `n` bytes lie in the cellar below the lumber room, and
the response's lane is open on port `m`; nothing of it has been served. -/
def servable (s : State) (n m : Nat) : Prop :=
  (NatMap.get Tenant.reset s.tenants (s.arg.hdr.extractLsb' 20 8).toNat).en = true ∧
    s.arg.w.toNat + n ≤ s.lumberBase ∧ s.arg.w.toNat < spaceSize ∧
    s.routeTo (s.arg.a % 48 / 12) (s.arg.hdr.extractLsb' 40 12).toNat = some m ∧
    (s.port m).up = true ∧ ((received s).port m).xoff.getLsbD 3 = false ∧ s.upsets = [] ∧ s.arg.x = 0 ∧ s.arg.temp = 0

/-- `t` has sent one more flit than `u`: a response on port `m` to the request at hand. -/
def responds (s u t : State) (m len status : Nat) (data : List Granule) : Prop :=
  ∃ h, t.outbox = u.outbox ++ [.flit m h status (0, 0) data] ∧ h.extractLsb' 11 5 = 4#5 ∧ h.extractLsb' 8 3 = 3#3 ∧
    h.extractLsb' 72 8 = BitVec.ofNat 8 len ∧ h.extractLsb' 80 16 = s.arg.hdr.extractLsb' 80 16 ∧
    h.extractLsb' 28 12 = s.arg.hdr.extractLsb' 40 12

/-- Bits `lo + n − 1` to `lo` of an address. -/
def slice (va lo n : Nat) : Nat := va / 2 ^ lo % 2 ^ n

/-- A page-table entry that points to the next table (01 R23, R25): V set, no reserved bit, below the lumber room. -/
def points (s : State) (e : Word) (table : Nat) : Prop :=
  e.toNat = table * 4096 + 1 ∧ table < 2 ^ 40 ∧ table * 4096 < s.lumberBase

end Sys2Proof.Claims

section

open Sys2Proof Sys2Proof.Machine Sys2Proof.Claims

/-- 09 R267, R269, R270: the two-source integer words. For true predicate and unpoisoned sources each answers the state
that owes d the result at the latency of 07 R213 and is otherwise unchanged: ADD and SUB wrap, or saturate under SAT or
SYM; MULH and MULHN give the high word; shift counts are bits 5:0 of b. 09 R267, R270, R271, R272: the words of one
source, an immediate or a selection. MOV and SEL copy, poison with the value; the others consume. -/
def Obligations.ScalarArithmeticResults : Prop :=
  (∀ (s : State) (d a b h : BitVec 6), clean s [a.toNat, b.toNat] →
     let x := s.sreg a.toNat
     let y := s.sreg b.toNat
     let n := y.toNat % 64
     exec (.add d a b) s = .next (owingS s d (if s.satInt then clampI64 (x.toInt + y.toInt) else x + y) 1) ∧
     exec (.sub d a b) s = .next (owingS s d (if s.satInt then clampI64 (x.toInt - y.toInt) else x - y) 1) ∧
     exec (.mul d a b) s = .next (owingS s d (if s.satInt then clampI64 (x.toInt * y.toInt) else x * y) 3) ∧
     exec (.mulh d a b) s =
       .next (owingS s d ((x.signExtend 128 * y.signExtend 128).extractLsb' 64 64) 3) ∧
     exec (.mulhn d a b) s = .next (owingS s d ((x.setWidth 128 * y.setWidth 128).extractLsb' 64 64) 3) ∧
     exec (.and d a b) s = .next (owingS s d (x &&& y) 1) ∧
     exec (.or d a b) s = .next (owingS s d (x ||| y) 1) ∧
     exec (.xor d a b) s = .next (owingS s d (x ^^^ y) 1) ∧
     exec (.andn d a b) s = .next (owingS s d (x &&& ~~~ y) 1) ∧
     exec (.shl d a b) s = .next (owingS s d (x <<< n) 1) ∧
     exec (.shr d a b) s = .next (owingS s d (x >>> n) 1) ∧
     exec (.sar d a b) s = .next (owingS s d (x.sshiftRight n) 1) ∧
     exec (.rol d a b) s = .next (owingS s d (x <<< n ||| x >>> ((64 - n) % 64)) 1) ∧
     exec (.min d a b) s = .next (owingS s d (if x.toInt ≤ y.toInt then x else y) 1) ∧
     exec (.max d a b) s = .next (owingS s d (if x.toInt ≤ y.toInt then y else x) 1) ∧
     exec (.minn d a b) s = .next (owingS s d (if x.toNat ≤ y.toNat then x else y) 1) ∧
     exec (.maxn d a b) s = .next (owingS s d (if x.toNat ≤ y.toNat then y else x) 1) ∧
     exec (.addx d a b 0) s = .next (owingS s d (x + 8 * y) 1) ∧
     exec (.addx d a b 1) s = .next (owingS s d (x + 64 * y) 1) ∧
     exec (.addx64 d a b h 0) s = .next (owingS s d (x + y <<< h.toNat) 1) ∧
     exec (.addx64 d a b h 1) s =
       .next (owingS s d (x + ((y.setWidth 32).signExtend 64) <<< h.toNat) 1)) ∧
  (∀ (s : State) (d a b o l : BitVec 6) (k : BitVec 4) (i7 : BitVec 7) (i39 : BitVec 39) (i13 : BitVec 13) (i45 : BitVec 45),
     s.pred = true →
     let x := s.sreg a.toNat
     let r := if s.kreg k.toNat then a.toNat else b.toNat
     exec (.movi d i13) s = .next (owingS s d (BitVec.ofInt 64 (immediate s i13)) 1) ∧
     exec (.movi64 d i45) s = .next (owingS s d (i45.signExtend 64) 1) ∧
     exec (.mov d a) s = .next (owing s ⟨.sreg (s.sname d.toNat), x.setWidth 512, 1, if s.spois a.toNat then 1 else 0, 1,
       false⟩) ∧
     exec (.sel d a b k) s = .next (owing s ⟨.sreg (s.sname d.toNat), (s.sreg r).setWidth 512, 1,
       if s.spois r then 1 else 0, 1, false⟩) ∧
     (s.spois a.toNat = false →
       exec (.clz d a) s =
         .next (owingS s d (BitVec.ofNat 64 ((List.range 64).takeWhile fun j => !x.getLsbD (63 - j)).length) 1) ∧
       exec (.ctz d a) s =
         .next (owingS s d (BitVec.ofNat 64 ((List.range 64).takeWhile fun j => !x.getLsbD j).length) 1) ∧
       exec (.popc d a) s = .next (owingS s d (BitVec.ofNat 64 ((List.range 64).countP fun j => x.getLsbD j)) 1) ∧
       exec (.addi d a i7) s = .next (owingS s d (if s.satInt then clampI64 (x.toInt + immediate s i7) else
         x + BitVec.ofInt 64 (immediate s i7)) 1) ∧
       exec (.addi64 d a i39) s = .next (owingS s d (if s.satInt then clampI64 (x.toInt + i39.toInt) else
         x + i39.signExtend 64) 1) ∧
       exec (.bfx d a o l) s =
         .next (owingS s d (BitVec.ofNat 64 (x.toNat / 2 ^ o.toNat % 2 ^ (l.toNat + 1))) 1) ∧
       exec (.bfxs d a o l) s =
         .next (owingS s d (BitVec.ofInt 64 (((x.toNat / 2 ^ o.toNat : Nat) : Int).bmod (2 ^ (l.toNat + 1)))) 1) ∧
       (s.spois d.toNat = false → ∃ v : Word, exec (.bfi d a o l) s = .next (owingS s d v 1) ∧
         ∀ j, j < 64 → v.getLsbD j =
           if o.toNat ≤ j ∧ j < o.toNat + (l.toNat + 1) then x.getLsbD (j - o.toNat) else (s.sreg d.toNat).getLsbD j)))

/-- 09 R268: DIV, DIVN, REM and REMN never trap: for every pair of unpoisoned sources each goes on, owing d its result. By zero
DIV and DIVN give all ones and REM and REMN the dividend; −2^63 by −1 gives −2^63 and remainder 0; else the quotient is
rounded toward zero and the remainder takes the sign of the dividend; the unsigned forms divide whole numbers. -/
def Obligations.DivisionResults : Prop :=
  ∀ (s : State) (d a b : BitVec 6), clean s [a.toNat, b.toNat] →
    let x := s.sreg a.toNat
    let y := s.sreg b.toNat
    let minimum : Word := 0x8000000000000000
    let corner : Prop := x = minimum ∧ y = BitVec.allOnes 64
    ∃ q r : Word,
      exec (.div d a b) s = .next (owingS s d q 20) ∧ exec (.rem d a b) s = .next (owingS s d r 20) ∧
      (y = 0 → q = BitVec.allOnes 64 ∧ r = x) ∧
      (corner → q = minimum ∧ r = 0) ∧
      (y ≠ 0 → ¬ corner → q.toInt = x.toInt.tdiv y.toInt ∧ r.toInt = x.toInt - y.toInt * q.toInt ∧
        r.toInt.natAbs < y.toInt.natAbs ∧ (r.toInt = 0 ∨ (r.toInt < 0 ↔ x.toInt < 0))) ∧
      ∃ qn rn : Word,
        exec (.divn d a b) s = .next (owingS s d qn 20) ∧ exec (.remn d a b) s = .next (owingS s d rn 20) ∧
        (y = 0 → qn = BitVec.allOnes 64 ∧ rn = x) ∧
        (y ≠ 0 → qn.toNat = x.toNat / y.toNat ∧ rn.toNat = x.toNat % y.toNat)

/-- 09 R273, 08 R224: CMP and CMPI write their predicate at latency 1, exactly, with the condition their code names; CMPI's
immediate is sign-extended to 64 bits under every condition, after IMX; codes 10 to 15 are reserved; KD = k0 discards. -/
def Obligations.IntegerCompareResults : Prop :=
  ∀ (s : State) (c k4 : BitVec 4) (a b : BitVec 6) (k : BitVec 3) (i6 : BitVec 6) (i37 : BitVec 37) (e : Env),
    (c.toNat ≤ 9 →
      let x := s.sreg a.toNat
      let y := s.sreg b.toNat
      (clean s [a.toNat, b.toNat] →
        exec (.cmp c a b k) s = .next (owingK s k.toNat (holds c.toNat x y) true) ∧
        exec (.cmp64 c a b k4) s = .next (owingK s k4.toNat (holds c.toNat x y) true)) ∧
      (clean s [a.toNat] →
        exec (.cmpi c a k i6) s =
          .next (owingK s k.toNat (holds c.toNat x (BitVec.ofInt 64 (immediate s i6))) true) ∧
        exec (.cmpi64 c a k4 i37) s = .next (owingK s k4.toNat (holds c.toNat x (i37.signExtend 64)) true))) ∧
    (10 ≤ c.toNat → Instr.wf e (.cmp c a b k) = false ∧ Instr.wf e (.cmp64 c a b k4) = false ∧
      Instr.wf e (.cmpi c a k i6) = false ∧ Instr.wf e (.cmpi64 c a k4 i37) = false) ∧
    ∀ val poison lanes, s.ctx.regs.write (.kreg 0) val poison lanes = s.ctx.regs

/-- 02 R44: a write to s0, k0 or m0 is discarded when it lands, whichever word it comes from; and of the words ADD, CMP and PAND, the
one that names such a register is well-formed wherever the same word with another destination is, weighs as much, and
completes. -/
def Obligations.WritesToConstantRegisters : Prop :=
  (∀ (r : Regs) (g : Nat) (val : BitVec 512) (poison lanes : BitVec 16),
    r.write (.sreg 0) val poison lanes = r ∧ r.write (.kreg 0) val poison lanes = r ∧
      r.write (.mreg g 0) val poison lanes = r) ∧
  ∀ (s : State) (e : Env) (a b d : BitVec 6) (c x y m : BitVec 4) (k g : BitVec 3), clean s [a.toNat, b.toNat] →
    c.toNat ≤ 9 →
    (Instr.wf e (.add 0 a b) = Instr.wf e (.add d a b) ∧ instrWeight (.add 0 a b) = instrWeight (.add d a b) ∧
      exec (.add 0 a b) s = .next (owingS s 0 (if s.satInt then clampI64 ((s.sreg a.toNat).toInt + (s.sreg b.toNat).toInt)
        else s.sreg a.toNat + s.sreg b.toNat) 1)) ∧
    (Instr.wf e (.cmp c a b 0) = Instr.wf e (.cmp c a b k) ∧ instrWeight (.cmp c a b 0) = instrWeight (.cmp c a b k) ∧
      exec (.cmp c a b 0) s = .next (owingK s 0 (holds c.toNat (s.sreg a.toNat) (s.sreg b.toNat)) true)) ∧
    (Instr.wf e (.pand 0 x y g 0) = Instr.wf e (.pand m x y g 0) ∧
      instrWeight (.pand 0 x y g 0) = instrWeight (.pand m x y g 0) ∧
      exec (.pand 0 x y g 0) s = .next (owingM s g.toNat 0 (s.mreg g.toNat x.toNat &&& s.mreg g.toNat y.toNat) false))

/-- 09 R274 to R276: FCMP compares bits 31:0 as FP32, exactly at latency 1; scalar FP32 arithmetic reads bits 31:0,
rounds the exact value once with the mode in force (SR acting as RNE) and writes bits 63:32 zero; FMIN and FMAX do not
round; CVTF converts between formats. 09 R277, R278: AIRD reads a field of an iterator, strides sign-extended; AIWR owes
one field of the iterator and nothing else; RNG owes words 1:0 of the tag-2 draw and marks the bundle, so that RCTR
advances at its end. -/
def Obligations.FloatIteratorAndDrawResults : Prop :=
  (∀ (s : State) (d a b c : BitVec 6) (sf df cc k4 : BitVec 4) (k : BitVec 3), clean s [a.toNat, b.toNat, c.toNat] →
     let x := decodeFloat 0 ((s.sreg a.toNat).toNat % 2 ^ 32)
     let y := decodeFloat 0 ((s.sreg b.toNat).toNat % 2 ^ 32)
     let z := decodeFloat 0 ((s.sreg c.toNat).toNat % 2 ^ 32)
     let down := s.scalarRnd.mode == 2
     let rounded (v : Fl) : Word := BitVec.ofNat 64 (roundFloat 0 s.scalarRnd 0 v)
     (cc.toNat ≤ 7 →
       exec (.fcmp cc a b k) s = .next (owingK s k.toNat (fcond cc.toNat x y) true) ∧
       exec (.fcmp64 cc a b k4) s = .next (owingK s k4.toNat (fcond cc.toNat x y) true)) ∧
     exec (.fadd d a b) s = .next (owingS s d (rounded (flSum down [x, y])) 3) ∧
     exec (.fsub d a b) s = .next (owingS s d (rounded (flSum down [x, y.negate])) 3) ∧
     exec (.fmul d a b) s = .next (owingS s d (rounded (x.mul y)) 3) ∧
     exec (.ffma d a b c) s = .next (owingS s d (rounded (flSum down [x.mul y, z])) 4) ∧
     exec (.fmin d a b) s = .next (owingS s d (BitVec.ofNat 64 (fminmax 0 false
       ((s.sreg a.toNat).toNat % 2 ^ 32) ((s.sreg b.toNat).toNat % 2 ^ 32))) 3) ∧
     exec (.fmax d a b) s = .next (owingS s d (BitVec.ofNat 64 (fminmax 0 true
       ((s.sreg a.toNat).toNat % 2 ^ 32) ((s.sreg b.toNat).toNat % 2 ^ 32))) 3) ∧
     exec (.cvtf d a sf df) s = .next (owingS s d (cvtfValue sf.toNat df.toNat s.scalarRnd s.clipOf (s.sreg a.toNat)) 3)) ∧
  (∀ (s : State) (d r : BitVec 6) (j : BitVec 4) (f : BitVec 3), clean s [r.toNat] → f.toNat ≤ 5 →
     let a := s.iter j.toNat
     exec (.aird d j f) s = .next (owingS s d ([a.base, a.str0.signExtend 64, a.str1.signExtend 64, a.str2.signExtend 64,
       a.str3.signExtend 64, if a.dir then 1 else 0].getD f.toNat 0) 1) ∧
     exec (.aiwr r j f) s = .next (owing s ⟨.iter j.toNat f.toNat, (s.sreg r.toNat).setWidth 512, 1, 0, 1, true⟩) ∧
     exec (.rng d) s =
       .next { owingS s d (philox s.ctx.c.rkey (counter 2 s.ctx.c.rctr.toNat) 1 ++
         philox s.ctx.c.rkey (counter 2 s.ctx.c.rctr.toNat) 0) 4 with issue := { s.issue with drew := true } })

/-- 11 R326, R327: VCMP and VICMP put one bit for each enabled lane into a mask, comparing the element PART names; FP32
and i32 in the 32-bit forms. 11 R342, R343: predicate logic. With K = 0 a mask of group G, with K = 1 a predicate; every
result is due after one bundle; PKTOM's are exact. -/
def Obligations.MasksAndPredicateLogicResults : Prop :=
  (∀ (s : State) (a6 b6 : BitVec 6) (a b : BitVec 10) (m e4 : BitVec 4) (c p : BitVec 3),
     compares s (.vcmp m a6 b6 c) m.toNat (s.vwin a6.toNat) (s.vwin b6.toNat) 0 0
       (fun x y => fcond c.toNat (decodeFloat 0 x) (decodeFloat 0 y)) ∧
     compares s (.vcmp64 m c a b e4 p) m.toNat a.toNat b.toNat e4.toNat p.toNat
       (fun x y => fcond c.toNat (decodeFloat e4.toNat x) (decodeFloat e4.toNat y)) ∧
     (let rel (x y : Int) : Bool := [x == y, x != y, decide (x < y), decide (x ≤ y), decide (x > y),
        decide (x ≥ y)].getD c.toNat false
      c.toNat ≤ 5 → etInt e4 = true →
       compares s (.vicmp m a6 b6 c) m.toNat (s.vwin a6.toNat) (s.vwin b6.toNat) 10 0
         (fun x y => rel (number 10 x) (number 10 y)) ∧
       compares s (.vicmp64 m c a b e4 p) m.toNat a.toNat b.toNat e4.toNat p.toNat
         (fun x y => rel (number e4.toNat x) (number e4.toNat y)))) ∧
  (∀ (s : State) (d a b : BitVec 4) (g : BitVec 3) (g8 : BitVec 8) (r : BitVec 6), s.pred = true →
     let x := s.mreg g.toNat a.toNat
     let y := s.mreg g.toNat b.toNat
     let p := s.kreg a.toNat
     let q := s.kreg b.toNat
     (exec (.pand d a b g 0) s = .next (owingM s g.toNat d.toNat (x &&& y) false) ∧
       exec (.por d a b g 0) s = .next (owingM s g.toNat d.toNat (x ||| y) false) ∧
       exec (.pxor d a b g 0) s = .next (owingM s g.toNat d.toNat (x ^^^ y) false) ∧
       exec (.pandn d a b g 0) s = .next (owingM s g.toNat d.toNat (x &&& ~~~ y) false) ∧
       exec (.pnot d a g 0) s = .next (owingM s g.toNat d.toNat (~~~ x) false) ∧
       exec (.pmov d a g 0) s = .next (owingM s g.toNat d.toNat x false)) ∧
     (exec (.pand d a b g 1) s = .next (owingK s d.toNat (p && q) false) ∧
       exec (.por d a b g 1) s = .next (owingK s d.toNat (p || q) false) ∧
       exec (.pxor d a b g 1) s = .next (owingK s d.toNat (p != q) false) ∧
       exec (.pandn d a b g 1) s = .next (owingK s d.toNat (p && !q) false) ∧
       exec (.pnot d a g 1) s = .next (owingK s d.toNat (!p) false) ∧
       exec (.pmov d a g 1) s = .next (owingK s d.toNat p false)) ∧
     exec (.psetk d a g 0) s = .next (owingK s d.toNat (x != 0) false) ∧
     exec (.psetk d a g 1) s = .next (owingK s d.toNat (x == BitVec.allOnes 16) false) ∧
     exec (.psetk d a g 2) s = .next (owingK s d.toNat (x == 0) false) ∧
     exec (.pcnt r a g) s = .next (owingS s r (BitVec.ofNat 64 ((List.range 16).countP fun j => x.getLsbD j)) 1) ∧
     (∃ v : BitVec 16, exec (.pfirst d a g) s = .next (owingM s g.toNat d.toNat v false) ∧
       ∀ j, j < 16 → v.getLsbD j = (x.getLsbD j && (List.range j).all fun i => !x.getLsbD i)) ∧
     exec (.pktom d a g8) s = .next (withQ s { s.ctx.q with
       results := s.ctx.q.results ++ (((List.range 8).filter fun n => g8.getLsbD n).map fun n =>
         ⟨.mreg n d.toNat, if p then 0xFFFF else 0, 0xFFFF, 0, 1, true⟩) }))

/-- 10 R280 to R287, 08 R222: the scalar loads enter the load queue (LD, LDACQ) or the load queue and the landing buffer
(LDL, long LDACQ), whatever the size, sign, base and view; nothing else of the state changes at issue. -/
def Obligations.ScalarLoadsEnterTheirQueues : Prop :=
  ∀ (s : State) (d6 b6 : BitVec 6) (i7 : BitVec 7) (d10 : BitVec 10) (b : BitVec 7) (i26 : BitVec 26) (i19 : BitVec 19)
    (z : BitVec 2) (x : BitVec 1) (c : BitVec 3) (ad : BitVec 12), s.pred = true →
    let n := 2 ^ z.toNat
    let a6 := address (s.base6 b6.toNat) (8 * immediate s i7)
    let a26 := address (s.base7 b.toNat) i26.toInt
    let a19 := address (s.base7 b.toNat) i19.toInt
    ((b6.toNat < 48 → s.spois b6.toNat = false) → accessOk s a6 8 8 true 1 →
      exec (.ld d6 b6 i7) s =
        .next (loading s false [a6] (.scalar (s.sname d6.toNat) 3 false a6) (s.lat 4 6) none) ∧
      exec (.ldacq d6 b6 i7) s =
        .next (loading s false [a6] (.scalar (s.sname d6.toNat) 3 false a6) (s.lat 4 6) (some (scope s 5)))) ∧
    ((b.toNat < 64 → s.spois b.toNat = false) →
      (accessOk s a26 n n true 1 →
        exec (.ld64 d10 b i26 z x) s =
          .next (loading s false [a26 / 8 * 8] (.scalar (s.sname d10.toNat) z.toNat (x == 1) a26) (s.lat 4 6) none) ∧
        exec (.ldacq64 d10 b i26 z x c) s =
          .next (loading s false [a26 / 8 * 8] (.scalar (s.sname d10.toNat) z.toNat (x == 1) a26) (s.lat 4 6)
            (some (scope s c.toNat)))) ∧
      (accessOk s a19 n n false 1 →
        exec (.ldl d6 b z x ad i19) s =
          .next (landing s [a19 / 8 * 8] (.scalar (s.sname d6.toNat) z.toNat (x == 1) a19) ad.toNat none) ∧
        exec (.ldacqLong d6 b z x c ad i19) s =
          .next (landing s [a19 / 8 * 8] (.scalar (s.sname d6.toNat) z.toNat (x == 1) a19) ad.toNat
            (some (scope s c.toNat)))))

/-- 10 R288 to R293: the vector and tile loads enter the load queue with the line, group and register of each part; VLDL
also the landing buffer. Gathered elements are the enabled lanes only. 10 R293, R294: a transposed tile load names the
lines of each unit; PREF of one line brings a cacheable line of this package's cellar into its cache after a translation
and does nothing for an address of the local window. -/
def Obligations.VectorLoadsAndPrefetch : Prop :=
  (∀ (s : State) (d6 b6 : BitVec 6) (i7 : BitVec 7) (d x : BitVec 10) (b : BitVec 7) (i26 : BitVec 26) (i14 : BitVec 14)
     (g : BitVec 8) (ad : BitVec 12) (t : BitVec 14) (r : BitVec 5) (w c : BitVec 2) (m : BitVec 4), s.pred = true →
     let a6 := address (s.base6 b6.toNat) (64 * immediate s i7)
     let a := address (s.base7 b.toNat) i26.toInt
     let a14 := address (s.base7 b.toNat) (64 * i14.toInt)
     let groups := (List.range 8).filter fun n => g.getLsbD n
     ((b6.toNat < 48 → s.spois b6.toNat = false) → accessOk s a6 64 64 true 1 →
       exec (.vld d6 b6 i7) s =
         .next (loading s true (granulesOf [(a6, 64)]) (.lines [(a6, 0, s.vwin d6.toNat)]) (s.lat 4 6) none) ∧
       exec (.vldb d6 b6 i7) s =
         .next (loading s true (granulesOf [(a6, 64)]) (.lines [(a6, 0, s.vwin d6.toNat)]) (s.lat 4 6) none)) ∧
     ((b.toNat < 64 → s.spois b.toNat = false) →
       (linesOk s (lines a d.toNat g) 1 →
         exec (.vld64 d b i26 g) s = .next (loading s true
           (granulesOf (((lines a d.toNat g).map fun y => y.1).eraseDups.map fun y => (y, 64)))
           (.lines (lines a d.toNat g)) (s.lat 4 6) none)) ∧
       (groups ≠ [] → accessOk s a 64 64 true 1 →
         exec (.vldb64 d b i26 g) s = .next (loading s true (granulesOf [(a, 64)])
           (.lines (groups.map fun n => (a, n, d.toNat))) (s.lat 4 6) none)) ∧
       (accessOk s a14 (64 * groups.length) 64 false 1 →
         exec (.vldl d b g ad i14) s = .next (landing s (granulesOf [(a14, 64 * groups.length)])
           (.lines (lines a14 d.toNat g)) ad.toNat none)) ∧
       (linesOk s (tile (s.base7 b.toNat).toNat d.toNat (r.toNat + 1) t.toNat g) 1 →
         exec (.tld d b g t r 0 w) s = .next (loading s true
           (granulesOf (((tile (s.base7 b.toNat).toNat d.toNat (r.toNat + 1) t.toNat g).map fun y => y.1).eraseDups.map
             fun y => (y, 64)))
           (.lines (tile (s.base7 b.toNat).toNat d.toNat (r.toNat + 1) t.toNat g)) (s.lat 4 6) none)) ∧
       (let els := gathered s (s.base7 b.toNat) x.toNat g c.toNat m.toNat
        (∀ n ∈ groups, ∀ l, (s.mreg n m.toNat).getLsbD l = true → s.vpois n x.toNat l = false) →
        (∀ e ∈ els, accessOk s e.1 4 4 true 1) →
         exec (.vldx d x b g c m) s = .next (loading s true (granulesOf (els.map fun e => (e.1, 4)))
           (.lanes (els.map fun e => (e.1, e.2.1, d.toNat, e.2.2))) (s.lat 8 10) none)))) ∧
  (∀ (s : State) (d : BitVec 10) (b : BitVec 7) (g : BitVec 8) (t : BitVec 14) (r : BitVec 5) (w : BitVec 2)
     (b6 : BitVec 6) (i7 : BitVec 7), s.pred = true →
     (let a := (s.base7 b.toNat).toNat
      let units := tileUnits a d.toNat (r.toNat + 1) t.toNat w.toNat ((List.range 8).filter fun n => g.getLsbD n)
      let addrs := (units.flatMap fun u => u.1).eraseDups
      (b.toNat < 64 → s.spois b.toNat = false) → (∀ y ∈ addrs, accessOk s y 64 64 true 1) →
       exec (.tld d b g t r 1 w) s = .next (loading s true (granulesOf (addrs.map fun y => (y, 64)))
         (.trans w.toNat units) (s.lat 6 8) none)) ∧
     ((b6.toNat < 48 → s.spois b6.toNat = false) →
       let va := address (s.base6 b6.toNat) (128 * immediate s i7) / 128 * 128
       (va < 0x1000000 → exec (.pref 0 b6 i7) s = .next s) ∧
       (0x1000000 ≤ va → ∀ s' pa leaf, s.translateCtx va .read = (s', .ok pa leaf) → pa < 2 ^ 48 → leafPeer leaf = 0 →
         leaf.getLsbD 8 = false →
         ∃ t, exec (.pref 0 b6 i7) s = .next t ∧ t.isCached pa = true ∧ t.ctx = s'.ctx ∧ t.mem = s'.mem)))

/-- 10 R295 to R297, 02 R77, 08 R222: the scalar stores put the low bytes of d, little-endian, into the store queue at
the address their operands give; a poisoned d stores poison. No memory changes until the store performs. 10 R295, R297,
R298: the vector and tile stores put their enabled lanes into the store queue, line by line; a masked store its mask's
lanes, in all eight groups with GSEL 8; a scatter one element for each enabled lane in group then lane order. -/
def Obligations.StoresEnterTheQueue : Prop :=
  (∀ (s : State) (d6 b6 : BitVec 6) (i7 : BitVec 7) (d : BitVec 10) (b : BitVec 7) (i : BitVec 26) (z : BitVec 2)
     (c : BitVec 3), s.pred = true →
     let n := 2 ^ z.toNat
     let a6 := address (s.base6 b6.toNat) (8 * immediate s i7)
     let a := address (s.base7 b.toNat) i.toInt
     ((b6.toNat < 48 → s.spois b6.toNat = false) → accessOk s a6 8 8 false 2 →
       let g := cell a6 8 (s.sreg d6.toNat) (s.spois d6.toNat)
       exec (.st d6 b6 i7) s = .next (storing s (.store [g] none) (decide (a6 < 0x1000000)) false) ∧
       exec (.strel d6 b6 i7) s =
         .next (storing s (.store [g] (some (scope s 5))) (decide (a6 < 0x1000000)) false)) ∧
     ((b.toNat < 64 → s.spois b.toNat = false) → accessOk s a n n false 2 →
       let g := cell a n (s.sreg d.toNat) (s.spois d.toNat)
       exec (.st64 d b i z) s = .next (storing s (.store [g] none) (decide (a < 0x1000000)) false) ∧
       exec (.strel64 d b i z c) s =
         .next (storing s (.store [g] (some (scope s c.toNat))) (decide (a < 0x1000000)) false))) ∧
  (∀ (s : State) (d6 b6 : BitVec 6) (i7 : BitVec 7) (d x : BitVec 10) (b : BitVec 7) (i : BitVec 26) (g : BitVec 8)
     (t : BitVec 14) (r : BitVec 5) (c : BitVec 2) (m l : BitVec 4), s.pred = true →
     let a6 := address (s.base6 b6.toNat) (64 * immediate s i7)
     let a := address (s.base7 b.toNat) i.toInt
     let put (ls : List (Nat × Nat × Nat)) : State :=
       storing s (.store (ls.flatMap fun y => line s y.1 y.2.1 y.2.2 0xFFFF) none) true true
     ((b6.toNat < 48 → s.spois b6.toNat = false) →
       (accessOk s a6 64 64 true 2 → exec (.vst d6 b6 i7) s = .next (put [(a6, 0, s.vwin d6.toNat)])) ∧
       (a6 % 64 = 0 → (∀ k, (s.mreg 0 1).getLsbD k = true → accessOk s (a6 + 4 * k) 4 4 true 2) →
         exec (.vstm d6 b6 i7) s =
           .next (storing s (.store (line s a6 0 (s.vwin d6.toNat) (s.mreg 0 1)) none) true true))) ∧
     ((b.toNat < 64 → s.spois b.toNat = false) →
       (linesOk s (lines a d.toNat g) 2 → exec (.vst64 d b i g) s = .next (put (lines a d.toNat g))) ∧
       (l.toNat < 8 → a % 64 = 0 →
         (∀ k, (s.mreg l.toNat m.toNat).getLsbD k = true → accessOk s (a + 4 * k) 4 4 true 2) →
         exec (.vstm64 d b i m l) s =
           .next (storing s (.store (line s a l.toNat d.toNat (s.mreg l.toNat m.toNat)) none) true true)) ∧
       (a % 64 = 0 →
         (∀ n, n < 8 → ∀ k, (s.mreg n m.toNat).getLsbD k = true → accessOk s (a + 64 * n + 4 * k) 4 4 true 2) →
         exec (.vstm64 d b i m 8) s = .next (storing s (.store ((List.range 8).flatMap fun n =>
           line s (a + 64 * n) n d.toNat (s.mreg n m.toNat)) none) true true)) ∧
       (linesOk s (tile (s.base7 b.toNat).toNat d.toNat (r.toNat + 1) t.toNat g) 2 →
         exec (.tst d b g t r) s = .next (put (tile (s.base7 b.toNat).toNat d.toNat (r.toNat + 1) t.toNat g))) ∧
       (let els := gathered s (s.base7 b.toNat) x.toNat g c.toNat m.toNat
        (∀ n, n < 8 → g.getLsbD n = true → ∀ k, (s.mreg n m.toNat).getLsbD k = true → s.vpois n x.toNat k = false) →
        (∀ e ∈ els, accessOk s e.1 4 4 true 2) →
         exec (.vstx d x b g c m) s = .next (storing s (.store (els.map fun e =>
           cell e.1 4 ((s.vlane e.2.1 d.toNat e.2.2).setWidth 64) (s.vpois e.2.1 d.toNat e.2.2)) none) true true))))

/-- 10 R280, R288, R291, R292, R303 to R311, 18 R410, R411, 09 R261: a memory word whose address is not a multiple of what its
form asks takes ALIGN before its bundle with the slot position as DETAIL; nothing enters a queue and no register or memory
changes. A scalar access asks for its size; lines, masked stores and tiles for 64 bytes, an element of a gather or scatter for
4; a class P word for what its operand is. 09 R243, R244, 18 R411: a branch to a register's value with bits 1:0 not clear takes
ALIGN before its bundle. -/
def Obligations.MisalignedAccessTakesAlign : Prop :=
  (∀ (s : State) (d6 b6 : BitVec 6) (i7 : BitVec 7) (d y : BitVec 10) (b : BitVec 7) (i26 : BitVec 26) (i19 : BitVec 19)
     (i14 : BitVec 14) (z w c2 : BitVec 2) (x : BitVec 1) (ad : BitVec 12) (c : BitVec 3) (g : BitVec 8) (t : BitVec 14)
     (r : BitVec 5) (m l : BitVec 4) (i : Instr), s.pred = true → s.inh = false →
     (b6.toNat < 48 → s.spois b6.toNat = false) → (b.toNat < 64 → s.spois b.toNat = false) →
     let a := address (s.base7 b.toNat) i26.toInt
     let base := (s.base7 b.toNat).toNat
     ((i = .ld d6 b6 i7 ∨ i = .ldacq d6 b6 i7 ∨ i = .st d6 b6 i7 ∨ i = .strel d6 b6 i7) →
       address (s.base6 b6.toNat) (8 * immediate s i7) % 8 ≠ 0 → takesAlign s i) ∧
     ((i = .ld64 d b i26 z x ∨ i = .ldacq64 d b i26 z x c ∨ i = .st64 d b i26 z ∨ i = .strel64 d b i26 z c) →
       a % 2 ^ z.toNat ≠ 0 → takesAlign s i) ∧
     ((i = .ldl d6 b z x ad i19 ∨ i = .ldacqLong d6 b z x c ad i19) →
       address (s.base7 b.toNat) i19.toInt % 2 ^ z.toNat ≠ 0 → takesAlign s i) ∧
     ((i = .vld d6 b6 i7 ∨ i = .vldb d6 b6 i7 ∨ i = .vst d6 b6 i7 ∨ i = .vstm d6 b6 i7) →
       address (s.base6 b6.toNat) (64 * immediate s i7) % 64 ≠ 0 → takesAlign s i) ∧
     ((i = .vld64 d b i26 g ∨ i = .vldb64 d b i26 g ∨ i = .vst64 d b i26 g ∨ i = .vstm64 d b i26 m l) →
       (g ≠ 0 ∨ i = .vstm64 d b i26 m l) → a % 64 ≠ 0 → takesAlign s i) ∧
     (i = .vldl d b g ad i14 → address (s.base7 b.toNat) (64 * i14.toInt) % 64 ≠ 0 → takesAlign s i) ∧
     ((i = .tld d b g t r x w ∨ i = .tst d b g t r) → g ≠ 0 → base % 64 ≠ 0 → takesAlign s i) ∧
     ((i = .vldx d y b g c2 m ∨ i = .vstx d y b g c2 m) →
       (∀ n, n < 8 → g.getLsbD n = true → ∀ k, (s.mreg n m.toNat).getLsbD k = true → s.vpois n y.toNat k = false) →
       (∃ e ∈ gathered s (s.base7 b.toNat) y.toNat g c2.toNat m.toNat, e.1 % 4 ≠ 0) → takesAlign s i)) ∧
  (∀ (s : State) (d b a r v c : BitVec 6) (n : BitVec 20) (o sc : BitVec 3) (t : BitVec 2) (w x : BitVec 1) (ad : BitVec 12)
     (i : Instr), s.pred = true → s.inh = false → (∀ k ∈ [b, a, r, v, c], s.spois k.toNat = false) →
     let dst := (s.sreg b.toNat).toNat
     let z := etySize t.toNat
     (i = .cpacc b a r n o t →
       ((s.sreg r.toNat + n.setWidth 64).toNat % 2 ^ 40 % z ≠ 0 ∨ dst % z ≠ 0 ∨ (s.sreg a.toNat).toNat % z ≠ 0) →
       takesAlign s i) ∧
     ((i = .cpswap d b v w ad ∨ i = .cpcas d b v c w ad) → dst % (if w = 1 then 8 else 4) ≠ 0 → takesAlign s i) ∧
     (i = .cpsend a → (∀ k, k < 5 → s.spois (a.toNat + k) = false) → (s.sreg (a.toNat + 4)).toNat % 64 ≠ 0 →
       takesAlign s i) ∧
     ((i = .cpbinit b a ∧ (∀ k, k < 3 → s.spois (a.toNat + k) = false) ∨ i = .cparr b r x sc) → dst % 32 ≠ 0 →
       takesAlign s i) ∧
     (i = .cpcoll b → dst % 64 ≠ 0 → takesAlign s i) ∧
     (i = .cprel a b sc → dst % 8 ≠ 0 → takesAlign s i)) ∧
  (∀ (s : State) (r : BitVec 6) (i : Instr), s.pred = true → s.inh = false →
     (i = .bri r ∨ i = .calli r ∨ (i = .ret ∧ r = 47)) → s.spois r.toNat = false → (s.sreg r.toNat).toNat % 4 ≠ 0 →
     ∃ t, exec i s = .next t ∧ trapped s t 0x0B (BitVec.ofNat 16 s.env.pos.toNat) s.issue.addr s.issue.addr ∧
       t.issue.target = s.issue.target ∧ t.issue.trap.isSome = true ∧ t.mem = s.mem)

/-- 09 R243, R244: branches set where the bundle goes next: a word offset from the bundle's own address modulo 2^64, or a
register's value with bits 1:0 clear; calls also owe the address of the next bundle to s47. -/
def Obligations.BranchesAndCalls : Prop :=
  ∀ (s : State) (f : BitVec 19) (f64 : BitVec 51) (r : BitVec 6), s.pred = true →
    let off (i : Int) : Word := BitVec.ofInt 64 ((s.issue.addr : Int) + 4 * i)
    let link := owingS s 47 (BitVec.ofNat 64 s.issue.next) 1
    let v := s.sreg r.toNat
    exec (.br f) s = .next (branching s (off (immediate s f))) ∧
    exec (.br64 f64) s = .next (branching s (off f64.toInt)) ∧
    exec (.call f) s = .next (branching link (off (immediate s f))) ∧
    exec (.call64 f64) s = .next (branching link (off f64.toInt)) ∧
    (s.spois r.toNat = false → v.toNat % 4 = 0 →
      exec (.bri r) s = .next (branching s v) ∧ exec (.calli r) s = .next (branching link v)) ∧
    (s.spois 47 = false → (s.sreg 47).toNat % 4 = 0 → exec .ret s = .next (branching s (s.sreg 47)))

/-- 09 R246 to R248, 07 R195 to R197, R201: LOOP and LOOPN, their body and its energy being good, start the sequencer with the trip count their
registers give; LEXIT ends a loop with the iteration it stands in and does nothing outside one. That the levels of LOOP are
[N, 1, 1, 1] is the model's choice (log 63). -/
def Obligations.LoopsStartAndEnd : Prop :=
  ∀ (s : State) (b ii : BitVec 7) (n0 n1 n2 n3 vr : BitVec 6) (sr : BitVec 5) (body : List (Nat × Nat × Bool × List Slot))
    (after : Nat), clean s [n0.toNat, n1.toNat, n2.toNat, n3.toNat] →
    (s.loopBody s.issue.next ((s.issue.next - s.issue.addr) / 4) b.toNat ii.toNat s.ctx.holds = .ok (body, after) →
      s.energyBad s.issue.weight (some (heaviest ii.toNat s.ctx.holds body)) = none →
      let started (n : Nat) (ns : List Nat) : State := { s with ctx := { s.ctx with
        seq := some { addr := s.issue.addr, after := after, body := body, ii := ii.toNat, n := n, ns := ns, vr := vr.toNat
                      sr := sr.toNat, base0 := s.ctx.c.vwb.toNat % 1024, tick := 0, exit := none, stale := false } } }
      let n32 := (s.sreg n0.toNat).toNat % 2 ^ 32
      let n16 (r : BitVec 6) : Nat := (s.sreg r.toNat).toNat % 2 ^ 16
      exec (.loop b ii n0 vr sr) s = .next (started n32 [n32, 1, 1, 1]) ∧
      exec (.loopn b ii n0 n1 n2 n3 vr sr) s =
        .next (started (n16 n0 * n16 n1 * n16 n2 * n16 n3) [n16 n0, n16 n1, n16 n2, n16 n3])) ∧
    (s.ctx.seq = none → exec .lexit s = .next s) ∧
    (∀ q i, s.ctx.seq = some q → s.issue.iter = some i →
      exec .lexit s = .next { s with ctx := { s.ctx with seq := some { q with exit := some (min (q.exit.getD i) i) } } })

/-- 09 R249 to R252: WAIT on a set bit goes on and clears it if asked, on a clear bit makes the context WAITING; YIELD
makes it READY as the youngest of its core, or freezes it until it can be dormant; RETIRE freezes it until its queues are
empty, and both make landings eager. A lock-step member keeps its core at YIELD with D = 0. NOP does nothing. That a member's
YIELD with D = 1 leaves 0 in its GID is the model's choice (log 39). -/
def Obligations.WaitingYieldingRetiring : Prop :=
  ∀ (s : State) (f : BitVec 5), s.pred = true →
    let eager : State := withQ s { s.ctx.q with landing := s.ctx.q.landing.map fun l => { l with eager := true } }
    exec .nop s = .next s ∧
    (s.ctx.c.flg.getLsbD f.toNat = true → exec (.wait f 0) s = .next s ∧
      exec (.wait f 1) s = .next (withC s { s.ctx.c with flg := s.ctx.c.flg &&& ~~~ (1#64 <<< f.toNat) })) ∧
    (s.ctx.c.flg.getLsbD f.toNat = false → ∀ c : BitVec 1,
      exec (.wait f c) s = .next { s with ctx := { s.ctx with st := .waiting f.toNat (c == 1) s.ctx.q.nextId } }) ∧
    (s.ctx.c.gid.getLsbD 9 = false →
      exec (.yield 0) s = .next { s with
        ctx := { s.ctx with st := .ready, readyAt := s.core.nextReady }
        core := { s.core with nextReady := s.core.nextReady + 1 } } ∧
      exec (.yield 1) s = .next (frozenBy eager .dormancy)) ∧
    (s.ctx.c.gid.getLsbD 9 = true → exec (.yield 0) s = .next s) ∧
    (s.ctx.c.gid.getLsbD 9 = true → ∃ t, exec (.yield 1) s = .next t ∧ t.ctx.c.gid = 0 ∧
      Freeze.dormancy ∈ t.ctx.freezes ∧ t.ctx.regs = s.ctx.regs ∧ t.mem = s.mem) ∧
    (s.ctx.txState ≠ 1 → exec .retire s = .next (frozenBy eager .retire)) ∧
    (s.ctx.txState = 1 → ∃ t, exec .retire s = .next t ∧ t.ctx.c.txs.extractLsb' 2 2 = 0#2 ∧
      Freeze.retire ∈ t.ctx.freezes ∧ t.ctx.regs = s.ctx.regs ∧ t.mem = s.mem)

/-- 07 R202, R208, R211, 09 R253, R266: the settings wait for their bundle, 4 bundles for FMT, BAL and WAL and 1 for the
rest; OPSET starts a step of the cluster's operating point, which runs at the lower of the two points, or queues. 07
R202, R211, 09 R266: a due write of BAL or WAL takes effect at its event, a due write of FMT at its own, and one that is
not due waits. -/
def Obligations.SettingsWaitAndTakeEffect : Prop :=
  (∀ (s : State) (r : BitVec 6) (cr : BitVec 10) (i23 : BitVec 23) (a : BitVec 10) (w : BitVec 13) (t : BitVec 3),
     s.pred = true →
     let o := s.clu.oper
     let v := s.sreg r.toNat
     exec (.fmtset64 i23) s = .next (setting s 1 (i23.setWidth 64) 4) ∧
     exec (.balset a) s = .next (setting s 2 (a.setWidth 64) 4) ∧
     exec (.walset w) s = .next (setting s 3 (w.setWidth 64) 4) ∧
     (s.spois r.toNat = false →
       (fmtWordOk v = true →
         exec (.fmtset r) s = .next (setting s 1 v 4) ∧ exec (.cwr r 1) s = .next (setting s 1 v 4)) ∧
       (cr ≠ 1 → exec (.cwr r cr) s = .next (setting s cr.toNat v (if cr = 2 ∨ cr = 3 then 4 else 1)))) ∧
     (o.settling = true ∨ o.mgmt.isSome = true ∨ o.back.isSome = true →
       exec (.opset t) s = .next { s with clu := { s.clu with oper := { o with queued := some t.toNat } } }) ∧
     (o.settling = false → o.mgmt = none → o.back = none → o.cur = t.toNat →
       exec (.opset t) s = .next { s with clu := { s.clu with oper := { o with
         tgt := t.toNat, settling := false, byMgmt := false, step := t.toNat } } }) ∧
     (o.settling = false → o.mgmt = none → o.back = none → o.cur < t.toNat →
       exec (.opset t) s = .next { s with clu := { s.clu with oper := { o with
         cur := o.cur, tgt := t.toNat, settling := true, byMgmt := false, step := o.cur + 1
         due := s.clu.tick + Config.settleTicks o.cur } } }) ∧
     (o.settling = false → o.mgmt = none → o.back = none → t.toNat < o.cur →
       exec (.opset t) s = .next { s with clu := { s.clu with oper := { o with
         cur := o.cur - 1, tgt := t.toNat, settling := true, byMgmt := false, step := o.cur - 1
         due := s.clu.tick + Config.settleTicks (o.cur - 1) } } })) ∧
  (∀ (s : State) (v : Word) (k : Nat),
     (s.ctx.settings = [⟨2, v, 0⟩] → exec .settingTakesEffect s =
       .next { s with ctx := { s.ctx with settings := [], c := { s.ctx.c with bal := v &&& 0x3FF } } }) ∧
     (s.ctx.settings = [⟨3, v, 0⟩] → exec .settingTakesEffect s =
       .next { s with ctx := { s.ctx with settings := [], c := { s.ctx.c with wal := v &&& 0x1FFF } } }) ∧
     (s.ctx.settings = [⟨1, v, 0⟩] → exec .fmtTakesEffect s =
       .next { s with ctx := { s.ctx with settings := [], c := { s.ctx.c with fmt := v &&& 0x7FFFFF } } }) ∧
     (s.ctx.settings = [⟨2, v, k + 1⟩] ∨ s.ctx.settings = [⟨3, v, k + 1⟩] → exec .settingTakesEffect s = .next s) ∧
     (s.ctx.settings = [⟨1, v, k + 1⟩] → exec .fmtTakesEffect s = .next s))

/-- 09 R266: CRD owes the value in force of every control register the table has, and reading FILLC clears it; what a
write changes when it takes effect is the register's RW fields, and a read-only register keeps its value. GSK of a group member
reads at least what was written (07 R193). -/
def Obligations.ControlRegistersReadAndWrite : Prop :=
  (∀ (s : State) (d : BitVec 6) (r : BitVec 10), s.pred = true →
    (r ≠ 0x23 → exec (.crd d r) s = .next (owingS s d (s.creg r.toNat) 1)) ∧
    exec (.crd d 0x23) s = .next { owingS s d s.clu.fillc 1 with clu := { s.clu with fillc := 0 } }) ∧
  (∀ (s : State) (v : Word),
    let after (n : Nat) : State := withC s (s.ctx.c.put n v)
    (after 1).creg 1 = v &&& 0x7FFFFF ∧ (after 2).creg 2 = v &&& 0x3FF ∧ (after 3).creg 3 = v &&& 0x1FFF ∧
    (after 4).creg 4 = v &&& 0xFFFFFFFF ∧ (after 8).creg 8 = v ∧ (after 9).creg 9 = v ∧
    (after 0xC).creg 0xC = v &&& 0xFFFFFFFFFFFFC ∧ (after 0xD).creg 0xD = v &&& 0xFFFFFFFFFFFFC ∧
    (s.ctx.seq = none → (after 7).creg 7 = v &&& 0x3FF) ∧
    (∀ n, n < 4 → (after (0x40 + n)).creg (0x40 + n) = v ∧ (after (0x44 + n)).creg (0x44 + n) = v &&& 0xFC00008F) ∧
    (after 0xF).ctx.c.gsk = v &&& 0x3F ∧ (s.ctx.c.gid.getLsbD 9 = false → (after 0xF).creg 0xF = v &&& 0x3F) ∧
    (s.ctx.c.gid.getLsbD 9 = true → v &&& 0x3F ≤ (after 0xF).creg 0xF) ∧
    (∀ n, n ∈ [0, 5, 6, 0xA, 0xB, 0xE, 0x10, 0x11, 0x12, 0x20, 0x21, 0x22, 0x23, 0x28, 0x29, 0x2A, 0x2B, 0x2C, 0x2D, 0x2E, 0x2F] →
      s.ctx.c.put n v = s.ctx.c) ∧
    (∀ m n, m ∈ [1, 2, 3, 4, 8, 9, 0xC, 0xD, 0xF, 0x40, 0x47] →
      n ∈ [0, 1, 2, 3, 4, 8, 9, 0xA, 0xB, 0xC, 0xD, 0xF, 0x40, 0x47] → m ≠ n → (after m).creg n = s.creg n))

/-- 07 R191 to R193, 05 R157, R160, 09 R254 to R256: GJOIN joins and says so in a predicate, or answers false; GLEAVE gives
up the group; QMARK enters both queues under one number; VJOIN, FENCE and FENCEP go on at once where nothing before them is
outstanding and freeze the context otherwise. That GLEAVE leaves 0 in the GID (log 39) and that QMARK takes an entry in each
queue (log 35) are the model's choices. -/
def Obligations.GroupsJoinsFences : Prop :=
  ∀ (s : State) (g : BitVec 8) (c4 : BitVec 4) (k c : BitVec 3), s.pred = true →
    let n := s.ctx.q.nextId
    let fn := scope s c.toNat
    (s.ctx.c.gid.getLsbD 9 = false → s.coreHasMember = false →
      exec (.gjoin g c4 k) s = .next { s with ctx := { (owingK s k.toNat true false).ctx with
        c := { s.ctx.c with gid := BitVec.ofNat 64 (512 + g.toNat) }, members := c4.toNat + 1 } }) ∧
    (s.ctx.c.gid.getLsbD 9 = true ∨ s.coreHasMember = true →
      exec (.gjoin g c4 k) s = .next (owingK s k.toNat false false)) ∧
    (s.ctx.c.gid.getLsbD 9 = false → exec .gleave s = .next s) ∧
    (s.ctx.c.gid.getLsbD 9 = true → ∃ t, exec .gleave s = .next t ∧ t.ctx.c = { s.ctx.c with gid := 0 } ∧
      t.ctx.members = 0 ∧ Freeze.lockstep ∉ t.ctx.freezes ∧ t.ctx.regs = s.ctx.regs ∧ t.mem = s.mem) ∧
    exec (.qmark c) s = .next (withQ s { s.ctx.q with
      nextId := n + 1
      sq := s.ctx.q.sq ++ [storeEntry s (.mark fn) false false]
      lq := s.ctx.q.lq ++ [{ loadEntry s (.mark fn) false [] (.lines []) 0 none with snp := 0 }] }) ∧
    (s.joined n = true → exec .vjoin s = .next s) ∧
    (s.joined n = false → exec .vjoin s = .next (frozenBy s (.vjoin n))) ∧
    (s.fenced fn n = true → exec (.fence c) s = .next s) ∧
    (s.fenced fn n = false → exec (.fence c) s = .next (frozenBy s (.fence fn n))) ∧
    (s.dieDrained c.toNat n = true → exec (.fencep c) s = .next s) ∧
    (s.dieDrained c.toNat n = false → exec (.fencep c) s = .next (frozenBy s (.fencep c.toNat n)))

/-- 03 R87 to R111, 09 R257 to R259: transaction and snapshot words ask HD0 by a store-queue entry and a landing entry of
one number; TXBEGIN makes the transaction ACTIVE, TXCOMMIT COMMITTING, TXABORT none with cause EXPLICIT. -/
def Obligations.TransactionsAndSnapshotsAsk : Prop :=
  ∀ (s : State) (d r : BitVec 6) (k : BitVec 3) (ad : BitVec 10), s.pred = true →
    let n := s.ctx.q.nextId
    let id := s.sname d.toNat
    let v := (s.sreg r.toNat).setWidth 32
    (s.ctx.txState = 0 → ∃ w : Word, exec (.txbegin ad) s =
        .next (withC (asking s .txBegin ad.toNat (.txBegin n)) { s.ctx.c with txs := w }) ∧
      w.extractLsb' 2 2 = 1#2 ∧ w.getLsbD 1 = false ∧ w.extractLsb' 4 60 = s.ctx.c.txs.extractLsb' 4 60) ∧
    (s.ctx.txState = 1 → ∃ w : Word, exec (.txcommit d k ad) s =
        .next (withC (asking s (.txCommit id k.toNat) ad.toNat (.txCommit n)) { s.ctx.c with txs := w }) ∧
      w.extractLsb' 2 2 = 2#2 ∧ w.getLsbD 1 = false ∧ w.extractLsb' 4 60 = s.ctx.c.txs.extractLsb' 4 60) ∧
    (s.ctx.txState = 1 → ∃ t, exec .txabort s = .next t ∧ t.ctx.c.txs.extractLsb' 2 2 = 0#2 ∧
      t.ctx.c.txs.extractLsb' 4 4 = 5#4 ∧ t.ctx.txid = none ∧ t.ctx.regs = s.ctx.regs ∧ t.mem = s.mem) ∧
    exec (.snapnew d k ad) s = .next (asking s (.snapNew id k.toNat) ad.toNat (.snapNew n)) ∧
    (s.spois r.toNat = false →
      exec (.snapset r k ad) s = .next (asking s (.snapSet k.toNat) ad.toNat (.snapSet n v)) ∧
      exec (.snapdrop r k ad) s = .next (asking s (.snapDrop k.toNat) ad.toNat (.snapDrop n v)))

/-- 09 R257, R258, R261: a transaction word in the wrong state takes TX_NESTING before its bundle with DETAIL 1, 2 or 3.
09 R261, R263: TRAP and BKPT take their trap after the bundle: cause SW_TRAP with their code as DETAIL, or BKPT; TBUND
names the bundle and TNEXT the next one. 09 R262: a trap raised in the handler is a double trap: the context stops for
good and is retired, its snapshot bound no more (03 R91), with no register, other control register or memory changed by the
trap. -/
def Obligations.TrapsAndDoubleTraps : Prop :=
  (∀ (s : State) (d : BitVec 6) (k : BitVec 3) (ad : BitVec 10) (i : Instr) (n : Nat), s.pred = true → s.inh = false →
     (i = .txbegin ad ∧ n = 1 ∧ s.ctx.txState ≠ 0 ∨ i = .txcommit d k ad ∧ n = 2 ∧ s.ctx.txState ≠ 1 ∨
       i = .txabort ∧ n = 3 ∧ s.ctx.txState ≠ 1) →
     ∃ t, exec i s = .next t ∧ trapped s t 0x0D (BitVec.ofNat 16 n) s.issue.addr s.issue.addr ∧
       t.issue.trap.isSome = true ∧ t.mem = s.mem) ∧
  (∀ (s : State) (c : BitVec 16), s.pred = true → s.inh = false →
     (∃ t, exec (.trap c) s = .next t ∧ trapped s t 0x0F c s.issue.addr s.issue.next ∧ t.issue = s.issue ∧ t.mem = s.mem) ∧
     (∃ t, exec .bkpt s = .next t ∧ trapped s t 0x0E 0 s.issue.addr s.issue.next ∧ t.issue = s.issue ∧ t.mem = s.mem)) ∧
  (∀ (s : State) (c : BitVec 16), s.pred = true → s.inh = true →
     ∃ t, exec (.trap c) s = .next t ∧ t.ctx.st = .retired ∧ t.ctx.stop = true ∧ t.ctx.regs = s.ctx.regs ∧
       t.ctx.c = { s.ctx.c with snap := 0 } ∧ t.mem = s.mem ∧ t.ctxs = s.ctxs)

/-- 09 R264: ERET in the handler, nothing of the handler outstanding, resumes at TNEXT with INH clear, the captured
stores ahead of the store queue, and the saved holds and loop unless TNEXT was changed while a loop was saved. While
landings of the handler remain it freezes the context instead. 09 R264: once the handler's last landing is written, the
program resumes at TNEXT with INH clear. 09 R264, R265, 18 R418: ERET outside a handler takes ILLEGAL_ENCODING with
DETAIL 3; SYSC posts a record of type 3 with SVC, s8 to s11, the tenant and the sender, where no ring is set up and the
overflow store has room, and changes nothing of the context but the record that leaves it. -/
def Obligations.ReturnsFromTheHandler : Prop :=
  (∀ (s : State) (sv : Saved), s.pred = true → s.inh = true → s.ctx.saved = some sv →
     (s.ctx.q.handlerOwes = false → ∃ t, exec .eret s = .next t ∧
       t.ctx.pc = s.ctx.c.tnext.toNat % 2 ^ 52 / 4 * 4 ∧ t.ctx.c.tcause.getLsbD 31 = false ∧ t.ctx.saved = none ∧
       t.ctx.q.sq = (s.ctx.q.csq ++ s.ctx.q.sq).map unhandled ∧ t.ctx.q.csq = [] ∧ t.ctx.q.results = [] ∧ t.mem = s.mem ∧
       (sv.tnext = s.ctx.c.tnext → t.ctx.holds = sv.holds ∧ t.ctx.seq = sv.seq) ∧
       (sv.tnext ≠ s.ctx.c.tnext → t.ctx.seq = none ∧ (sv.seq.isSome → t.ctx.holds = []))) ∧
     (s.ctx.q.handlerOwes = true → ∃ t, exec .eret s = .next t ∧ Freeze.eret ∈ t.ctx.freezes ∧
       t.ctx.saved = some sv ∧ t.ctx.c = s.ctx.c ∧ t.ctx.pc = s.ctx.pc ∧ t.mem = s.mem)) ∧
  (∀ (s : State), Freeze.eret ∈ s.ctx.freezes →
     (s.ctx.q.handlerOwes = true → exec .eretResume s = .next s) ∧
     (s.ctx.q.handlerOwes = false → ∃ t, exec .eretResume s = .next t ∧
       t.ctx.pc = s.ctx.c.tnext.toNat % 2 ^ 52 / 4 * 4 ∧ t.ctx.c.tcause.getLsbD 31 = false ∧ t.ctx.saved = none ∧
       t.ctx.q.sq = (s.ctx.q.csq ++ s.ctx.q.sq).map unhandled ∧ t.mem = s.mem)) ∧
  (∀ (s : State) (f : BitVec 5) (v : BitVec 14), s.pred = true →
     (s.inh = false → ∃ t, exec .eret s = .next t ∧ trapped s t 0x02 3 s.issue.addr s.issue.addr ∧ t.mem = s.mem) ∧
     (s.ctx.q.sysc = [] → (NatMap.get Tenant.reset s.tenants (s.tidOf s.ctx)).fqbase = 0 → s.fqOver.length < 65536 →
       exec (.sysc f v) s = .next { s with fqOver := s.fqOver ++ [⟨s.tidOf s.ctx,
         [BitVec.ofNat 64 (3 + v.toNat * 65536 + s.tidOf s.ctx * 2 ^ 32), 0, BitVec.ofNat 64 s.ctx.src,
          BitVec.ofNat 64 (s.ctx.c.lid.toNat % 65536), s.sreg 8, s.sreg 9, s.sreg 10, s.sreg 11]⟩] }))

/-- 13 R360 to R362, R368, R359: AMODE sets mode, base function, clamp and G; AZERO clears what its target names; ASWAP
exchanges the weight slots of the two planes and their descriptors; SCALE, SCX and SCKEY put their latch writes three
bundles ahead. 13 R349, R350: a word of class A or K in a context that does not own the array takes MXOWN before its
bundle and leaves the array, the registers and memory as they are. -/
def Obligations.ArraySettingsNeedTheArray : Prop :=
  (∀ (s : State) (m c1 : BitVec 1) (b c : BitVec 2) (g t n : BitVec 3) (r : BitVec 6) (f : BitVec 4), owner s [r.toNat] →
     let a := s.core.array
     let v := s.sreg r.toNat
     let bytes (tgt : Nat) : List LatchWrite := (List.range (n.toNat + 1)).map fun k =>
       ⟨tgt, f.toNat + k, BitVec.ofNat 64 (v.toNat / 2 ^ (8 * k) % 256), 3, s.inh⟩
     exec (.amode m b c g) s = .next (withA s { a with
       spline := m == 1, basef := b.toNat, clamp := c.toNat, g := 2 ^ g.toNat
       pass := some { pass0 s (.amode m b c g) [] with k := 1, ran := true } }) ∧
     (∃ x u, exec (.azero t) s = .next { withA s x with upsets := u } ∧ (∀ y ∈ u, y ∈ s.upsets) ∧
       (t.toNat ≤ 1 → ∀ i j, i < 256 → j < 64 → x.accAt t.toNat i j = 0 ∧ x.accBad t.toNat i j = false ∧
         x.accAt (1 - t.toNat) i j = a.accAt (1 - t.toNat) i j) ∧
       (t = 2 → ∀ i j, x.accAt 0 i j = 0 ∧ x.accAt 1 i j = 0) ∧
       (t = 3 → (∀ i j, x.accAt 2 i j = 0) ∧ x.acc = a.acc) ∧
       (t = 4 → ∀ i j q, q < 20 → x.grad i j q = 0) ∧
       (t = 5 → x.oog = [] ∧ x.acc = a.acc ∧ x.racc = a.racc)) ∧
     (s.upsets = [] → a.sp.Pairwise (fun u v => u.1 < v.1) →
       ∃ x, exec .aswap s = .next (withA s x) ∧ x.live = a.shadow ∧ x.shadow = a.live ∧ x.gp = a.gp ∧ x.acc = a.acc ∧
         (∀ i j y, y < 40 → planeByte x.sp i j y = planeByte a.cp i j y ∧ planeByte x.cp i j y = planeByte a.sp i j y) ∧
         (∀ i j y, 40 ≤ y → y < 64 → planeByte x.cp i j y = planeByte a.cp i j y)) ∧
     exec (.scale r c1 f n) s = .next (withA s { a with latches := a.latches ++ bytes c1.toNat }) ∧
     exec (.scx r f n) s = .next (withA s { a with latches := a.latches ++ bytes 2 }) ∧
     exec (.sckey r) s = .next (withA s { a with latches := a.latches ++ [⟨3, 0, v, 3, s.inh⟩] })) ∧
  (∀ (s : State) (i : Instr) (r : BitVec 6) (f : BitVec 4) (n t g : BitVec 3) (b : BitVec 2), clean s [r.toNat] →
     s.inh = false → s.core.array.owner ≠ some s.cur → s.core.array.pass = none →
     i ∈ [Instr.aswap, .arefine, .azero t, .amode 1 b b g, .scx r f n, .sckey r, .aupd r 1] →
     ∃ x, exec i s = .next x ∧ trapped s x 0x06 0 s.issue.addr s.issue.addr ∧ x.issue.trap.isSome = true ∧
       x.core.array = s.core.array ∧ x.mem = s.mem)

/-- 13 R356 to R358, R369: step 0 of ALD and ALDS starts the descriptor of its plane anew with the kind its layout names and
leaves the other plane, the gradients and the accumulators alone; AKNOT loads the knots. A stream that has read nothing ahead
reads the window as it stands (05 R149). -/
def Obligations.PlaneLoads : Prop :=
  ∀ (s : State) (b : BitVec 7) (k : BitVec 9) (n : BitVec 6) (t : BitVec 1) (l : BitVec 2) (b6 : BitVec 6) (d : BitVec 13),
    (∀ r, b.toNat < 64 ∧ r = b.toNat ∨ b6.toNat < 48 ∧ r = b6.toNat → s.spois r = false) → owner s [] →
    let a := s.core.array
    let fmt := s.ctx.c.fmt
    let w : Load := ⟨(s.base7 b.toNat).toNat, k.toNat, n.toNat, t == 1, l.toNat⟩
    let kind : PlaneKind := [PlaneKind.dense, .sparse, .spline].getD l.toNat .spline
    (aldFmtOk fmt l.toNat k.toNat = true →
      (streamsOk s [(w.image, imageAlign l.toNat (fmtB fmt))] (s.loadReads w ⟨false⟩ fmt 0) [] [] →
        ∃ x, exec (.ald b k n t l) s = .next (withA s x) ∧ x.live.kind = kind ∧ x.sp = a.sp ∧ x.shadow = a.shadow ∧
          x.gp = a.gp ∧ x.acc = a.acc ∧ x.racc = a.racc ∧ (x.pass.map fun p => p.k) = some 1) ∧
      (streamsOk s [(w.image, imageAlign l.toNat (fmtB fmt))] (s.loadReads w ⟨true⟩ fmt 0) [] [] →
        ∃ x, exec (.alds b k n t l) s = .next (withA s x) ∧ x.shadow.kind = kind ∧ x.cp = a.cp ∧ x.live = a.live ∧
          x.gp = a.gp ∧ x.acc = a.acc ∧ x.racc = a.racc ∧ (x.pass.map fun p => p.k) = some 1)) ∧
    (let base := address (s.base6 b6.toNat) (512 * d.toInt)
     streamsOk s [(base, 64)] [(base, 512)] [] [] →
      ∃ x, exec (.aknot b6 d) s = .next (withA s x) ∧ x.cp = a.cp ∧ x.acc = a.acc ∧
        (∀ i y, i < 64 → y < 4 → byteOf (NatMap.get 0 x.klo i) y = (s.winByte (base + 4 * i + y)).getD 0 ∧
          byteOf (NatMap.get 0 x.kih i) y = (s.winByte (base + 256 + 4 * i + y)).getD 0)) ∧
    (∀ v, s.ctx.streamed = [] → (s.winBad [(v, 1)] = false →
      s.winByte v = some (s.byte (localPa s.clusterId (swizzle v)))))

/-- 13 R363 to R366: step 0 of AMM and AMMS, no load beside it and no poison about, writes row O of its bank: element `j` is
Accum of the terms of column `j`, from 0 where C asks for it. Other rows, the other bank and the planes stay. -/
def Obligations.MatrixPasses : Prop :=
  ∀ (s : State) (i : Instr) (b z : BitVec 7) (rs : BitVec 12) (k : BitVec 9) (o : BitVec 8) (n c : BitVec 1) (w : BitVec 2)
    (y : BitVec 2) (sparse : Bool), owner s [] → (b.toNat < 64 → s.spois b.toNat = false) →
    i = (if sparse then .amms b rs k o n c w 0 y z else .amm b rs k o n c w 0 y z) →
    let a := s.core.array
    let base := (s.base7 b.toNat).toNat
    let fmt := s.ctx.c.fmt
    let p := pass0 s i [base, 0]
    let reads := elemReads (fmtA fmt) (base % 2 ^ 64) (if sparse then liveElems a.live k.toNat else List.range (k.toNat + 1))
    ammFmtOk fmt w.toNat = true → a.spline = false → a.live.kind = (if sparse then .sparse else .dense) →
    (sparse = true → liveCount a.live.bitmap ≤ 64) → a.poison = [] → a.accPoison = [] → s.winBad reads = false →
    s.residues = [] → streamsOk s [(base, 64)] reads [] [] →
    ∃ x, exec i s = .next x ∧ onlyArray s x ∧ x.core.array.cp = a.cp ∧ x.core.array.live = a.live ∧
      x.core.array.racc = a.racc ∧ (x.core.array.pass.map fun q => q.k) = some 1 ∧
      (∀ j, j < 64 →
        let code (e : Nat) : Nat := elemCode (fmtA fmt) (fun q => s.winVal (base + q)) e
        x.core.array.accAt n.toNat o.toNat j = p.accum s.draws o.toNat j n.toNat
          (if c = 1 then 0 else a.accAt n.toNat o.toNat j)
          (termVals (if sparse then a.ammsTerms p code k.toNat j else a.ammTerms p code k.toNat j))) ∧
      (∀ m r j, m < 2 → r < 256 → j < 64 → (m ≠ n.toNat ∨ r ≠ o.toNat) →
        x.core.array.accAt m r j = a.accAt m r j)

/-- 13 R371 to R374: AEVAL, ABWD and AGRAD read a sample's rows at even steps, keeping them for the odd step, and change nothing
else there but that AGRAD at step 0 clears the gradients where C asks for it; the odd step of AEVAL and ABWD makes one row of sums,
that of AGRAD adds to the gradients. That rows which no even step has read are free values is the model's choice (log 70). 13
R367, R368, R375 to R377: step k of AUPD adds alpha times the gradient to each coefficient of row k mod 64 (in linear mode the
weight) and clears the gradient; AREFINE doubles G and clears the gradients; AEXTEND adds its two counts to G. Other rows and
the accumulators stay. -/
def Obligations.TrainingPassesAndUpdates : Prop :=
  (∀ (s : State) (p : Pass) (b z : BitVec 7) (r q : BitVec 12) (o : BitVec 8) (n c : BitVec 1),
     (s.core.array.pass = none → ∀ x ∈ [b, z], x.toNat < 64 → s.spois x.toNat = false) →
     let a := s.core.array
     let bases := [(s.base7 b.toNat).toNat, (s.base7 z.toNat).toNat]
     let m := p.k / 2
     let row := (o.toNat + m) % 256
     let xb := strideAt (p.opnds.headD 0) r.toNat m
     let db := strideAt (p.opnds.getD 1 0) q.toNat m
     let done (l : List W32) : Pass := { p with k := p.k + 1, ran := true, cut := false, row := l }
     let rows := s.rowsOf p
     let pos := if a.spline then a.positions (rows.2.take 64) else []
     let d := rows.2.drop 64
     let quiet : Prop := s.upsets = [] ∧ s.residues = [] ∧ a.accPoison = [] ∧ a.raccPoison = []
     a.poison = [] →
     (stepOf s (.aeval b r o n c) (bases.take 1) p → a.spline = true → a.live.kind = .spline →
       (p.k % 2 = 0 → streamsOk s (if p.ran then [] else [(p.opnds.headD 0, 64)]) [(xb, 256)] [] [] →
         s.winBad [(xb, 256)] = false →
         ∃ x, exec (.aeval b r o n c) s = .next x ∧ onlyArray s x ∧
           x.core.array = { a with pass := some (done (s.winRow xb)) }) ∧
       (p.k % 2 = 1 → quiet →
         ∃ x, exec (.aeval b r o n c) s = .next x ∧ onlyArray s x ∧ x.core.array.pass = some (done []) ∧
           x.core.array.cp = a.cp ∧ x.core.array.oog = (a.countOut pos).oog ∧
           (∀ j, j < 64 → x.core.array.accAt n.toNat row j = p.accum rows.1.draws row j n.toNat
             (if c = 1 then 0 else a.accAt n.toNat row j) (termVals (a.evalTerms pos j))) ∧
           (∀ k i j, k < 2 → i < 256 → j < 64 → (k ≠ n.toNat ∨ i ≠ row) → x.core.array.accAt k i j = a.accAt k i j))) ∧
     (stepOf s (.abwd b r z q o c) bases p → (p.ran = true ∨ a.trainBad p.fmt = false) →
       let xr := if a.spline then [(xb, 256)] else []
       (p.k % 2 = 0 → streamsOk s (if p.ran then [] else (p.opnds.getD 1 0, 64) ::
           (if a.spline then [(p.opnds.headD 0, 64)] else [])) xr [(db, 256)] [] →
         s.winBad ((db, 256) :: xr) = false →
         ∃ x, exec (.abwd b r z q o c) s = .next x ∧ onlyArray s x ∧ x.core.array =
           { a with pass := some (done ((if a.spline then s.winRow xb else List.replicate 64 0) ++ s.winRow db)) }) ∧
       (p.k % 2 = 1 → quiet →
         ∃ x, exec (.abwd b r z q o c) s = .next x ∧ onlyArray s x ∧ x.core.array.pass = some (done []) ∧
           x.core.array.cp = a.cp ∧ x.core.array.acc = a.acc ∧
           (∀ i, i < 64 → x.core.array.accAt 2 row i =
             if a.spline && (pos.getD i none).isNone then BitVec.ofNat 32 (canonNan 0)
             else p.accum rows.1.draws row i 0 (if c = 1 then 0 else a.accAt 2 row i)
               ((a.bwdTerms i (pos.getD i none) d).flatMap fun t => t.2.map fun v =>
                 match v with | some (f, g) => t.1.mul (f.mul g) | none => .zero)) ∧
           (∀ i j, j < 64 → i ≠ row → x.core.array.accAt 2 i j = a.accAt 2 i j))) ∧
     (stepOf s (.agrad b r z q c) bases p → (p.ran = true ∨ a.trainBad p.fmt = false) →
       (p.k % 2 = 0 → streamsOk s (if p.ran then [] else [(p.opnds.headD 0, 64), (p.opnds.getD 1 0, 64)])
           [(xb, 256)] [(db, 256)] [] → s.winBad [(xb, 256), (db, 256)] = false →
         ∃ x, exec (.agrad b r z q c) s = .next x ∧ onlyArray s x ∧ x.core.array =
           { (if p.k = 0 ∧ c = 1 then a.clearGrads else a) with pass := some (done (s.winRow xb ++ s.winRow db)) }) ∧
       (p.k % 2 = 1 → quiet → 1 ≤ a.g → a.g ≤ 16 →
         ∃ x, exec (.agrad b r z q c) s = .next x ∧ onlyArray s x ∧ x.core.array.pass = some (done []) ∧
           x.core.array.acc = a.acc ∧ x.core.array.racc = a.racc ∧
           ∀ i j, i < 64 → j < 64 →
             (∀ y, y < 40 → planeByte x.core.array.cp i j y = planeByte a.cp i j y) ∧
             (a.spline = true → ∀ k, k < 20 → x.core.array.grad i j k =
               gradAfter a (pos.getD i none) (d.getD j 0) (a.grad i j k) k) ∧
             (a.spline = false → x.core.array.grad i j 0 = toF32 rne (flSum false [f32 (a.grad i j 0),
               (f32 (d.getD j 0)).mul (f32 ((rows.2.take 64).getD i 0))]) ∧
               ∀ k, 0 < k → k < 20 → x.core.array.grad i j k = a.grad i j k)))) ∧
  (∀ (s : State) (p : Pass) (r : BitVec 6) (rr : BitVec 5), (s.core.array.pass = none → s.spois r.toNat = false) →
     stepOf s (.aupd r rr) [(s.sreg r.toNat).toNat % 2 ^ 32] p →
     let a := s.core.array
     let k := p.k % 64
     let idx := if a.spline then List.range (a.g + 4) else [0]
     a.poison = [] → s.upsets = [] → s.residues = [] → a.g ≤ 16 → (p.ran = true ∨ a.trainBad p.fmt = false) →
     ∃ x, exec (.aupd r rr) s = .next (withA s x) ∧ x.acc = a.acc ∧ x.live = a.live ∧
       x.pass = some { p with k := p.k + 1, ran := true, cut := false } ∧
       (∀ j y, j < 64 → y ∈ idx → x.grad k j y = 0 ∧
         slotOf x.cp k j y = roundFloat 1
           ⟨5, rr.toNat, drawBits p.sckey (counter 4 (p.apc.toNat + k * 2 ^ 32 + j * 2 ^ 38 + y * 2 ^ 44)) 0 rr.toNat⟩ 1
           (clip 1 1 0 (flSum false [a.coef k j y,
             (f32 (BitVec.ofNat 32 (p.opnds.headD 0))).mul (f32 (a.grad k j y))])) % 2 ^ 16) ∧
       (∀ i j y, i ≠ k → i < 64 → j < 64 → y < 64 → planeByte x.cp i j y = planeByte a.cp i j y)) ∧
  (∀ (s : State) (l u : BitVec 4), owner s [] →
     let a := s.core.array
     a.poison = [] → s.upsets = [] →
     (a.spline = true →
       (a.g ≠ 16 → ∃ x, exec .arefine s = .next (withA s x) ∧ x.g = 2 * a.g ∧ x.gp = [] ∧ x.klo = a.klo ∧
         x.acc = a.acc ∧ x.live = a.live) ∧
       (a.g + l.toNat + u.toNat ∈ [1, 2, 4, 8, 16] →
         ∃ x, exec (.aextend l u) s = .next (withA s x) ∧ x.g = a.g + l.toNat + u.toNat ∧ x.kih = a.kih ∧
           x.acc = a.acc ∧ x.live = a.live)))

/-- 13 R378 to R380: the readout words owe their rows to the registers of successive lane groups, from the accumulators, the
gradients with their poison, the counters or a plane; AOUTS sends its row's granules on their way to the banks of the local
window. A clearing form sets +0 what it has read. -/
def Obligations.ArrayReadout : Prop :=
  ∀ (s : State) (d : BitVec 10) (d6 m : BitVec 6) (b : BitVec 7) (g : BitVec 3) (c : BitVec 2) (o e : BitVec 8)
    (o6 : BitVec 6) (q : BitVec 5) (x l : BitVec 1) (q12 : BitVec 12), owner s [m.toNat] →
    (b.toNat < 64 → s.spois b.toNat = false) → s.upsets = [] →
    let a := s.core.array
    let fmt := s.ctx.c.fmt
    let w := codeWidth (fmtO fmt)
    let mul := f32 (BitVec.ofNat 32 (s.outMul m.toNat))
    (outFmtOk fmt = true → a.accPoison = [] → a.raccPoison = [] →
      (outFits fmt g.toNat = true →
        ∃ y, exec (.aout d g c o m e x) s = .next y ∧
          y.ctx.q.results = s.ctx.q.results ++ (List.range (max 1 (w / 8))).map (fun k =>
            ⟨.vreg (g.toNat + k) d.toNat, BitVec.ofNat 512
              (s.outRow (pass0 s (.aout d g c o m e x) []) mul e.toInt g.toNat c.toNat o.toNat / 2 ^ (512 * k)),
             if w = 4 then 0xFF else 0xFFFF, 0, 8, false⟩) ∧
          (x = 1 → ∀ j, j < 64 → y.core.array.accAt c.toNat o.toNat j = 0) ∧
          (x = 0 → y.core.array.acc = a.acc ∧ y.core.array.racc = a.racc) ∧ y.mem = s.mem) ∧
      (let base := (s.base7 b.toNat).toNat
       streamsOk s [(base, 64)] [] [] [(base, 8 * w)] →
        ∃ y, exec (.aouts b q12 c o m e x) s = .next y ∧ y.ctx = (withQ s { s.ctx.q with
          aouts := s.ctx.q.aouts ++ (List.range w).map fun k => ⟨localPa s.clusterId (swizzle (base + 8 * k)), 0xFF, some
            (BitVec.ofNat 64 (s.outRow (pass0 s (.aouts b q12 c o m e x) []) mul e.toInt 0 c.toNat o.toNat /
              2 ^ (64 * k)))⟩ }).ctx ∧
          (x = 1 → ∀ j, j < 64 → y.core.array.accAt c.toNat o.toNat j = 0) ∧ y.mem = s.mem)) ∧
    (∃ y, exec (.aoog d6 x) s = .next y ∧ y.ctx.q.results = s.ctx.q.results ++ (List.range 4).map (fun n =>
        ⟨.vreg n (s.vwin d6.toNat), ofLanes fun k => BitVec.ofNat 32 ((NatMap.get 0 a.oog (2 * (16 * n + k))).toNat +
          65536 * (NatMap.get 0 a.oog (2 * (16 * n + k) + 1)).toNat), 0xFFFF, 0, 4, false⟩) ∧
      y.core.array.oog = (if x = 1 then [] else a.oog) ∧ y.mem = s.mem) ∧
    (∃ y, exec (.agout d g o6 q x) s = .next y ∧ y.ctx.q.results = s.ctx.q.results ++ (List.range 4).map (fun n =>
        ⟨.vreg (g.toNat + n) d.toNat, ofLanes fun k => a.grad o6.toNat (16 * n + k) q.toNat, 0xFFFF,
         laneSet fun k => a.gradBad o6.toNat (16 * n + k) q.toNat, 4, false⟩) ∧
      (x = 1 → q.toNat < 20 → ∀ j, j < 64 → y.core.array.grad o6.toNat j q.toNat = 0) ∧ y.mem = s.mem) ∧
    (a.poison = [] →
      ∃ y, exec (.acout d g o6 q l) s = .next y ∧ y.ctx.q.results = s.ctx.q.results ++ (List.range 2).map (fun n =>
        ⟨.vreg (g.toNat + n) d.toNat, ofLanes fun k => BitVec.ofNat 32
          (slotOf (if l = 1 then a.sp else a.cp) o6.toNat (32 * n + 2 * k) q.toNat +
            65536 * slotOf (if l = 1 then a.sp else a.cp) o6.toNat (32 * n + 2 * k + 1) q.toNat), 0xFFFF, 0, 4, false⟩) ∧
        { y.core.array with pass := none } = { a with pass := none } ∧ y.mem = s.mem)

/-- 10 R299, R301 to R303, R282: CPY, CPYS, CPACC, CPSWAP, CPCAS and CPFILL enter the store queue with their operands as
read at issue; a count is the register plus the immediate modulo 2^40; the swaps also take a landing entry. 10 R304 to
R307, R309, R311, R312: CPSEND, CPBINIT, CPARR, CPCOLL, CPREL and CPSTAT enter the store queue with what their registers
hold at issue; CPARR arrives in the phase bit 0 of its register names, inverted by I. -/
def Obligations.CopyWordsQueueCommands : Prop :=
  (∀ (s : State) (b a r d v c : BitVec 6) (n : BitVec 20) (o : BitVec 3) (t : BitVec 2) (w : BitVec 1) (ad : BitVec 12),
     (∀ x ∈ [b, a, r, v, c], s.spois x.toNat = false) → s.spois (r.toNat + 1) = false → s.pred = true →
     let dst := (s.sreg b.toNat).toNat
     let src := (s.sreg a.toNat).toNat
     let count := ((s.sreg r.toNat).toNat + n.toNat) % 2 ^ 40
     let g := (s.sreg r.toNat).toNat
     let h := s.sreg (r.toNat + 1)
     let z := [4, 2, 4, 8].getD t.toNat 4
     let k := if w = 1 then 8 else 4
     (operandOk s dst 1 [(dst, count)] 2 → operandOk s src 1 [(src, count)] 1 →
       exec (.cpy b a r n) s = .next (commanding s (.cpy dst src count) none)) ∧
     (let ds := (h.extractLsb' 0 32).toInt
      let ss := (h.extractLsb' 32 32).toInt
      operandOk s dst 1 (rowsOf dst (g % 2 ^ 32) (g / 2 ^ 32) ds) 2 →
      operandOk s src 1 (rowsOf src (g % 2 ^ 32) (g / 2 ^ 32) ss) 1 →
       exec (.cpys b a r) s = .next (commanding s (.cpys dst src (g % 2 ^ 32) (g / 2 ^ 32) ds ss) none)) ∧
     (count % z = 0 → operandOk s dst z [(dst, count)] 2 → operandOk s src z [(src, count)] 1 →
       exec (.cpacc b a r n o t) s = .next (commanding s (.cpacc dst src count o.toNat t.toNat) none)) ∧
     (operandOk s dst 1 [(dst, count)] 2 →
       exec (.cpfill b a r n) s = .next (commanding s (.cpfill dst (s.sreg a.toNat) false count) none)) ∧
     (operandOk s dst k [(dst, k)] 2 →
       exec (.cpswap d b v w ad) s = .next (commanding s (.cpswap dst (s.sreg v.toNat) (w == 1))
         (some (.swap (s.sname d.toNat), ad.toNat))) ∧
       exec (.cpcas d b v c w ad) s = .next (commanding s (.cpcas dst (s.sreg v.toNat) (s.sreg c.toNat) (w == 1))
         (some (.swap (s.sname d.toNat), ad.toNat))))) ∧
  (∀ (s : State) (a b r d : BitVec 6) (i : BitVec 1) (c : BitVec 3) (ad : BitVec 10),
     (∀ x ∈ [a, b, r], s.spois x.toNat = false) → (∀ k, k < 5 → s.spois (a.toNat + k) = false) → s.pred = true →
     let dst := (s.sreg b.toNat).toNat
     let w (k : Nat) : Word := s.sreg (a.toNat + k)
     let place := w 3
     let e := (w 0).toNat % 2 ^ 20
     (operandOk s (w 2).toNat 1 [((w 2).toNat, place.toNat / 2 ^ 32 % 2 ^ 24)] 1 →
       operandOk s (w 4).toNat 64 [((w 4).toNat, 64)] 1 →
       exec (.cpsend a) s = .next (commanding s (.cpsend (w 0) (w 1) (w 2).toNat place (w 4).toNat) none)) ∧
     (operandOk s dst 32 [(dst, 32)] 2 →
       exec (.cpbinit b a) s = .next (commanding s (.cpbinit dst (BitVec.ofNat 64 (e * 2 ^ 40 + e * 2 ^ 20 + e))
         (BitVec.ofNat 64 ((w 1).toNat % 32)) (w 2)) none) ∧
       exec (.cparr b r i c) s = .next (commanding s (.cparr dst (xor ((s.sreg r.toNat).getLsbD 0) (i == 1))
         (scope s c.toNat)) none)) ∧
     (operandOk s dst 64 [(dst, 64)] 1 → exec (.cpcoll b) s = .next (commanding s (.cpcoll dst) none)) ∧
     (operandOk s dst 8 [(dst, 8)] 2 →
       exec (.cprel a b c) s = .next (commanding s (.cprel dst (s.sreg a.toNat) (scope s c.toNat)) none)) ∧
     exec (.cpstat d ad) s = .next (commanding s .cpstat (some (.stat (s.sname d.toNat), ad.toNat))))

/-- 10 R299, R300, R305 to R308, R311: a copy engine accepts the oldest waiting command of its cores; a barrier arrival
of the open phase counts CUR down in memory, one of the next phase NXT; the last of a phase flips the word, twice where the
next phase is complete, and sets the subscribers' flags; one that finds its count 0 leaves memory as it is and raises
BARRIER_OVERRUN in its context; CPREL writes its word with the failure flag in bit 63 and clears the flag; a command that is
done leaves, and the round of its collective is then void (that a COPY_COMPLETE marks it is the model's choice, log 51). 02 R61, R72, 10 R303,
R304: a swap in the local window puts the new value in memory and the old one in its landing entry, once; a CPSEND whose
payload is written and whose message has been read puts an arrival into the queue of the target's core, in its order. -/
def Obligations.CopyEnginesActAtTheirHomes : Prop :=
  (∀ (s : State),
     (∀ c rest, s.ctx.q.copyq = c :: rest → s.arg.a = 2 * (s.cur / 32) + s.cur / 4 % 8 / 4 → s.arg.a < 256 →
       (∀ id, id ≠ s.cur → (s.getCtx id).q.copyq = []) → (∃ n, n < 32 ∧ ∀ x ∈ s.copies, x.ident ≠ 32 * s.arg.a + n) →
       ∃ t n, exec .copyAccept s = .next t ∧ n < 32 ∧ t.ctx.q.copyq = rest ∧
         t.copies = s.copies ++ [{ c with ident := 32 * s.arg.a + n, st := .running }] ∧ t.mem = s.mem) ∧
     (∀ c va p sc w0 w1 w2 w3 v, s.copyOf s.arg.a = some c → c.op = .cparr va p sc → c.ident < 8192 → va < 0x1000000 →
       c.stopped = false → s.copyTurn c = true → s.engLocal c va = localPa v va → v < 128 → unhindered s c (localPa v va) →
       let pa := localPa v va
       s.granule pa = some w0 → s.granule (pa + 8) = some w1 → s.granule (pa + 16) = some w2 →
       s.granule (pa + 24) = some w3 → va % 8 = 0 →
       let cur := w0.toNat / 2 ^ 20 % 2 ^ 20
       let nxt := w0.toNat % 2 ^ 20
       let ex := w0.toNat / 2 ^ 40 % 2 ^ 20
       let next : Nat := if p = w0.getLsbD 63 then nxt else nxt - 1
       let once : Prop := next ≠ 0
       (p = w0.getLsbD 63 → 2 ≤ cur → ∃ t, exec .cparrApply s = .next t ∧
         t.granule pa = some (w0 - 0x100000) ∧ (∀ a, a < pa ∨ pa + 8 ≤ a → t.byte a = s.byte a) ∧ t.ctx = s.ctx) ∧
       (p ≠ w0.getLsbD 63 → 1 ≤ nxt → 1 ≤ cur → ∃ t, exec .cparrApply s = .next t ∧
         t.granule pa = some (w0 - 1) ∧ (∀ a, a < pa ∨ pa + 8 ≤ a → t.byte a = s.byte a) ∧ t.ctx = s.ctx) ∧
       (p = w0.getLsbD 63 ∧ cur = 1 ∨ p ≠ w0.getLsbD 63 ∧ 1 ≤ nxt ∧ cur = 0 →
         ∃ t w, exec .cparrApply s = .next t ∧ t.granule pa = some w ∧
           (∀ a, a < pa ∨ pa + 8 ≤ a → t.byte a = s.byte a) ∧ w.toNat % 2 ^ 20 = ex ∧
           (once → w.toNat / 2 ^ 20 % 2 ^ 20 = next ∧ w.getLsbD 63 = !w0.getLsbD 63) ∧
           (¬once → w.toNat / 2 ^ 20 % 2 ^ 20 = ex ∧ w.getLsbD 63 = w0.getLsbD 63) ∧
           w.toNat / 2 ^ 40 % 2 ^ 23 = w0.toNat / 2 ^ 40 % 2 ^ 23 ∧ flagged s t w1 w2 w3) ∧
       (p = w0.getLsbD 63 ∧ cur = 0 ∨ p ≠ w0.getLsbD 63 ∧ nxt = 0 → c.cid = s.cur →
         ∃ t, exec .cparrApply s = .next t ∧ t.mem = s.mem ∧
           t.ctx.pend = s.ctx.pend ++ [⟨0x0C, 0, c.bundle, 0, c.handler⟩])) ∧
     (∀ c va w sc v, s.copyOf s.arg.a = some c → c.op = .cprel va w sc → c.ident < 8192 → va < 0x1000000 → va % 8 = 0 →
       c.cid = s.cur → c.stopped = false → s.copyTurn c = true → s.halted = false → s.peerReqs = [] →
       s.engLocal c va = localPa v va → v < 128 → unhindered s c (localPa v va) →
       ∃ t, exec .cprelWrite s = .next t ∧ t.ctx.cfail = false ∧ t.ctx.regs = s.ctx.regs ∧
         t.granule (localPa v va) = some (if s.ctx.cfail then w ||| 0x8000000000000000 else w) ∧
         (∀ a, a < localPa v va ∨ localPa v va + 8 ≤ a → t.byte a = s.byte a)) ∧
     (∀ c, s.copyOf s.arg.a = some c → s.copyDone c = true → s.halted = false → c.ident < 8192 → c.op ≠ .cpstat →
       exec .copyComplete s = .next { s with
         copies := s.copies.filter fun x => x.ident != c.ident
         colls := s.colls.map fun x => if x.ident = c.ident then { x with bad := true } else x })) ∧
  (∀ (s : State) (c : CopyCmd), s.copyOf s.arg.a = some c → c.stopped = false →
     (∀ va w v, c.op = .cpswap va w true → c.ident < 8192 → va < 0x1000000 → va % 8 = 0 → s.rmwWaits c = false →
       s.engLocal c va = localPa v va → v < 128 → unhindered s c (localPa v va) →
       ∀ old l, s.granule (localPa v va) = some old → c.land = some l → c.cid = s.cur →
       ∃ t, exec .homeUnitRmw s = .next t ∧ t.granule (localPa v va) = some w ∧
         (∀ a, a < localPa v va ∨ localPa v va + 8 ≤ a → t.byte a = s.byte a) ∧
         t.ctx.q.landing = (s.ctx.q.landing.map fun x => if x.id = l then { x with answer := .value old true } else x) ∧
         t.ctx.regs = s.ctx.regs) ∧
     (∀ w h src place msg id t' c', c.op = .cpsend w h src place msg → sendReserved w place = false →
       s.sendTarget c w = some id → id < 4096 → place.toNat / 2 ^ 32 % 2 ^ 24 ≤ c.cursor →
       s.fetch c.ident ((List.range 64).map (place.toNat / 2 ^ 32 % 2 ^ 24 + ·)) = (t', .done) →
       t'.copyOf c.ident = some c' → (t'.getCore (id / 4)).arrivals.length < 8 →
       ∃ t a, exec .cpsendDelivery s = .next t ∧
         (t.getCore (id / 4)).arrivals = (t'.getCore (id / 4)).arrivals ++ [a] ∧ a.ctx = id ∧ a.handler = h ∧
         a.payload = BitVec.ofNat 64 (place.toNat % 2 ^ 24) ∧
         a.len = BitVec.ofNat 64 (place.toNat / 2 ^ 32 % 2 ^ 24) ∧
         a.msg = ofBytes 512 (c'.taken (place.toNat / 2 ^ 32 % 2 ^ 24) 64).1 ∧ t.mem = t'.mem))

/-- 02 R68, R69, 07 R189, 18 R412: what is in flight lands: a result within its window, whole or a vector result in some of its
lanes first; a captured result at its count once the handler is left, a landing entry at its arrival tick or at once where
it is eager, late data before the freeze ends. Only the registers they name change, and no memory. -/
def Obligations.WhatIsInFlightLands : Prop :=
  ∀ (s : State),
    (∀ x, s.ctx.q.results[s.arg.a]? = some x → x.exact = false →
      let part : BitVec 16 := x.lanes &&& s.arg.mask.extractLsb' 0 16
      (part = 0 ∨ part = x.lanes →
        ∃ t, exec .resultWriteback s = .next t ∧ t.ctx.regs = s.ctx.regs.write x.dst x.val x.poison x.lanes ∧
          t.ctx.q = { s.ctx.q with results := s.ctx.q.results.eraseIdx s.arg.a } ∧ t.mem = s.mem) ∧
      (part ≠ 0 → part ≠ x.lanes →
        ∃ t, exec .resultWriteback s = .next t ∧ t.ctx.regs = s.ctx.regs.write x.dst x.val x.poison part ∧
          t.ctx.q = { s.ctx.q with results := s.ctx.q.results.set s.arg.a { x with lanes := x.lanes &&& ~~~ part } } ∧
          t.mem = s.mem)) ∧
    (∀ x, s.ctx.q.capture[s.arg.a]? = some x → x.left = 0 → s.inh = false → s.upsets = [] →
      ∃ t, exec .captureEntryWrite s = .next t ∧ t.ctx.regs = s.ctx.regs.write x.dst x.val x.poison x.lanes ∧
        t.ctx.q = { s.ctx.q with capture := s.ctx.q.capture.eraseIdx s.arg.a } ∧ t.mem = s.mem) ∧
    (∀ l f g, s.ctx.q.landing.find? (fun l => l.id == s.arg.a) = some l → l.kind = .load f → l.answer = .granules g →
      (l.eager = true ∨ l.left = 0 ∧ l.handler = s.inh) → s.upsets = [] →
      ∃ t, exec .arrivalTickLanding s = .next t ∧
        t.ctx.regs = (f.results g 0).foldl (fun r x => r.write x.dst x.val x.poison x.lanes) s.ctx.regs ∧
        t.ctx.q = { s.ctx.q with landing := s.ctx.q.landing.filter fun x => x.id != l.id } ∧ t.mem = s.mem) ∧
    (∀ l d v ok, s.ctx.q.landing.find? (fun l => l.id == s.arg.a) = some l → l.kind = .swap d → l.answer = .value v ok →
      (l.eager = true ∨ l.left = 0 ∧ l.handler = s.inh) → s.upsets = [] →
      ∃ t, exec .arrivalTickLanding s = .next t ∧ t.ctx.regs = s.ctx.regs.write (.sreg d) (v.setWidth 512) 0 1 ∧
        t.mem = s.mem) ∧
    (s.ctx.q.landing = [] → s.ctx.q.lq = [] →
      ∃ t, exec .lateDataLands s = .next t ∧
        t.ctx.regs = (s.ctx.q.results.filter fun x => x.left == 0).foldl
          (fun r x => r.write x.dst x.val x.poison x.lanes) s.ctx.regs ∧
        t.ctx.q.results = (s.ctx.q.results.filter fun x => x.left != 0) ∧ Freeze.late ∉ t.ctx.freezes ∧ t.mem = s.mem)

/-- 02 R43, R44, R46: what landing a result changes: its destination register only, in its lanes only, of an iterator its one
field, and whether an error has taken it (02 R77; for predicates and iterators the model's reading, log 75); s0, k0 and m0 never.
Reading s0 gives 0, k0 true and m0 all ones in every state. -/
def Obligations.ResultsChangeTheirDestinationOnly : Prop :=
  (∀ s : State, s.sreg 0 = 0 ∧ s.kreg 0 = true ∧ (∀ g, s.mreg g 0 = 0xFFFF) ∧ s.spois 0 = false) ∧
  (∀ (r : Regs) (j f : Nat) (val : BitVec 512) (poison lanes : BitVec 16),
    let t := r.write (.iter j f) val poison lanes
    let a := NatMap.get .reset r.a j
    let v : W32 := val.extractLsb' 0 32
    NatMap.get .reset t.a j = (match f with
      | 0 => { a with base := val.extractLsb' 0 64 }
      | 1 => { a with str0 := v }
      | 2 => { a with str1 := v }
      | 3 => { a with str2 := v }
      | 4 => { a with str3 := v }
      | _ => { a with dir := val.getLsbD 0 }) ∧
    (∀ m, m ≠ j → NatMap.get .reset t.a m = NatMap.get .reset r.a m) ∧
    t.dead.contains (.iter j f) = poison.getLsbD 0 ∧ (∀ d, d ≠ .iter j f → t.dead.contains d = r.dead.contains d) ∧
    t.s = r.s ∧ t.k = r.k ∧ t.v = r.v ∧ t.m = r.m ∧ t.spoison = r.spoison ∧ t.vpoison = r.vpoison) ∧
  ∀ (r : Regs) (n g : Nat) (val : BitVec 512) (poison lanes : BitVec 16),
    r.write (.sreg 0) val poison lanes = r ∧ r.write (.kreg 0) val poison lanes = r ∧
    r.write (.mreg g 0) val poison lanes = r ∧
    (n ≠ 0 →
      (let t := r.write (.sreg n) val poison lanes
       NatMap.get 0 t.s n = val.extractLsb' 0 64 ∧ NatMap.get false t.spoison n = poison.getLsbD 0 ∧
        (∀ m, m ≠ n → NatMap.get 0 t.s m = NatMap.get 0 r.s m) ∧ t.k = r.k ∧ t.v = r.v ∧ t.m = r.m ∧ t.a = r.a) ∧
      (let t := r.write (.kreg n) val poison lanes
       t.dead.contains (.kreg n) = poison.getLsbD 0 ∧ (∀ d, d ≠ .kreg n → t.dead.contains d = r.dead.contains d) ∧
        NatMap.get false t.k n = val.getLsbD 0 ∧ (∀ m, m ≠ n → NatMap.get false t.k m = NatMap.get false r.k m) ∧
        t.s = r.s ∧ t.v = r.v ∧ t.m = r.m ∧ t.a = r.a) ∧
      (n < 16 →
        let t := r.write (.mreg g n) val poison lanes
        (∀ l, l < 16 → (NatMap.get 0 t.m (16 * g + n)).getLsbD l =
          if lanes.getLsbD l then val.getLsbD l else (NatMap.get 0 r.m (16 * g + n)).getLsbD l) ∧
        (∀ m, m ≠ 16 * g + n → NatMap.get 0 t.m m = NatMap.get 0 r.m m) ∧ t.s = r.s ∧ t.k = r.k ∧ t.v = r.v)) ∧
    (n < 1024 →
      let t := r.write (.vreg g n) val poison lanes
      (∀ l, l < 16 → NatMap.get 0 t.v (vkey g n l) =
        if lanes.getLsbD l then val.extractLsb' (32 * l) 32 else NatMap.get 0 r.v (vkey g n l)) ∧
      (∀ g' n' l, n' < 1024 → l < 16 → (g' ≠ g ∨ n' ≠ n) →
        NatMap.get 0 t.v (vkey g' n' l) = NatMap.get 0 r.v (vkey g' n' l)) ∧ t.s = r.s ∧ t.k = r.k ∧ t.m = r.m)

/-- 02 R57, R76, 05 R157, R160, R167, 07 R204, R206, 09 R261, 13 R354, 19 R433: each freeze ends at its own event once what it
waits for is over, and the event leaves the other freezes; a join or fence whose accesses are outstanding stays. A fence
of core scope or wider also has the next bundle fetched again, of a loop its body. The limiter's freezes end with the tick, once
no core of the cluster offers a bundle in it, for every context of the cluster. The interlock's ends with the waits of the
registers that the bundle due holds. QMARK's halves leave their queues together once nothing earlier is outstanding: that they
leave together is the model's choice (log 35). -/
def Obligations.FreezesEnd : Prop :=
  ∀ (s : State) (b sc d : Nat) (rest : List Freeze),
    let without (p : Freeze) : State := { s with ctx := { s.ctx with freezes := s.ctx.freezes.filter fun x => x != p } }
    let then_ (l : List Freeze) (again : Bool) : State := { s with ctx := { s.ctx with
      freezes := l
      fetched := if again then [] else s.ctx.fetched
      seq := if again then s.ctx.seq.map (fun q => { q with stale := true }) else s.ctx.seq } }
    (s.ctx.freezes = .vjoin b :: rest → (∀ f ∈ rest, ∀ n, f ≠ .vjoin n) →
      exec .vjoinRelease s = .next (if s.joined b then then_ rest false else s)) ∧
    (s.ctx.freezes = .fence sc b :: rest → (∀ f ∈ rest, ∀ m n, f ≠ .fence m n) → s.flights = [] →
      exec .fenceRelease s = .next (then_ (if s.fenced sc b then rest else s.ctx.freezes) (decide (sc ≠ 0)))) ∧
    (s.ctx.freezes = .fencep d b :: rest → (∀ f ∈ rest, ∀ m n, f ≠ .fencep m n) → s.flights = [] →
      exec .fencepRelease s = .next (then_ (if s.fenced 4 b then rest else s.ctx.freezes) true)) ∧
    (∀ e q, s.ctx.q.sq = e :: q → e.kind = .mark sc → s.inFlight s.cur sc = false → s.commitOpen e.id e.handler = false →
      (∀ x ∈ s.ctx.q.lq, e.id ≤ x.id) →
      exec .qmarkRelease s = .next (withQ s { s.ctx.q with
        sq := q, lq := s.ctx.q.lq.filter fun x => x.id != e.id })) ∧
    exec .eccFreezeEnd s = .next { s with core := { s.core with ecc := false } } ∧
    exec .residueFreezeEnd s = .next (without .residue) ∧
    (s.ctx.q.sq = [] → exec .trapEntry s = .next (without .trapDrain)) ∧
    (Freeze.icm ∈ s.ctx.freezes → ∃ t, exec .icmInterlockRelease s = .next t ∧ t.ctx.freezes = (without .icm).ctx.freezes ∧
      (∀ x ∈ t.ctx.icms, x ∈ s.ctx.icms) ∧
      (∀ p, s.boundary.planNext = .ok p → ∀ x ∈ s.ctx.icms,
        (x ∈ t.ctx.icms ↔ ¬ (x.early = 0 ∧ x.dst ∈ s.boundary.planRegs p))) ∧
      t.ctx.regs = s.ctx.regs ∧ t.ctx.q = s.ctx.q) ∧
    (∀ i f, (i = .ceilingStretch ∧ f = Freeze.ceiling ∨ i = .slewWithhold ∧ f = Freeze.slew) → f ∈ s.ctx.freezes →
      (s.tickOver s.clusterId = false → exec i s = .next s) ∧
      (s.tickOver s.clusterId = true → ∃ t, exec i s = .next t ∧ t.clu = s.clu.pass ∧
        t.ctx = { s.ctx with freezes := s.ctx.freezes.filter fun x => !x.again } ∧ t.mem = s.mem ∧
        ∀ id, id / 32 = s.clusterId → (t.getCtx id).freezes = (s.getCtx id).freezes.filter fun x => !x.again))

/-- 13 R360 to R362, R368, 11 R330, R332 to R334, 02 R57, R76, 05 R157, R160, 07 R204, R206, 09 R261, 01 R40, R41, 10 R308,
13 R354, 19 R433: forms that always complete, and what they leave. The array's settings, in a context that owns it, change
the array only; permutations, reductions, scans, compressions and expansions only owe their results; the events that end
freezes change no register and no memory, nor do the late causes outside a handler. -/
def Obligations.SettingsPermutationsAndReleasesComplete : Prop :=
  (∀ (s : State) (m c1 : BitVec 1) (b c : BitVec 2) (g t n : BitVec 3) (r : BitVec 6) (f : BitVec 4), owner s [r.toNat] →
    s.upsets = [] →
    (∃ x, exec (.amode m b c g) s = .next x ∧ onlyArray s x) ∧ (∃ x, exec (.azero t) s = .next x ∧ onlyArray s x) ∧
    (∃ x, exec .aswap s = .next x ∧ onlyArray s x) ∧ (∃ x, exec (.scale r c1 f n) s = .next x ∧ onlyArray s x) ∧
    (∃ x, exec (.scx r f n) s = .next x ∧ onlyArray s x) ∧ ∃ x, exec (.sckey r) s = .next x ∧ onlyArray s x) ∧
  (∀ (s : State) (d6 a6 b6 r : BitVec 6) (d a b : BitVec 10) (k et w z : BitVec 1) (e4 : BitVec 4), etPerm e4 = true →
    (lanesClean s [s.vwin a6.toNat] →
      (∃ x, exec (.vredadd d6 a6 k et) s = .next x ∧ onlyOwes s x) ∧
      (∃ x, exec (.vredmax d6 a6 k et) s = .next x ∧ onlyOwes s x) ∧
      (∃ x, exec (.vredmin d6 a6 k et) s = .next x ∧ onlyOwes s x) ∧
      ∃ x, exec (.vscan d6 a6 k et) s = .next x ∧ onlyOwes s x) ∧
    (lanesClean s [a.toNat] →
      (∃ x, exec (.vredadd64 d a e4 w) s = .next x ∧ onlyOwes s x) ∧
      (∃ x, exec (.vredmax64 d a e4) s = .next x ∧ onlyOwes s x) ∧
      (∃ x, exec (.vredmin64 d a e4) s = .next x ∧ onlyOwes s x) ∧
      ∃ x, exec (.vscan64 d a e4 z) s = .next x ∧ onlyOwes s x) ∧
    (lanesClean s [s.vwin b6.toNat] → ∃ x, exec (.vperm d6 a6 b6 et) s = .next x ∧ onlyOwes s x) ∧
    (lanesClean s [b.toNat] → ∃ x, exec (.vperm64 d a b e4) s = .next x ∧ onlyOwes s x) ∧
    (∃ x, exec (.vcompress d6 a6 r z) s = .next x ∧ onlyOwes s x) ∧
    (∃ x, exec (.vcompress64 d a r z e4) s = .next x ∧ onlyOwes s x) ∧
    (∃ x, exec (.vexpand d6 a6 r z) s = .next x ∧ onlyOwes s x) ∧
    ∃ x, exec (.vexpand64 d a r z e4) s = .next x ∧ onlyOwes s x) ∧
  (∀ s : State, s.flights = [] → (NatMap.get Tenant.reset s.tenants (s.tidOf s.ctx)).fqbase = 0 →
    (∃ t, exec .vjoinRelease s = .next t ∧ t.ctx.regs = s.ctx.regs ∧ t.mem = s.mem) ∧
    (∃ t, exec .fenceRelease s = .next t ∧ t.ctx.regs = s.ctx.regs ∧ t.mem = s.mem) ∧
    (∃ t, exec .fencepRelease s = .next t ∧ t.ctx.regs = s.ctx.regs ∧ t.mem = s.mem) ∧
    (∃ t, exec .qmarkRelease s = .next t ∧ t.ctx.regs = s.ctx.regs ∧ t.mem = s.mem) ∧
    (∃ t, exec .eccFreezeEnd s = .next t ∧ t.ctx.regs = s.ctx.regs ∧ t.mem = s.mem) ∧
    (∃ t, exec .residueFreezeEnd s = .next t ∧ t.ctx.regs = s.ctx.regs ∧ t.mem = s.mem) ∧
    (∃ t, exec .trapEntry s = .next t ∧ t.ctx.regs = s.ctx.regs ∧ t.mem = s.mem) ∧
    (∃ t, exec .icmInterlockRelease s = .next t ∧ t.ctx.regs = s.ctx.regs ∧ t.mem = s.mem) ∧
    (∃ t, exec .ceilingStretch s = .next t ∧ t.ctx.regs = s.ctx.regs ∧ t.mem = s.mem) ∧
    (∃ t, exec .slewWithhold s = .next t ∧ t.ctx.regs = s.ctx.regs ∧ t.mem = s.mem) ∧
    (s.inh = false →
      (∃ t, exec .longLoadFault s = .next t ∧ t.ctx.regs = s.ctx.regs ∧ t.mem = s.mem) ∧
      (∃ t, exec .storeFault s = .next t ∧ t.ctx.regs = s.ctx.regs ∧ t.mem = s.mem) ∧
      ∃ t, exec .barrierOverrun s = .next t ∧ t.ctx.regs = s.ctx.regs ∧ t.mem = s.mem))

/-- 01 R40, R41, 09 R261, 10 R308, 18 R411: a late cause that is due traps at the boundary of a context that issues: TBUND names
the bundle that issued the access, TNEXT the bundle due, the cause and DETAIL are those of the access (PAGE_FAULT, SCRATCH_RANGE,
ACCESS or another); a faulted load's entry waits again for ERET, a store fault or overrun is no longer pending. A store fault is
taken once no load is outstanding, an overrun once no store fault is pending either. -/
def Obligations.LateCausesTrap : Prop :=
  ∀ (s : State), s.inh = false → s.ctx.st = .issuing → (NatMap.get Tenant.reset s.tenants (s.tidOf s.ctx)).fqbase = 0 →
    (∀ l cause code va, s.ctx.q.landing = [l] → l.answer = .fault cause code va → l.handler = false → l.left = 0 →
      ∃ t, exec .longLoadFault s = .next t ∧
        trapped (withQ s { s.ctx.q with landing := [{ l with answer := .waiting }] }) t cause code l.bundle s.dueAddr ∧
        t.mem = s.mem) ∧
    (∀ x rest, s.ctx.pend = x :: rest → x.handler = false → s.ctx.q.landing = [] →
      let without : State := { s with ctx := { s.ctx with pend := rest } }
      (x.cause ≠ 0x0C → ∃ t, exec .storeFault s = .next t ∧ trapped without t x.cause x.detail x.bundle s.dueAddr ∧
        t.ctx.pend = rest ∧ t.mem = s.mem) ∧
      (x.cause = 0x0C → (∀ y ∈ rest, y.cause = 0x0C) → ∃ t, exec .barrierOverrun s = .next t ∧ trapped without t 0x0C x.detail x.bundle s.dueAddr ∧
        t.ctx.pend = rest ∧ t.mem = s.mem))

/-- 05 R149, R150, 02 R51, 10 R296: a store to the local window that may act writes the masked bytes of its granule at the
bank its view names, and nothing else in memory; a release store does so at its own event. A poisoned store poisons. The core
stands still for no correction, the bank is free, and nothing is on its way to the granule. -/
def Obligations.LocalStoresPerform : Prop :=
  ∀ (s : State) (e : StoreEntry) (g : Granule) (rel : Option Nat),
    s.ctx.q.sq.find? (fun x => x.id == s.arg.a) = some e → e.kind = .store [g] rel → e.local_ = true →
    s.storeReady e = true → g.addr % 8 = 0 → g.addr < 0x1000000 → s.arg.b = 0 → s.cur < 4096 → s.core.ecc = false →
    s.clu.denied = [] → s.upsets = [] → s.flights = [] →
    ∃ t, exec (if rel.isSome then .strelPerform else .storePerform) s = .next t ∧
      t.ctx.q = { s.ctx.q with sq := s.ctx.q.sq.filter fun x => x.id != e.id } ∧ t.ctx.regs = s.ctx.regs ∧
      let base := localPa s.clusterId (if e.swz then swizzle g.addr else g.addr)
      (∀ d, g.data = some d →
        (∀ i, i < 8 → t.byte (base + i) = if g.mask.getLsbD i then byteOf d i else s.byte (base + i)) ∧
        (∀ a, a < base ∨ base + 8 ≤ a → t.byte a = s.byte a)) ∧
      (g.data = none → t.mem = s.mem ∧ t.granule base = none)

/-- 01 R20 to R29, R34, R38: an address at or above 2^52, and any address of a tenant that is not enabled, faults; else the
launch window answers for its addresses; a leaf in the TLB, for a write one that is marked written or may not be, gives the
page's address and its permissions; a walk goes down four levels by bits 51:39, 38:30, 29:21 and 20:16. 01 R36, 02 R53,
R54: a page walk that ends in a leaf installs it in the cluster's TLB with A, and D for an allowed write, and one that faults
installs nothing; of two cores' loads that meet on a bank the first at or after the tick number modulo 11 is granted, and the
other asks again in the next tick. -/
def Obligations.WalksAndTranslations : Prop :=
  (∀ (s : State) (clu : Option Nat) (tid va : Nat) (l : Option Launch) (acc : Access),
     (2 ^ 52 ≤ va → s.translate clu tid l va acc = (s, .fault 0x08 3)) ∧
     (va < 2 ^ 52 →
       ((NatMap.get Tenant.reset s.tenants tid).en = false → s.translate clu tid l va acc = (s, .fault 0x08 1)) ∧
       ((NatMap.get Tenant.reset s.tenants tid).en = true →
         (∀ t, s.window l va acc = some t → s.translate clu tid l va acc = (s, t)) ∧
         ∀ p e, clu = some p → s.window l va acc = none →
           (s.getClu p).tlb.find? (fun e => e.hits tid va && (!acc.wr || e.leaf.getLsbD 7 || !e.leaf.getLsbD 2)) = some e →
           leafPeer e.leaf = 0 →
           s.translate clu tid l va acc = (s,
             let pa := hostPa tid (e.leaf.toNat / 65536 % 2 ^ 36 * 65536 + va % e.size)
             let r := e.leaf.getLsbD 1
             let w := e.leaf.getLsbD 2
             match acc with
             | .read => if r then .ok pa e.leaf else .fault 0x09 4
             | .write => if w then .ok pa e.leaf else .fault 0x09 5
             | .rmw => if !w then .fault 0x09 5 else if !r then .fault 0x09 4 else .ok pa e.leaf
             | .exec => if e.leaf.getLsbD 3 then .ok pa e.leaf else .fault 0x09 6))) ∧
     (∀ t1 t2 t3 : Nat,
       let t0 := (NatMap.get Tenant.reset s.tenants tid).troot.toNat / 65536 % 2 ^ 36 * 65536
       let e3 := s.word64 (t3 * 4096 + 8 * slice va 16 5)
       points s (s.word64 (t0 + 8 * slice va 39 13)) t1 → points s (s.word64 (t1 * 4096 + 8 * slice va 30 9)) t2 →
       points s (s.word64 (t2 * 4096 + 8 * slice va 21 9)) t3 → e3.getLsbD 0 = true → e3.getLsbD 4 = true →
       s.walk tid va = if s.leafOk e3 65536 then .leaf (t3 * 4096 + 8 * slice va 16 5) 65536 e3 else .fault 2) ∧
     ((s.word64 ((NatMap.get Tenant.reset s.tenants tid).troot.toNat / 65536 % 2 ^ 36 * 65536 + 8 * slice va 39 13)).getLsbD 0 =
         false → s.walk tid va = .fault 1)) ∧
  (∀ (s : State), s.upsets = [] →
     (∀ entry size l, s.arg.a < 128 → (NatMap.get Tenant.reset s.tenants s.arg.b).en = true → s.arg.w.toNat < 2 ^ 52 →
       s.walkVia (some s.arg.a) s.arg.b s.arg.w.toNat = .leaf entry size l → s.arg.flag = true → leafPeer l = 0 →
       l.getLsbD 2 = true →
       ∃ t, exec .pageWalkComplete s = .next t ∧
         (t.getClu s.arg.a).tlb.head? =
           some ⟨s.arg.b, s.arg.w.toNat / size * size, size, l ||| 0xC0⟩ ∧
         t.byte entry = s.byte entry ||| 0xC0 ∧ (∀ a, a ≠ entry → t.byte a = s.byte a) ∧ t.ctx = s.ctx) ∧
     (∀ code, s.walkVia (some s.arg.a) s.arg.b s.arg.w.toNat = .fault code →
       ∃ t, exec .pageWalkComplete s = .next t ∧ t.clu = s.clu ∧ t.clus = s.clus ∧ t.mem = s.mem ∧ t.ctx = s.ctx) ∧
     (s.arg.a = s.clusterId → s.clusterId < 128 →
       let bank := s.arg.b % 64
       (∀ k, k < 11 → s.arg.mask = 1#128 <<< k → s.clu.denied = [] → exec .arbitrationGrant s = .next s) ∧
       (∀ j k, j < 8 → k < 8 → s.arg.mask = 1#128 <<< j ||| 1#128 <<< k → s.clu.denied = [] →
         (j + 11 - s.clu.tick % 11) % 11 < (k + 11 - s.clu.tick % 11) % 11 →
         ∃ t, exec .arbitrationGrant s = .next t ∧ t.clu = { s.clu with denied := [(k + 16, bank)] } ∧ t.mem = s.mem) ∧
       (∀ k, k < 8 → s.arg.mask = 1#128 <<< k → s.clu.denied = [(k + 16, bank)] →
         exec .arbitrationGrant s = .next (if s.tickOver s.clusterId then s.nextTick s.clusterId else s)) ∧
       (s.nextTick s.clusterId).clu = s.clu.pass ∧ s.clu.pass.denied = [] ∧ s.clu.pass.tick = s.clu.tick + 1))

/-- 02 R72, R73, 07 R185 to R187, 09 R250: a WAIT ends when its bit is set, clearing the bit if it asked so; a blocked
context goes on when its queues have room; a dormant one is loaded from the oldest arrival for it, poison included, and
starts at the handler, where a header with T is required. 07 R185, 09 R251, R252: a context that is to be dormant, or to retire,
becomes so once its queues are empty, keeping its registers; one that retires gives up its array and its snapshot. -/
def Obligations.ContextsWakeAndEnd : Prop :=
  (∀ (s : State), s.cur < 4096 → s.arg.a < 4096 →
     (∀ f clr b, (s.getCtx s.arg.a).st = .waiting f clr b → (s.getCtx s.arg.a).c.flg.getLsbD f = true →
       ∃ t, exec .waitComplete s = .next t ∧ wakes s t s.arg.a ∧
         (t.getCtx s.arg.a).c.flg = (if clr then (s.getCtx s.arg.a).c.flg &&& ~~~ (1#64 <<< f)
           else (s.getCtx s.arg.a).c.flg)) ∧
     ((s.getCtx s.arg.a).st = .blocked → s.hasRoom s.arg.a = true →
       ∃ t, exec .queueRoom s = .next t ∧ wakes s t s.arg.a ∧ (t.getCtx s.arg.a).c = (s.getCtx s.arg.a).c) ∧
     (∀ x, s.arg.a = s.cur → s.ctx.st = .dormant → s.core.arrivals.find? (fun y => y.ctx == s.cur) = some x →
       ∃ t, exec .contextWake s = .next t ∧ t.ctx.pc = x.handler.toNat ∧ t.ctx.checked = true ∧ t.ctx.c.vcc = 0 ∧
         (t.ctx.st = .ready ∨ t.ctx.st = .issuing) ∧ NatMap.get 0 t.ctx.regs.s 5 = x.sender ∧
         NatMap.get 0 t.ctx.regs.s 6 = x.payload ∧ NatMap.get 0 t.ctx.regs.s 7 = x.len ∧
         (∀ i, i < 8 → NatMap.get 0 t.ctx.regs.s (8 + i) = x.msg.extractLsb' (64 * i) 64 ∧
           NatMap.get false t.ctx.regs.spoison (8 + i) = x.poison.getLsbD i) ∧
         (∀ n, n < 5 ∨ 16 ≤ n → NatMap.get 0 t.ctx.regs.s n = NatMap.get 0 s.ctx.regs.s n) ∧
         t.core.arrivals = s.core.arrivals.erase x ∧ t.mem = s.mem)) ∧
  (∀ (s : State), s.cur < 4096 → s.idle = true →
     (Freeze.dormancy ∈ s.ctx.freezes → ∃ t, exec .dormancyEntry s = .next t ∧ (t.getCtx s.cur).st = .dormant ∧
       (t.getCtx s.cur).regs = s.ctx.regs ∧ Freeze.dormancy ∉ (t.getCtx s.cur).freezes ∧ t.mem = s.mem) ∧
     (Freeze.retire ∈ s.ctx.freezes → s.ctx.txState = 0 → ∃ t, exec .retireComplete s = .next t ∧
       (t.getCtx s.cur).st = .retired ∧ (t.getCtx s.cur).regs = s.ctx.regs ∧ (t.getCtx s.cur).c.snap = 0 ∧
       (t.getCore s.coreId).array.owner ≠ some s.cur ∧ t.mem = s.mem))

/-- 11 R315 to R318, R322: floating-point arithmetic on the elements of the enabled lanes, one rounding of the exact value
with the modes in force; VFMA and VFMS round once; VMIN, VMAX, VABS and VNEG do not round. Nothing but the result owed
changes. -/
def Obligations.VectorFloatResults : Prop :=
  ∀ (s : State) (d6 a6 b6 : BitVec 6) (d a b c : BitVec 10) (et : BitVec 1) (e4 : BitVec 4),
    elementwise s (.vadd d6 a6 b6 et) (s.vwin d6.toNat) [s.vwin a6.toNat, s.vwin b6.toNat] et.toNat 3
      (fun l e v => s.vround et.toNat l e (flSum s.vdown [num et.toNat v 0, num et.toNat v 1])) ∧
    elementwise s (.vadd64 d a b e4) d.toNat [a.toNat, b.toNat] e4.toNat 3
      (fun l e v => s.vround e4.toNat l e (flSum s.vdown [num e4.toNat v 0, num e4.toNat v 1])) ∧
    elementwise s (.vsub d6 a6 b6 et) (s.vwin d6.toNat) [s.vwin a6.toNat, s.vwin b6.toNat] et.toNat 3
      (fun l e v => s.vround et.toNat l e (flSum s.vdown [num et.toNat v 0, (num et.toNat v 1).negate])) ∧
    elementwise s (.vsub64 d a b e4) d.toNat [a.toNat, b.toNat] e4.toNat 3
      (fun l e v => s.vround e4.toNat l e (flSum s.vdown [num e4.toNat v 0, (num e4.toNat v 1).negate])) ∧
    elementwise s (.vmul d6 a6 b6 et) (s.vwin d6.toNat) [s.vwin a6.toNat, s.vwin b6.toNat] et.toNat 3
      (fun l e v => s.vround et.toNat l e ((num et.toNat v 0).mul (num et.toNat v 1))) ∧
    elementwise s (.vmul64 d a b e4) d.toNat [a.toNat, b.toNat] e4.toNat 3
      (fun l e v => s.vround e4.toNat l e ((num e4.toNat v 0).mul (num e4.toNat v 1))) ∧
    elementwise s (.vfma d a b c e4) d.toNat [a.toNat, b.toNat, c.toNat] e4.toNat 4
      (fun l e v =>
          s.vround e4.toNat l e (flSum s.vdown [(num e4.toNat v 0).mul (num e4.toNat v 1), num e4.toNat v 2])) ∧
    elementwise s (.vfms d a b c e4) d.toNat [a.toNat, b.toNat, c.toNat] e4.toNat 4
      (fun l e v =>
          s.vround e4.toNat l e (flSum s.vdown [(num e4.toNat v 0).mul (num e4.toNat v 1), (num e4.toNat v 2).negate])) ∧
    elementwise s (.vmin d6 a6 b6 et) (s.vwin d6.toNat) [s.vwin a6.toNat, s.vwin b6.toNat] et.toNat 3
      (fun _ _ v => fminmax et.toNat false (v.getD 0 0) (v.getD 1 0)) ∧
    elementwise s (.vmin64 d a b e4) d.toNat [a.toNat, b.toNat] e4.toNat 3
      (fun _ _ v => fminmax e4.toNat false (v.getD 0 0) (v.getD 1 0)) ∧
    elementwise s (.vmax d6 a6 b6 et) (s.vwin d6.toNat) [s.vwin a6.toNat, s.vwin b6.toNat] et.toNat 3
      (fun _ _ v => fminmax et.toNat true (v.getD 0 0) (v.getD 1 0)) ∧
    elementwise s (.vmax64 d a b e4) d.toNat [a.toNat, b.toNat] e4.toNat 3
      (fun _ _ v => fminmax e4.toNat true (v.getD 0 0) (v.getD 1 0)) ∧
    elementwise s (.vabs d6 a6 et) (s.vwin d6.toNat) [s.vwin a6.toNat] et.toNat 3
      (fun _ _ v => signOp et.toNat false (v.getD 0 0)) ∧
    elementwise s (.vabs64 d a e4) d.toNat [a.toNat] e4.toNat 3
      (fun _ _ v => signOp e4.toNat false (v.getD 0 0)) ∧
    elementwise s (.vneg d6 a6 et) (s.vwin d6.toNat) [s.vwin a6.toNat] et.toNat 3
      (fun _ _ v => signOp et.toNat true (v.getD 0 0)) ∧
    elementwise s (.vneg64 d a e4) d.toNat [a.toNat] e4.toNat 3
      (fun _ _ v => signOp e4.toNat true (v.getD 0 0))

/-- 11 R323, R324: the special functions give each element of the enabled lanes its value at their latencies, and change
nothing but the result owed. Values R323 leaves within a bound are free (log 10); the statement holds for each. 11 R324:
the exact results of the special functions at infinities and zeros, and NaN for NaN, whatever the free values are. -/
def Obligations.SpecialFunctionResults : Prop :=
  (∀ (s : State) (d6 a6 : BitVec 6) (d a : BitVec 10) (et : BitVec 1) (e4 : BitVec 4),
     elementwise s (.vrcp d6 a6 et) (s.vwin d6.toNat) [s.vwin a6.toNat] et.toNat 8
       (fun _ _ v => specialElem 0x09 et.toNat (v.getD 0 0)) ∧
     elementwise s (.vrcp64 d a e4) d.toNat [a.toNat] e4.toNat 8
       (fun _ _ v => specialElem 0x09 e4.toNat (v.getD 0 0)) ∧
     elementwise s (.vrsq d6 a6 et) (s.vwin d6.toNat) [s.vwin a6.toNat] et.toNat 8
       (fun _ _ v => specialElem 0x0A et.toNat (v.getD 0 0)) ∧
     elementwise s (.vrsq64 d a e4) d.toNat [a.toNat] e4.toNat 8
       (fun _ _ v => specialElem 0x0A e4.toNat (v.getD 0 0)) ∧
     elementwise s (.vsqrt d6 a6 et) (s.vwin d6.toNat) [s.vwin a6.toNat] et.toNat 8
       (fun _ _ v => specialElem 0x0B et.toNat (v.getD 0 0)) ∧
     elementwise s (.vsqrt64 d a e4) d.toNat [a.toNat] e4.toNat 8
       (fun _ _ v => specialElem 0x0B e4.toNat (v.getD 0 0)) ∧
     elementwise s (.vexp2 d6 a6 et) (s.vwin d6.toNat) [s.vwin a6.toNat] et.toNat 8
       (fun _ _ v => specialElem 0x0C et.toNat (v.getD 0 0)) ∧
     elementwise s (.vexp264 d a e4) d.toNat [a.toNat] e4.toNat 8
       (fun _ _ v => specialElem 0x0C e4.toNat (v.getD 0 0)) ∧
     elementwise s (.vlog2 d6 a6 et) (s.vwin d6.toNat) [s.vwin a6.toNat] et.toNat 8
       (fun _ _ v => specialElem 0x0D et.toNat (v.getD 0 0)) ∧
     elementwise s (.vlog264 d a e4) d.toNat [a.toNat] e4.toNat 8
       (fun _ _ v => specialElem 0x0D e4.toNat (v.getD 0 0)) ∧
     elementwise s (.vsin d6 a6 et) (s.vwin d6.toNat) [s.vwin a6.toNat] et.toNat 10
       (fun _ _ v => specialElem 0x0E et.toNat (v.getD 0 0)) ∧
     elementwise s (.vsin64 d a e4) d.toNat [a.toNat] e4.toNat 10
       (fun _ _ v => specialElem 0x0E e4.toNat (v.getD 0 0)) ∧
     elementwise s (.vcos d6 a6 et) (s.vwin d6.toNat) [s.vwin a6.toNat] et.toNat 10
       (fun _ _ v => specialElem 0x0F et.toNat (v.getD 0 0)) ∧
     elementwise s (.vcos64 d a e4) d.toNat [a.toNat] e4.toNat 10
       (fun _ _ v => specialElem 0x0F e4.toNat (v.getD 0 0)) ∧
     elementwise s (.vtanh d6 a6 et) (s.vwin d6.toNat) [s.vwin a6.toNat] et.toNat 10
       (fun _ _ v => specialElem 0x10 et.toNat (v.getD 0 0)) ∧
     elementwise s (.vtanh64 d a e4) d.toNat [a.toNat] e4.toNat 10
       (fun _ _ v => specialElem 0x10 e4.toNat (v.getD 0 0)) ∧
     elementwise s (.vsigm d6 a6 et) (s.vwin d6.toNat) [s.vwin a6.toNat] et.toNat 10
       (fun _ _ v => specialElem 0x11 et.toNat (v.getD 0 0)) ∧
     elementwise s (.vsigm64 d a e4) d.toNat [a.toNat] e4.toNat 10
       (fun _ _ v => specialElem 0x11 e4.toNat (v.getD 0 0)) ∧
     elementwise s (.vsilu d6 a6 et) (s.vwin d6.toNat) [s.vwin a6.toNat] et.toNat 10
       (fun _ _ v => specialElem 0x12 et.toNat (v.getD 0 0)) ∧
     elementwise s (.vsilu64 d a e4) d.toNat [a.toNat] e4.toNat 10
       (fun _ _ v => specialElem 0x12 e4.toNat (v.getD 0 0))) ∧
  (let pInf : W32 := 0x7F800000
   let nInf : W32 := 0xFF800000
   let nZero : W32 := 0x80000000
   let nan : W32 := 0x7FC00000
   let one : W32 := 0x3F800000
   (∀ (x : W32) (fn : Nat), f32 x = .nan → special fn x = nan) ∧
   [special 0x09 pInf, special 0x09 nInf, special 0x09 0, special 0x09 nZero] = [0, nZero, pInf, nInf] ∧
   [special 0x0A pInf, special 0x0A nInf, special 0x0A 0, special 0x0A nZero] = [0, nan, pInf, nInf] ∧
   [special 0x0B pInf, special 0x0B nInf, special 0x0B 0, special 0x0B nZero] = [pInf, nan, 0, nZero] ∧
   [special 0x0C pInf, special 0x0C nInf, special 0x0C 0, special 0x0C nZero] = [pInf, 0, one, one] ∧
   [special 0x0D pInf, special 0x0D nInf, special 0x0D 0, special 0x0D nZero] = [pInf, nan, nInf, nInf] ∧
   [special 0x0E pInf, special 0x0E nInf, special 0x0E 0, special 0x0E nZero] = [nan, nan, 0, nZero] ∧
   [special 0x0F pInf, special 0x0F nInf, special 0x0F 0, special 0x0F nZero] = [nan, nan, one, one] ∧
   [special 0x10 pInf, special 0x10 nInf, special 0x10 0, special 0x10 nZero] = [one, 0xBF800000, 0, nZero] ∧
   [special 0x11 pInf, special 0x11 nInf, special 0x11 0] = [one, 0, 0x3F000000] ∧
   [special 0x12 pInf, special 0x12 nInf, special 0x12 0, special 0x12 nZero] = [pInf, nZero, 0, nZero])

/-- 11 R325: whole-lane logic and element shifts, whose counts are modulo the element width. 11 R322: integer arithmetic
on the elements of the enabled lanes, exact and then modulo the element width, or limited to the type's range under a SAT
prefix. -/
def Obligations.VectorIntegerAndLogicResults : Prop :=
  (∀ (s : State) (d6 a6 b6 : BitVec 6) (d a b : BitVec 10) (et : BitVec 1) (e4 : BitVec 4), etInt e4 = true →
     lanewise s (.vand d6 a6 b6) (s.vwin d6.toNat) [s.vwin a6.toNat, s.vwin b6.toNat] 1
       (fun l => s.vlane s.group (s.vwin a6.toNat) l &&& s.vlane s.group (s.vwin b6.toNat) l) ∧
     lanewise s (.vand64 d a b) d.toNat [a.toNat, b.toNat] 1
       (fun l => s.vlane s.group a.toNat l &&& s.vlane s.group b.toNat l) ∧
     lanewise s (.vor d6 a6 b6) (s.vwin d6.toNat) [s.vwin a6.toNat, s.vwin b6.toNat] 1
       (fun l => s.vlane s.group (s.vwin a6.toNat) l ||| s.vlane s.group (s.vwin b6.toNat) l) ∧
     lanewise s (.vor64 d a b) d.toNat [a.toNat, b.toNat] 1
       (fun l => s.vlane s.group a.toNat l ||| s.vlane s.group b.toNat l) ∧
     lanewise s (.vxor d6 a6 b6) (s.vwin d6.toNat) [s.vwin a6.toNat, s.vwin b6.toNat] 1
       (fun l => s.vlane s.group (s.vwin a6.toNat) l ^^^ s.vlane s.group (s.vwin b6.toNat) l) ∧
     lanewise s (.vxor64 d a b) d.toNat [a.toNat, b.toNat] 1
       (fun l => s.vlane s.group a.toNat l ^^^ s.vlane s.group b.toNat l) ∧
     lanewise s (.vnot d6 a6) (s.vwin d6.toNat) [s.vwin a6.toNat] 1 (fun l =>
         ~~~ s.vlane s.group (s.vwin a6.toNat) l) ∧
     lanewise s (.vnot64 d a) d.toNat [a.toNat] 1 (fun l => ~~~ s.vlane s.group a.toNat l) ∧
     elementwise s (.vshl d6 a6 b6 et) (s.vwin d6.toNat) [s.vwin a6.toNat, s.vwin b6.toNat] (10 - et.toNat) 1
       (fun _ _ v => v.getD 0 0 * 2 ^ (v.getD 1 0 % codeWidth (10 - et.toNat))) ∧
     elementwise s (.vshl64 d a b e4) d.toNat [a.toNat, b.toNat] e4.toNat 1
       (fun _ _ v => v.getD 0 0 * 2 ^ (v.getD 1 0 % codeWidth e4.toNat)) ∧
     elementwise s (.vshr d6 a6 b6 et) (s.vwin d6.toNat) [s.vwin a6.toNat, s.vwin b6.toNat] (10 - et.toNat) 1
       (fun _ _ v => v.getD 0 0 / 2 ^ (v.getD 1 0 % codeWidth (10 - et.toNat))) ∧
     elementwise s (.vshr64 d a b e4) d.toNat [a.toNat, b.toNat] e4.toNat 1
       (fun _ _ v => v.getD 0 0 / 2 ^ (v.getD 1 0 % codeWidth e4.toNat)) ∧
     elementwise s (.vsar d6 a6 b6 et) (s.vwin d6.toNat) [s.vwin a6.toNat, s.vwin b6.toNat] (10 - et.toNat) 1
       (fun _ _ v =>
           (((BitVec.ofNat (codeWidth (10 - et.toNat)) (v.getD 0 0)).toInt / 2 ^ (v.getD 1 0 % codeWidth (10 - et.toNat))) %
         2 ^ codeWidth (10 - et.toNat)).toNat) ∧
     elementwise s (.vsar64 d a b e4) d.toNat [a.toNat, b.toNat] e4.toNat 1
       (fun _ _ v =>
           (((BitVec.ofNat (codeWidth e4.toNat) (v.getD 0 0)).toInt / 2 ^ (v.getD 1 0 % codeWidth e4.toNat)) %
         2 ^ codeWidth e4.toNat).toNat)) ∧
  (∀ (s : State) (d6 a6 b6 : BitVec 6) (d a b : BitVec 10) (et : BitVec 1) (e4 : BitVec 4), etInt e4 = true →
     elementwise s (.viadd d6 a6 b6 et) (s.vwin d6.toNat) [s.vwin a6.toNat, s.vwin b6.toNat] (10 - et.toNat) 1
       (fun _ _ v => let x := number (10 - et.toNat) (v.getD 0 0)
           let y := number (10 - et.toNat) (v.getD 1 0)
           fitted s (10 - et.toNat) (x + y)) ∧
     elementwise s (.viadd64 d a b e4) d.toNat [a.toNat, b.toNat] e4.toNat 1
       (fun _ _ v =>
           let x := number e4.toNat (v.getD 0 0); let y := number e4.toNat (v.getD 1 0); fitted s e4.toNat (x + y)) ∧
     elementwise s (.visub d6 a6 b6 et) (s.vwin d6.toNat) [s.vwin a6.toNat, s.vwin b6.toNat] (10 - et.toNat) 1
       (fun _ _ v => let x := number (10 - et.toNat) (v.getD 0 0)
           let y := number (10 - et.toNat) (v.getD 1 0)
           fitted s (10 - et.toNat) (x - y)) ∧
     elementwise s (.visub64 d a b e4) d.toNat [a.toNat, b.toNat] e4.toNat 1
       (fun _ _ v =>
           let x := number e4.toNat (v.getD 0 0); let y := number e4.toNat (v.getD 1 0); fitted s e4.toNat (x - y)) ∧
     elementwise s (.vimul d6 a6 b6 et) (s.vwin d6.toNat) [s.vwin a6.toNat, s.vwin b6.toNat] (10 - et.toNat) 3
       (fun _ _ v => let x := number (10 - et.toNat) (v.getD 0 0)
           let y := number (10 - et.toNat) (v.getD 1 0)
           fitted s (10 - et.toNat) (x * y)) ∧
     elementwise s (.vimul64 d a b e4) d.toNat [a.toNat, b.toNat] e4.toNat 3
       (fun _ _ v =>
           let x := number e4.toNat (v.getD 0 0); let y := number e4.toNat (v.getD 1 0); fitted s e4.toNat (x * y)) ∧
     elementwise s (.vimin d6 a6 b6 et) (s.vwin d6.toNat) [s.vwin a6.toNat, s.vwin b6.toNat] (10 - et.toNat) 1
       (fun _ _ v => let x := number (10 - et.toNat) (v.getD 0 0)
           let y := number (10 - et.toNat) (v.getD 1 0)
           fitted s (10 - et.toNat) (min x y)) ∧
     elementwise s (.vimin64 d a b e4) d.toNat [a.toNat, b.toNat] e4.toNat 1
       (fun _ _ v =>
           let x := number e4.toNat (v.getD 0 0); let y := number e4.toNat (v.getD 1 0); fitted s e4.toNat (min x y)) ∧
     elementwise s (.vimax d6 a6 b6 et) (s.vwin d6.toNat) [s.vwin a6.toNat, s.vwin b6.toNat] (10 - et.toNat) 1
       (fun _ _ v => let x := number (10 - et.toNat) (v.getD 0 0)
           let y := number (10 - et.toNat) (v.getD 1 0)
           fitted s (10 - et.toNat) (max x y)) ∧
     elementwise s (.vimax64 d a b e4) d.toNat [a.toNat, b.toNat] e4.toNat 1
       (fun _ _ v =>
           let x := number e4.toNat (v.getD 0 0); let y := number e4.toNat (v.getD 1 0); fitted s e4.toNat (max x y)))

/-- 11 R319, R327 to R329, R331: copies of lanes take poison with them, VSEL from the register its mask picks and VXCP
from another lane group; VSPLAT fills every element; VIOTA counts elements from a scalar. 02 R78, 11 R319, R316: an
arithmetic, logic or shift word of two vector registers (64-bit form) that consumes a poisoned enabled lane takes MCHK before
its bundle, with no register or memory changed; where the enabled lanes hold no poison it only owes its result, whatever the
lanes it does not enable hold. -/
def Obligations.VectorMovesAndPoisonedLanes : Prop :=
  (∀ (s : State) (d6 a6 r : BitVec 6) (d a b : BitVec 10) (m t : BitVec 4) (g : BitVec 3) (w : BitVec 2) (im : BitVec 32)
     (g1 : BitVec 1), w ≠ 3 →
     let n := 2 ^ w.toNat
     copies s (.vsel d a b m) d.toNat 1
       (fun l => (s.group, if (s.mreg s.group m.toNat).getLsbD l then a.toNat else b.toNat)) ∧
     copies s (.vmov d6 a6) (s.vwin d6.toNat) 1 (fun _ => (s.group, s.vwin a6.toNat)) ∧
     copies s (.vmov64 d a) d.toNat 1 (fun _ => (s.group, a.toNat)) ∧
     copies s (.vxcp d6 a6 g) (s.vwin d6.toNat) 6 (fun _ => (g.toNat, s.vwin a6.toNat)) ∧
     copies s (.vxcp64 d a g) d.toNat 6 (fun _ => (g.toNat, a.toNat)) ∧
     (∃ u val, exec (.vsplat d6 r w) s = .next u ∧ onlyOwes s u ∧ u.ctx.q.results = s.ctx.q.results ++
         [⟨.vreg s.group (s.vwin d6.toNat), val, s.lanes, if s.spois r.toNat then s.lanes else 0, 1, false⟩] ∧
       ∀ l e, l < 16 → e < n → elem (32 / n) (val.extractLsb' (32 * l) 32) e = (s.sreg r.toNat).toNat % 2 ^ (32 / n)) ∧
     (∃ u val, exec (.vsplat64 d im w) s = .next u ∧ onlyOwes s u ∧
       u.ctx.q.results = s.ctx.q.results ++ [⟨.vreg s.group d.toNat, val, s.lanes, 0, 1, false⟩] ∧
       ∀ l e, l < 16 → e < n → elem (32 / n) (val.extractLsb' (32 * l) 32) e = im.toNat % 2 ^ (32 / n)) ∧
     (s.spois r.toNat = false → ∃ u val, exec (.viota d6 r t w g1) s = .next u ∧ onlyOwes s u ∧
       u.ctx.q.results = s.ctx.q.results ++ [⟨.vreg s.group (s.vwin d6.toNat), val, s.lanes, 0, 1, false⟩] ∧
       ∀ l e, l < 16 → e < n → elem (32 / n) (val.extractLsb' (32 * l) 32) e =
         ((s.sreg r.toNat).toNat + t.toNat * (n * l + e + if g1 = 1 then s.group * (16 * n) else 0)) % 2 ^ (32 / n))) ∧
  (∀ (s : State) (d a b : BitVec 10) (c : BitVec 4) (i : Instr),
     i ∈ [.vadd64 d a b c, .vsub64 d a b c, .vmul64 d a b c, .vmin64 d a b c, .vmax64 d a b c, .viadd64 d a b c,
       .visub64 d a b c, .vimul64 d a b c, .vimin64 d a b c, .vimax64 d a b c, .vand64 d a b, .vor64 d a b, .vxor64 d a b,
       .vshl64 d a b c, .vshr64 d a b c, .vsar64 d a b c] →
     (∀ l, s.inh = false → l < 16 → s.lanes.getLsbD l = true →
       s.vpois s.group a.toNat l = true ∨ s.vpois s.group b.toNat l = true →
       ∃ t, exec i s = .next t ∧ t.issue.trap.isSome = true ∧ t.ctx.regs = s.ctx.regs ∧ t.mem = s.mem ∧
         t.ctx.c.tcause.extractLsb' 0 8 = 0x12#8 ∧ t.ctx.c.tnext = t.ctx.c.tbund) ∧
     (lanesClean s [a.toNat, b.toNat] → ∃ t, exec i s = .next t ∧ onlyOwes s t))

/-- 11 R332, R333: a reduction puts one value of the elements of the enabled lanes, from the exact sum or the extreme,
into element 0 and keeps the rest of that lane; a scan gives each element its prefix. With WIDE the sum is written wide.
11 R330, R334, 02 R78: VPERM picks each element by an index modulo the element count; VCOMPRESS packs the elements of the
enabled lanes to the low end and VEXPAND spreads them back, both counting them into a scalar; with Z the other elements are
zero, else kept. All three are copies: a lane that takes an element of a poisoned lane is poisoned. That what stays is what the
destination held at issue, and the lane and element a reduction's draw is numbered by, are the model's reading (logs 25, 26). -/
def Obligations.ReductionsAndPermutations : Prop :=
  (∀ (s : State) (d6 a6 : BitVec 6) (d a : BitVec 10) (k et w x : BitVec 1) (e4 : BitVec 4), etPerm e4 = true →
     let kc := if k = 0 then et.toNat else 10 - et.toNat
     let c := e4.toNat
     let wide := if c ≤ 2 then 0 else if c ≤ 11 then 10 else 14
     let sum (i o : Nat) (l : List Nat) : Nat :=
       if isFloat i then (if l = [] then 0 else s.vround o 0 0 (flSum s.vdown (l.map (decodeFloat i))))
       else fitted s o ((l.map (number i)).sum)
     let ends (mx : Bool) (i : Nat) (l : List Nat) : Nat := extreme i mx l
     reduces s (.vredadd d6 a6 k et) (s.vwin d6.toNat) (s.vwin a6.toNat) kc kc 6 (sum kc kc) ∧
     reduces s (.vredadd64 d a e4 w) d.toNat a.toNat c (if w = 1 then wide else c) 6 (sum c (if w = 1 then wide else c)) ∧
     reduces s (.vredmax d6 a6 k et) (s.vwin d6.toNat) (s.vwin a6.toNat) kc kc 4 (ends true kc) ∧
     reduces s (.vredmax64 d a e4) d.toNat a.toNat c c 4 (ends true c) ∧
     reduces s (.vredmin d6 a6 k et) (s.vwin d6.toNat) (s.vwin a6.toNat) kc kc 4 (ends false kc) ∧
     reduces s (.vredmin64 d a e4) d.toNat a.toNat c c 4 (ends false c) ∧
     (let before (i r : Nat) (ex : Bool) (j : Nat) : List Nat :=
        ((s.selected (codeWidth i)).filter fun n => if ex then decide (n < j) else decide (n ≤ j)).map
          (s.gelem (codeWidth i) r)
      let scan (i l e : Nat) (v : List Nat) : Nat :=
        if isFloat i then (if v = [] then 0 else s.vround i l e (flSum s.vdown (v.map (decodeFloat i))))
        else fitted s i ((v.map (number i)).sum)
      elementwise s (.vscan d6 a6 k et) (s.vwin d6.toNat) [s.vwin a6.toNat] kc 6
        (fun l e _ => scan kc l e (before kc (s.vwin a6.toNat) false (32 / codeWidth kc * l + e))) ∧
      elementwise s (.vscan64 d a e4 x) d.toNat [a.toNat] c 6
        (fun l e _ => scan c l e (before c a.toNat (x == 1) (32 / codeWidth c * l + e))))) ∧
  (∀ (s : State) (d6 a6 b6 r : BitVec 6) (d a b : BitVec 10) (et z : BitVec 1) (e4 : BitVec 4), etPerm e4 = true →
     let w64 := codeWidth e4.toNat
     let perm (i : Instr) (dd aa bb w : Nat) : Prop :=
       lanesClean s [bb] → ∃ t val p, exec i s = .next t ∧ onlyOwes s t ∧
         t.ctx.q.results = s.ctx.q.results ++ [⟨.vreg s.group dd, val, s.lanes, p, 2, false⟩] ∧
         ∀ l, l < 16 → s.lanes.getLsbD l = true →
           let pick (e : Nat) : Nat := s.gelem w bb (32 / w * l + e) % (512 / w)
           (p.getLsbD l = (List.range (32 / w)).any fun e => s.vpois s.group aa (pick e / (32 / w))) ∧
           ∀ e, e < 32 / w → elem w (val.extractLsb' (32 * l) 32) e = s.gelem w aa (pick e)
     let place (i : Instr) (dd aa w : Nat) (from_ : Nat → Option Nat) : Prop :=
       ∃ t val lanes p, exec i s = .next t ∧ onlyOwes s t ∧
         t.ctx.q.results = s.ctx.q.results ++ [⟨.vreg s.group dd, val, lanes, p, 3, false⟩,
           ⟨.sreg (s.sname r.toNat), (BitVec.ofNat 64 (s.selected w).length).setWidth 512, 1, 0, 3, false⟩] ∧
         ∀ l, l < 16 →
           let src (e : Nat) : Option Nat := from_ (32 / w * l + e)
           (lanes.getLsbD l = (z == 1 || (List.range (32 / w)).any fun e => (src e).isSome)) ∧
           (lanes.getLsbD l = true → p.getLsbD l = (List.range (32 / w)).any fun e => match src e with
             | some n => s.vpois s.group aa (n / (32 / w))
             | none => z == 0 && s.vpois s.group dd l) ∧
           ∀ e, e < 32 / w → elem w (val.extractLsb' (32 * l) 32) e = match src e with
             | some n => s.gelem w aa n
             | none => if z = 1 then 0 else s.gelem w dd (32 / w * l + e)
     perm (.vperm d6 a6 b6 et) (s.vwin d6.toNat) (s.vwin a6.toNat) (s.vwin b6.toNat) (32 / 2 ^ et.toNat) ∧
     perm (.vperm64 d a b e4) d.toNat a.toNat b.toNat w64 ∧
     place (.vcompress d6 a6 r z) (s.vwin d6.toNat) (s.vwin a6.toNat) 32 (fun j => (s.selected 32)[j]?) ∧
     place (.vcompress64 d a r z e4) d.toNat a.toNat w64 (fun j => (s.selected w64)[j]?) ∧
     place (.vexpand d6 a6 r z) (s.vwin d6.toNat) (s.vwin a6.toNat) 32 (fun j => (s.selected 32).idxOf? j) ∧
     place (.vexpand64 d a r z e4) d.toNat a.toNat w64 (fun j => (s.selected w64).idxOf? j))

/-- 11 R335 to R339, 04 R133: VCVT converts the elements PART names to the other format, keeping what it does not write;
VRND rounds stochastically with R bits and encodes in its source format; VRNG gives each enabled lane its own draw; VPACK
narrows two registers into one; VUNPK widens the elements PART names. 11 R340, R341: VSPCOMP keeps the two largest of
each column of four rows, the larger first and the lowest row winning ties, with their rows and whether any element is
not zero; VBLKSCL takes the larger magnitude lane by lane, computes the block scale of the enabled lanes, or encodes one
element. That what stays is what the destination held at issue (log 25), how results are clipped and where a NaN ranks (log 21), and
how a NaN scale encodes (log 27) are the model's reading. -/
def Obligations.VectorConversionAndSparsityResults : Prop :=
  (∀ (s : State) (d6 : BitVec 6) (d a b : BitVec 10) (sf df : BitVec 4) (p : BitVec 3) (m r : BitVec 6) (x : BitVec 8)
     (r5 : BitVec 5) (k : BitVec 2), s.spois m.toNat = false → s.spois r.toNat = false →
     let ws := codeWidth sf.toNat
     let wr := codeWidth df.toNat
     let el (reg l e : Nat) : Nat := elem ws (s.vlane s.group reg l) e
     (vcvtOk sf df p = true → lanesClean s [a.toNat] → ∃ t val q, exec (.vcvt d a sf df p m x) s = .next t ∧ onlyOwes s t ∧
       t.ctx.q.results = s.ctx.q.results ++ [⟨.vreg s.group d.toNat, val, s.lanes, q, 4, false⟩] ∧
       ∀ l j, l < 16 → j < 32 / wr → s.lanes.getLsbD l = true →
         let mult := (if m = 0 then Fl.fin false 1 0 else low32 (s.sreg m.toNat)).mul (.fin false 1 x.toInt)
         let conv (e : Nat) : Nat := scv sf.toNat df.toNat (s.vecRnd s.group l e) s.clipOf mult (el a.toNat l e) % 2 ^ wr
         elem wr (val.extractLsb' (32 * l) 32) j =
           if ws ≤ wr then conv (p.toNat * (32 / wr) + j)
           else if 32 / ws * p.toNat ≤ j ∧ j < 32 / ws * (p.toNat + 1) then conv (j - 32 / ws * p.toNat)
           else elem wr (s.vlane s.group d.toNat l) j) ∧
     (vrndOk sf df = true → elementwise s (.vrnd d a sf df r5) d.toNat [a.toNat] sf.toNat 3 (fun l e v =>
       let bits := drawBits s.ctx.c.rkey (laneCounter s.ctx.c.rctr s.group l 0) e r5.toNat
       roundFloat sf.toNat rne 0 (decodeFloat df.toNat (roundFloat df.toNat ⟨5, r5.toNat, bits⟩ s.clipOf.1
         (clip df.toNat s.clipOf.1 s.clipOf.2 (decodeFloat sf.toNat (v.getD 0 0))))))) ∧
     lanewise s (.vrng d6 k) (s.vwin d6.toNat) [] 4 (fun l =>
       let w0 := philox s.ctx.c.rkey (laneCounter s.ctx.c.rctr s.group l 0) 0
       if k = 0 then w0 else toF32 rne (.fin false (w0.toNat / 256) (-24))) ∧
     (vpackOk sf = true → lanesClean s [a.toNat, b.toNat] → ∃ t val, exec (.vpack d a b sf) s = .next t ∧ onlyOwes s t ∧
       t.ctx.q.results = s.ctx.q.results ++ [⟨.vreg s.group d.toNat, val, s.lanes, 0, 2, false⟩] ∧
       ∀ l j, l < 16 → j < 64 / ws → s.lanes.getLsbD l = true →
         let v := number sf.toNat (if j < 32 / ws then el a.toNat l j else el b.toNat l (j - 32 / ws))
         elem (ws / 2) (val.extractLsb' (32 * l) 32) j =
           ((if s.clipOf.1 = 0 then v else saturate (sf.toNat - 1) v) % 2 ^ (ws / 2)).toNat) ∧
     (vunpkOk sf df p = true → lanesClean s [a.toNat] → ∃ t val, exec (.vunpk d a sf df p r) s = .next t ∧ onlyOwes s t ∧
       t.ctx.q.results = s.ctx.q.results ++ [⟨.vreg s.group d.toNat, val, s.lanes, 0, 2, false⟩] ∧
       ∀ l j, l < 16 → j < 32 / wr → s.lanes.getLsbD l = true → elem wr (val.extractLsb' (32 * l) 32) j =
         widen sf.toNat df.toNat (if r = 0 then 0x7F else (s.sreg r.toNat).extractLsb' 0 8)
           (if r = 0 then 0 else (s.sreg r.toNat).extractLsb' 8 8) (el a.toNat l (p.toNat * (32 / wr) + j)) % 2 ^ wr)) ∧
  (∀ (s : State) (d a x b : BitVec 10) (m sf df : BitVec 4) (p : BitVec 3),
     let w := codeWidth sf.toNat
     (vspcompOk sf x a d = true → (∀ l k, l < 16 → k < 4 → s.vpois s.group (a.toNat + k) l = false) →
       ∃ t lo hi ix, exec (.vspcomp d a x m sf) s = .next t ∧ onlyOwes s t ∧
         t.ctx.q.results = s.ctx.q.results ++ [⟨.vreg s.group d.toNat, lo, 0xFFFF, 0, 4, false⟩,
           ⟨.vreg s.group (d.toNat + 1), hi, 0xFFFF, 0, 4, false⟩, ⟨.vreg s.group x.toNat, ix, 0xFFFF, 0, 4, false⟩,
           ⟨.mreg s.group m.toNat, if (List.range (512 / w)).any fun j => (List.range 4).any fun row =>
             !isZeroCode sf.toNat (s.gelem w (a.toNat + row) j) then 1 else 0, 0xFFFF, 0, 4, false⟩] ∧
         (∀ j, j < 512 / w →
           let el (row : Nat) : Nat := s.gelem w (a.toNat + row) j
           let kept := keepTwo fun row => decodeFloat sf.toNat (el row)
           let half := if j < 256 / w then lo else hi
           let n := 2 * (j % (256 / w))
           kept.1 < 4 ∧ kept.2 < 4 ∧ kept.1 ≠ kept.2 ∧
           elem w (half.extractLsb' (32 * (n / (32 / w))) 32) (n % (32 / w)) = el kept.1 ∧
           elem w (half.extractLsb' (32 * ((n + 1) / (32 / w))) 32) ((n + 1) % (32 / w)) = el kept.2 ∧
           elem 4 (ix.extractLsb' (32 * (j / 8)) 32) (j % 8) = kept.1 + 4 * kept.2) ∧
         ∀ j, 512 / w ≤ j → j < 128 → elem 4 (ix.extractLsb' (32 * (j / 8)) 32) (j % 8) = 0) ∧
     lanewise s (.vblkscl d a b 0 df p) d.toNat [a.toNat, d.toNat] 4 (fun l => let u := s.vlane s.group a.toNat l
       let v := s.vlane s.group d.toNat l
       let w := if f32 u = .nan ∨ magGt (f32 u) (f32 v) then u else v
       if f32 w = .nan then BitVec.ofNat 32 (canonNan 0) else w) ∧
     (let x (l : Nat) : Fl := f32 (s.vlane s.group a.toNat l)
      ∀ n, n < 16 → s.lanes.getLsbD n = true →
       (∀ l, l < 16 → s.lanes.getLsbD l = true → magGt (x l) (x n) = false ∧ (l < n → magGt (x n) (x l) = true)) →
       lanewise s (.vblkscl d a b 1 df p) d.toNat [a.toNat] 4 (fun _ =>
         let r := blockScale df.toNat (some (x n))
         BitVec.ofNat 32 (r.1 + 256 * r.2))) ∧
     (lanesClean s [a.toNat, b.toNat] → ∃ t val q, exec (.vblkscl d a b 2 df p) s = .next t ∧ onlyOwes s t ∧
       t.ctx.q.results = s.ctx.q.results ++ [⟨.vreg s.group d.toNat, val, s.lanes, q, 4, false⟩] ∧
       ∀ l e, l < 16 → e < 8 → s.lanes.getLsbD l = true → elem 4 (val.extractLsb' (32 * l) 32) e =
         if e = p.toNat then
           blockCode ((s.vlane s.group b.toNat l).toNat % 256) ((s.vlane s.group b.toNat l).toNat / 256 % 256)
             (f32 (s.vlane s.group a.toNat l)) % 16
         else elem 4 (s.vlane s.group d.toNat l) e))

/-- 07 R188, R194, R196, 08 R218: where the core has a bundle to issue, it issues: a one-tick bundle runs held words
only; a held word repeats where its position is free; a loop tick runs of each body bundle the iteration due and moves
the loop on. Issuing moves the program counter and changes no register and no memory. 07 R192, R193, R205, R207, 09 R254:
a group whose members have all joined and stand at a G bundle starts lock-step; a group tick in which each member would
issue lets every member issue one bundle, and where only some of the next bundles have G lock-step is suspended, the members
at theirs staying frozen (that a bundle is a G bundle where one of the body bundles of its loop tick is, is the model's choice,
log 36); where one of them would not, all stay frozen. Where each tick of a cluster may pass, those to the end of its step do: in the last, filler
makes up the deficit, rounded up to a multiple of 4 wu (14 R384), and is counted, a new CEIL is in force, and what the power
limits held is looked at again. -/
def Obligations.BundlesIssueGroupsTick : Prop :=
  ((∀ (s s1 : State) (p : Plan), s.prep = (s1, some p) →
     let t := s1.commit p
     (s1.ctx.seq = none → (∀ x ∈ p.words, x.2.2 = true) → exec .oneTickBundle s = .next t) ∧
     ((∃ x ∈ p.words, x.2.2 = true) → exec .heldWordRepeat s = .next t) ∧
     (∀ q, s1.ctx.seq = some q → exec .loopTick s = .next t ∧ t.ctx.seq = some { q with tick := q.tick + 1 } ∧
       ∀ x ∈ p.words, x.2.2 = false → ∃ b w, q.body[b]? = some w ∧ x.1 ∈ w.2.2.2 ∧ b % q.ii = q.tick % q.ii ∧
         b ≤ q.tick ∧ x.2.1 = some ((q.tick - b) / q.ii) ∧ (q.tick - b) / q.ii < q.rounds) ∧
     (∀ x ∈ p.words, x.2.2 = true →
       (∃ h ∈ s1.ctx.holds, h.slot = x.1) ∧ ∀ y ∈ p.words, y.2.2 = false → slotPos y.1 ≠ slotPos x.1) ∧
     t.ctx.pc = p.next ∧ t.ctx.regs = s1.ctx.regs ∧ t.ctx.c = s1.ctx.c ∧ t.ctx.q = s1.ctx.q ∧
     (s1.flights = [] → t.mem = s1.mem) ∧
     t.issue.live = true ∧ t.issue.addr = p.addr) ∧
   ∀ s : State, s.mayIssue = false →
     exec .oneTickBundle s = .next s ∧ exec .heldWordRepeat s = .next s ∧ exec .loopTick s = .next s) ∧
  (∀ (s : State),
     let ids := s.memberIds s.arg.a s.arg.b
     let atG (c : Context) (b : Bool) : Context := { c with c := { c.c with
       gid := if b then c.c.gid ||| 0x100 else c.c.gid &&& ~~~ 0x100 } }
     let free (c : Context) : Context := { c with freezes := c.freezes.filter fun f => f != .lockstep }
     (ids ≠ [] → (∀ id ∈ ids, id < 4096 ∧ (s.getCtx id).members = ids.length ∧ (s.getCtx id).c.gid.getLsbD 8 = false ∧
         Freeze.lockstep ∈ (s.getCtx id).freezes ∧ s.nextG id = true) →
       ∃ t, exec .lockstepStart s = .next t ∧ (∀ id ∈ ids, t.getCtx id = atG (s.getCtx id) true) ∧
         (∀ id, id ∉ ids → t.getCtx id = s.getCtx id) ∧ t.mem = s.mem) ∧
     let u := ids.foldl (fun s id => s.modCtx id free) s
     (ids ≠ [] → (∀ id ∈ ids, id < 4096 ∧ (s.getCtx id).c.gid.getLsbD 8 = true ∧
         (u.focus id).mayIssue = true ∧ s.hasRoom id = true ∧ Freeze.lockstep ∈ (s.getCtx id).freezes ∧
         ∀ l, s.launchOf (s.getCtx id) = some l → l.halt = none) →
       ((∀ id ∈ ids, (u.memberTry id).2 = true) →
         ∃ t, exec .groupTick s = .next t ∧ (∀ id, id ∉ ids → t.getCtx id = s.getCtx id) ∧ t.mem = s.mem ∧
         ((∀ id ∈ ids, s.nextG id = false) ∨ (∀ id ∈ ids, s.nextG id = true) →
           ∀ id ∈ ids, t.getCtx id = free (s.getCtx id)) ∧
         ((∃ id ∈ ids, s.nextG id = false) → (∃ id ∈ ids, s.nextG id = true) → ∀ id ∈ ids, t.getCtx id =
           if s.nextG id then atG (s.getCtx id) false else free (atG (s.getCtx id) false))) ∧
       ((∃ id ∈ ids, (u.memberTry id).2 = false) →
         ∃ t, exec .groupTick s = .next t ∧ ∀ id ∈ ids, Freeze.lockstep ∈ (t.getCtx id).freezes)) ∧
     (s.arg.a < 128 → s.tickOver s.arg.a = false → exec .slewFiller s = .next s) ∧
     (s.arg.a < 128 → (∀ n, n < 4 - (s.getClu s.arg.a).tick % 4 →
         State.tickOver ((List.range n).foldl (fun s _ => s.nextTick s.arg.a) s) s.arg.a = true) →
       (s.getClu s.arg.a).oper.settling = false →
       let u := s.getClu s.arg.a
       ∃ t, exec .slewFiller s = .next t ∧ t.getClu s.arg.a = { u with
           tick := u.tick + (4 - u.tick % 4), fillc := u.fillc + BitVec.ofNat 64 (fillerOf u)
           slew := ⟨0, u.slew.p + fillerOf u⟩, denied := [], ceil := u.ceilNew.getD u.ceil, ceilNew := none } ∧
         (∀ q, q ≠ s.arg.a → t.getClu q = s.getClu q) ∧ t.mem = s.mem ∧
         ∀ id, t.getCtx id = if id / 32 = s.arg.a then
           { s.getCtx id with freezes := (s.getCtx id).freezes.filter fun f => !f.again } else s.getCtx id))

/-- 07 R208 to R210, 21 R456, R458: a step of an operating point that has settled is followed by the next or ends the
transition; the management processor's transitions start at once or wait for the step in progress; RAMPn takes what is
written; CEIL from the next tick on follows from the budget and the die's thermal ceiling; D is 1,520 W and what each cluster
with a running launch draws at its point for its declared weights, which are free values (log 2). 21 R460, R461: every thermal
period the valve follows the die's temperature, the die's headroom is what it has to 90 °C, and its thermal ceiling falls by an eighth at
90 °C and rises by 1,024 at 87 °C and below; at 105 °C its clusters go to OP0, each to come back to its point. What CUR reads
during a step, that a later target waits, and that settling ticks pass by themselves are the model's choice (log 38), as are the
rounding of the valve position and the CEIL that a thermal update writes (log 48). -/
def Obligations.OperatingPointsFollowPowerAndHeat : Prop :=
  (∀ (s : State), s.arg.a < 128 →
     let u := s.getClu s.arg.a
     let o := u.oper
     (o.settling = true → s.settleDue s.arg.a = true → o.mgmt = none →
       ∃ t u', exec .opsetSettleStep s = .next t ∧ cluSet s t s.arg.a u' ∧ u'.tick = max u.tick o.due ∧
         (o.step = o.tgt → o.queued = none → u'.oper = { o with
           cur := o.step, settling := false, byMgmt := false }) ∧
         (o.step < o.tgt → u'.oper = { o with
           cur := o.step, step := o.step + 1, due := u'.tick + Config.settleTicks o.step }) ∧
         (o.tgt < o.step → u'.oper = { o with
           cur := o.step - 1, step := o.step - 1, due := u'.tick + Config.settleTicks (o.step - 1) })) ∧
     (s.arg.b < 8 → o.back = none → o.settling = true →
       ∃ t, exec .mgmtOpTransition s = .next t ∧ cluSet s t s.arg.a { u with oper := { o with mgmt := some s.arg.b } }) ∧
     (s.arg.b < 8 → o.back = none → o.settling = false → o.cur < s.arg.b →
       ∃ t, exec .mgmtOpTransition s = .next t ∧ cluSet s t s.arg.a { u with oper := { o with
         tgt := s.arg.b, settling := true, byMgmt := true, step := o.cur + 1
         due := u.tick + Config.settleTicks o.cur } }) ∧
     (∀ b, s.arg.b < 8 → o.back = some b →
       ∃ t, exec .mgmtOpTransition s = .next t ∧ cluSet s t s.arg.a { u with oper := { o with back := some s.arg.b } }) ∧
     (s.arg.b < 8 → ∃ t u', exec .rampWrite s = .next t ∧ cluSet s t s.arg.a u' ∧
       u'.rampOf s.arg.b = s.arg.w &&& 0xFFFFFFFF ∧ (∀ n, n < 8 → n ≠ s.arg.b → u'.rampOf n = u.rampOf n) ∧
       { u' with ramp := u.ramp } = u) ∧
     (s.mgmt.power ≠ .off → ∃ t, exec .ceilUpdate s = .next t ∧ t.ctx = s.ctx ∧ t.mem = s.mem ∧
       (∀ p, p < 128 →
         let win := min 8191 ((s.mgmt.budget - 1520) * 160000000 /
           (1024 * Config.opEnergy (s.getClu p).oper.cur * Config.opMHz (s.getClu p).oper.cur))
         t.getClu p = { s.getClu p with
           budgetCeil := win, ceilNew := some (BitVec.ofNat 64 (min (s.getClu p).theta win)) })) ∧
     (s.mgmt.power ≠ .off → ∃ (n : Nat) (w : Nat → Nat), (∀ p, w p ≤ 8 * 8191 ∧ (s.holders p [] = [] → w p = 0)) ∧
       exec .demandUpdate s = .next { s with
         draws := s.draws + n
         mgmt := { s.mgmt with dem := min 4095 (1520 + ((List.range 128).map fun p =>
           w p * Config.opEnergy (s.getClu p).oper.cur * Config.opMHz (s.getClu p).oper.cur).sum / 160000000) } })) ∧
  (∀ (s : State), s.arg.a < 8 → s.arg.flag = false → s.mgmt.power ≠ .off →
     NatMap.get false s.mgmt.tripped s.arg.a = false →
     let temp := s.arg.temp
     ∃ t, exec .thermalUpdate s = .next t ∧ t.ctx = s.ctx ∧ t.mem = s.mem ∧
       NatMap.get 0 t.mgmt.temp s.arg.a = temp ∧
       NatMap.get 0 t.mgmt.valve s.arg.a =
         (if temp ≤ 240 then 64 else if 360 ≤ temp then 255 else (64 + (temp - 240) * 191 / 120).toNat) ∧
       NatMap.get false t.mgmt.tripped s.arg.a = decide (420 ≤ temp) ∧
       (∀ p, p < 128 → p / 16 ≠ s.arg.a → t.getClu p = s.getClu p) ∧
       ∀ p, p < 128 → p / 16 = s.arg.a →
         (t.getClu p).hr = 360 - temp ∧
         (t.getClu p).theta = (if 360 ≤ temp then max 64 ((s.getClu p).theta - (s.getClu p).theta / 8)
           else if temp ≤ 348 then min 8191 ((s.getClu p).theta + 1024) else (s.getClu p).theta) ∧
         (t.getClu p).budgetCeil = (s.getClu p).budgetCeil ∧
         (t.getClu p).ceilNew = some (BitVec.ofNat 64 (min (s.getClu p).budgetCeil (t.getClu p).theta)) ∧
         (temp < 420 → (t.getClu p).oper = (s.getClu p).oper) ∧
         (420 ≤ temp → (s.getClu p).oper.back = none → (s.getClu p).oper.mgmt = none →
           (s.getClu p).oper.settling = false →
           (t.getClu p).oper.back = some (s.getClu p).oper.cur ∧ (t.getClu p).oper.tgt = 0))

/-- 03 R83 to R86, R97, R104, R105: with nothing voted and no write waiting the clock stands; it gives a voted transaction the
next stamp, or the group of plain writes that are ready, whose line keeps the version before as a record and whose store
leaves its queue as PCLK reaches the stamp; at the clock's end a waiting store is refused, one that comes to the head of its queue
then faults with ACCESS and code WRITE, and a command whose update waits stops with the same. A prepare votes YES and locks, NO
where a newer version than the transaction's stamp was committed, or waits for an older lock; a stamped line is published in
place, and the last one ends the transaction with its stamp once PCLK reaches it. -/
def Obligations.StampsPreparesPublishes : Prop :=
  ∀ (s : State) (n cid tid st k land l id : Nat) (yes waits done : List Nat) (d : BitVec 1024) (po : BitVec 16)
    (al : Bool), cid < 4096 → s.halted = false → s.upsets = [] → unwatched s →
    let e := s.lineEntry l
    let h := hubOf (128 * l)
    (s.txs.all (fun x => !s.voted x.1) = true → s.autoQ = [] → exec .stampIssue s = .next s) ∧
    (∀ g v sy, s.txs = [] → s.autoQ = [⟨l, .write [g], .store cid id, tid, al, sy⟩] → s.lineFree l = true →
      s.groupRoom [] l = true → s.cclk + 1 < 0xFFFFFF00000001 → g.addr % 8 = 0 → g.addr / 128 = l → g.data = some v →
      e.stamp ≤ s.cclk → s.unpublished = [] →
      ∃ t, exec .stampIssue s = .next t ∧ t.cclk = s.cclk + 1 ∧ t.pclk = max s.pclk (s.cclk + 1) ∧ t.autoQ = [] ∧
        (∀ x ∈ (t.getCtx cid).q.sq, x.id ≠ id) ∧ (t.lineEntry l).stamp = s.cclk + 1 ∧
        (t.lineEntry l).chain = ⟨e.stamp, (s.lineImage l).1, (s.lineImage l).2⟩ :: e.chain ∧
        (∀ i, i < 8 → t.byte (g.addr + i) = if g.mask.getLsbD i then byteOf v i else s.byte (g.addr + i)) ∧
        (∀ a, a < g.addr ∨ g.addr + 8 ≤ a → t.byte a = s.byte a)) ∧
    (∀ w, s.txs = [] → s.autoQ = [w] → w.src = .store cid id → s.cclk = 0xFFFFFFFFFFFFFF →
      ∃ t, exec .stampIssue s = .next t ∧ t.cclk = s.cclk ∧ t.autoQ = [] ∧ t.mem = s.mem ∧ t.dir = s.dir ∧
        (t.getCtx cid).q.sq = (s.getCtx cid).q.sq.map fun x => if x.id = id then { x with sent := .no } else x) ∧
    (∀ x g leaf pa rest, s.cclk = 0xFFFFFFFFFFFFFF → s.ctx.q.sq = x :: rest → s.arg.a = x.id → s.arg.b = 0 →
      x.kind = .store [g] none → x.local_ = false → x.tx = none → s.core.ecc = false → s.storeReady x = true →
      s.translateCtx g.addr .write = (s, .ok pa leaf) → leafPeer leaf = 0 → leafVer leaf = true →
      ∃ t, exec .storePerform s = .next t ∧ t.ctx.pend = s.ctx.pend ++ [⟨0x09, 5, x.bundle, g.addr, x.handler⟩] ∧
        t.ctx.q.sq = [] ∧ t.ctx.q.csq = s.ctx.q.csq ++ s.ctx.q.sq ∧ t.ctx.regs = s.ctx.regs ∧ t.mem = s.mem) ∧
    (∀ w i off left c dst src len o ety, s.cclk = 0xFFFFFFFFFFFFFF → s.txs = [] → s.autoQ = [w] →
      w.src = .copy i off left → s.copyOf i = some c → i < 8192 → c.op = .cpacc dst src len o ety → c.st = .running →
      s.colls = [] →
      ∃ t c', exec .stampIssue s = .next t ∧ t.cclk = s.cclk ∧ t.autoQ = [] ∧ t.copyOf i = some c' ∧
        c'.st = .faulted 0x09 5 (dst + off) ∧ t.ctx.regs = s.ctx.regs) ∧
    (s.txs = [(n, ⟨cid, tid, st, none, .committing land yes waits⟩)] → s.voted n = true → s.autoQ = [] →
      s.cclk + 1 < 0xFFFFFF00000001 →
      ∃ t, exec .stampIssue s = .next t ∧ t.cclk = s.cclk + 1 ∧
        NatMap.find? t.txs n = some ⟨cid, tid, st, none, .stamped land (s.cclk + 1) []⟩ ∧
        t.unpublished = s.unpublished ++ [s.cclk + 1] ∧ t.dir = s.dir ∧ t.mem = s.mem) ∧
    (s.arg.a = n → s.arg.b = h → NatMap.find? s.txs n = some ⟨cid, tid, st, none, .committing land yes waits⟩ → h ∉ yes →
      s.txLines n h = [l] → NatMap.find? e.recs n = some (.tentative d po) → s.recordOkReserve h 144 = true →
      let newest := max e.stamp (e.chain.foldl (fun m r => max m r.stamp) 0)
      (e.lock = none → e.merge = [] → newest ≤ st →
        ∃ t, exec .txPrepare s = .next t ∧ (t.lineEntry l).lock = some n ∧ t.mem = s.mem ∧
          NatMap.find? t.txs n = some ⟨cid, tid, st, none, .committing land (yes ++ [h]) (waits.filter fun x => x != h)⟩) ∧
      (e.lock = none → st < newest →
        ∃ t, exec .txPrepare s = .next t ∧ NatMap.find? t.txs n = none ∧ t.mem = s.mem ∧
          NatMap.find? (t.lineEntry l).recs n = none ∧
          answered s t cid land (.value (BitVec.ofNat 64 (1 + 256 * newest)) false)) ∧
      (∀ u, e.lock = some u → u ≠ n → s.older n u = true → h ∉ waits →
        ∃ t, exec .txPrepare s = .next t ∧ (t.lineEntry l).lock = some u ∧ t.mem = s.mem ∧
          NatMap.find? t.txs n = some ⟨cid, tid, st, none, .committing land yes (waits ++ [h])⟩)) ∧
    (NatMap.find? s.txs s.arg.a = some ⟨cid, tid, st, none, .committing land yes waits⟩ →
      (s.arg.b ∈ waits → exec .prepareResume s = exec .txPrepare s) ∧
      (s.arg.b ∉ waits → exec .prepareResume s = .next s)) ∧
    (s.arg.a = n → s.arg.b = h → s.writeSet n = [l] → s.txs = [(n, ⟨cid, tid, st, none, .stamped land k done⟩)] →
      s.unpublished = [k] → k ≤ s.cclk → h ∉ done → e.recs = [(n, .tentative d po)] → e.stamp < k →
      ∃ t, exec .txPublish s = .next t ∧ (t.lineEntry l).stamp = k ∧
        (t.lineEntry l).chain = ⟨e.stamp, (s.lineImage l).1, (s.lineImage l).2⟩ :: e.chain ∧
        t.lineImage l = (d, po) ∧ (∀ a, a < 128 * l ∨ 128 * l + 128 ≤ a → t.byte a = s.byte a) ∧
        NatMap.find? t.txs n = none ∧ t.unpublished = [] ∧ t.pclk = max s.pclk s.cclk ∧
        answered s t cid land (.value (BitVec.ofNat 64 (256 * k)) true))

/-- 03 R96, R98, R99: a hub's collector changes no byte, no version that a reader at the low-water stamp or later sees, and no
line of another hub or under a lock; COLFREED counts the records it frees, and a scan that reaches the last entry stands at
the first again (where SCAN stands is the model's choice, log 68). -/
def Obligations.CollectorKeepsWhatIsVisible : Prop :=
  ∀ (s : State), s.arg.a < 4 → (s.dir.map Prod.fst).Nodup →
    ∃ t, exec .collectorReclaim s = .next t ∧ t.mem = s.mem ∧ t.memPoison = s.memPoison ∧ t.ctx = s.ctx ∧
      (∀ l stamp, s.lowWater ≤ stamp → t.visible l stamp = s.visible l stamp) ∧
      (∀ l, hubOf (128 * l) ≠ s.arg.a ∨ (s.lineEntry l).lock.isSome = true → NatMap.find? t.dir l = NatMap.find? s.dir l) ∧
      (∀ l, ∃ gone, (s.lineEntry l).chain = (t.lineEntry l).chain ++ gone) ∧
      (NatMap.get 0 t.colfreed s.arg.a = NatMap.get 0 s.colfreed s.arg.a +
        BitVec.ofNat 64 ((s.dir.map fun x => x.2.chain.length).sum - (t.dir.map fun x => x.2.chain.length).sum)) ∧
      (s.arg.b = 0 → bits (NatMap.get 0 t.colst s.arg.a) 0 56 = 0)

/-- 16 R388 to R390: a write to the tail word of an enabled queue is seen by its processor, which reads it: new records
are read into the queue (HEAD does not pass a CTXSWAP yet, 16 R407), more of them than the ring holds set OVF, a tail word that does not translate sets XLT, and both
disable the queue; enabling a queue takes HEAD from the tail word. 16 R391 to R393, R397, R399: the dispatcher starts the
first command that can start; an unassigned opcode completes failed with FCODE BADOP. The completion word of a command that
is over is written with SEQ, bit 63 set where it failed; once that write has performed the command leaves its queue, QSTAT
keeps a failure, ACCESS where the write was refused, and its launch's number is free. -/
def Obligations.QueuesRunTheirCommands : Prop :=
  (∀ (s : State) (q : Nat) (pa : Nat), s.arg.a = q → q < 8192 →
     let w := s.queue q
     let at_ := w.qtail.toNat % 2 ^ 52 / 8 * 8
     let logsz := if 4 ≤ w.logsz ∧ w.logsz ≤ 16 then w.logsz else 4
     let new (t : Word) : Nat := (t.toNat % 2 ^ 32 + 2 ^ 32 - w.head) % 2 ^ 32
     (w.en = true → ∃ t, exec .tailWordWrite s = .next t ∧ queueSet s t q { w with poll := true }) ∧
     (w.en = false → exec .tailWordWrite s = .next s) ∧
     (s.fwRuns = true → w.en = true → w.poll = true → (s.tenant w.tid).vsaved = false → w.cmds.any Command.holdsHead = false →
       (s.ringOk w.tid at_ = false →
         ∃ t, exec .tailRead s = .next t ∧ queueSet s t q { w with poll := false, xlt := true, en := false }) ∧
       (reaches s w.tid at_ pa .read → s.upsets = [] → unwatched s →
         ∀ v, s.granule pa = some v →
         (new v = 0 → ∃ t, exec .tailRead s = .next t ∧ queueSet s t q { w with poll := false }) ∧
         (2 ^ logsz < new v →
           ∃ t, exec .tailRead s = .next t ∧ queueSet s t q { w with poll := false, ovf := true, en := false }) ∧
         (new v = 1 → s.ringOk w.tid (w.base + 128 * (w.head % 2 ^ logsz)) = false →
           ∃ t, exec .tailRead s = .next t ∧ queueSet s t q { w with poll := false, xlt := true, en := false }) ∧
         (∀ at' (ws : Nat → Word), new v = 1 →
           (∀ i, i < 16 → reaches s w.tid (w.base + 128 * (w.head % 2 ^ logsz) + 8 * i) (at' + 8 * i) .read ∧
             s.granule (at' + 8 * i) = some (ws i)) →
           ∃ t, exec .tailRead s = .next t ∧ t.ctx = s.ctx ∧ t.mem = s.mem ∧
             (t.queue q).cmds = w.cmds ++ [⟨(List.range 16).map ws, false, false, 0, 0, 0, none⟩] ∧
             (t.queue q).head = (if (ws 0).toNat % 256 = 9 then w.head else (w.head + 1) % 2 ^ 32) ∧
             (t.queue q).en = true))) ∧
     (s.arg.b < 256 → s.arg.w.getLsbD 0 = true → (s.arg.b = 0 ∨ w.tid = s.arg.b) →
       let tid := if s.arg.b = 0 then s.arg.w.toNat / 65536 % 256 else w.tid
       let set : WQueue := { w with
         tid := tid, logsz := s.arg.w.toNat / 256 % 16, pri := s.arg.w.toNat / 4 % 8, en := true }
       (s.ringOk tid at_ = false →
         ∃ t, exec .queueEnable s = .next t ∧ queueSet s t q { set with en := false, xlt := true }) ∧
       (reaches s tid at_ pa .read → s.upsets = [] → unwatched s →
         ∀ v, s.granule pa = some v →
         ∃ t, exec .queueEnable s = .next t ∧ queueSet s t q { set with head := v.toNat % 2 ^ 32 }))) ∧
  (∀ (s : State) (q pa : Nat) (c : Command) (rest : List Command), s.arg.a = q → q < 8192 → s.fwRuns = true →
     (s.queue q).cmds = c :: rest →
     (s.mgmt.recov = false → c.started = false → s.candidates.head? = some (.cmd q 0) →
       (c.op ∈ [2, 3, 4, 5, 6, 8, 9, 10] → ∃ t, exec .dispatch s = .next t ∧
         (t.queue q).cmds = { c with started := true } :: rest ∧ t.ctx = s.ctx ∧ t.mem = s.mem) ∧
       (c.op = 0 ∨ 10 < c.op → ∃ t, exec .dispatch s = .next t ∧
         (t.queue q).cmds = { c with started := true, done := true, fail := 1 } :: rest ∧ t.ctx = s.ctx ∧ t.mem = s.mem)) ∧
     (s.candidates = [] → exec .dispatch s = .next s) ∧
     (s.cpOut q = true → exec .commandCompletion s = .next s) ∧
     (s.arg.b = 0 → s.quiet q = true → c.started = true → c.done = true → c.launch = none → c.word 1 = 0 →
       ∃ t, exec .commandCompletion s = .next t ∧ (t.queue q).cmds = rest ∧ t.mem = s.mem ∧ t.ctx = s.ctx ∧
         (c.fail ≠ 0 → (t.queue q).fcode = c.fail ∧ (t.queue q).fseq = (c.word 2).toNat % 2 ^ 32) ∧
         (c.fail = 0 → (t.queue q).fcode = (s.queue q).fcode ∧ (t.queue q).fseq = (s.queue q).fseq)) ∧
     (s.arg.b = 0 → s.quiet q = true → c.started = true → c.done = true → c.launch = none → c.word 1 ≠ 0 →
       reaches s (s.queue q).tid (c.word 1).toNat pa .write → s.upsets = [] → unwatched s → noWaitv rest →
       ∃ t, exec .commandCompletion s = .next t ∧ (t.queue q).cmds = rest ∧ t.ctx = s.ctx ∧
         t.granule pa = some (if c.fail = 0 then c.word 2 else c.word 2 ||| 0x8000000000000000) ∧
         (∀ a, a < pa ∨ pa + 8 ≤ a → t.byte a = s.byte a)) ∧
     (s.cpOut q = false → c.phase = 2 →
       ∃ t, exec .commandCompletion s = .next t ∧ (t.queue q).cmds = rest ∧ t.mem = s.mem ∧ t.ctx = s.ctx ∧
         ((s.queue q).refused = true → (t.queue q).fcode = 3 ∧ (t.queue q).fseq = (c.word 2).toNat % 2 ^ 32) ∧
         (∀ lid, c.launch = some lid → NatMap.find? t.launches lid = none)))

/-- 16 R394 to R397, R399, R403: a checked LAUNCH or UPDJOB that comes first in the dispatcher's order, for which a launch
identifier is free and enough clusters are eligible, is placed on them, and every context of the launch starts with its place in s1 to s3, the argument in s4 and zero in the other
scalar registers; the same where the placement is an event of its own. A job reads CURSOR as it starts, is over where that is
NREC, and fails where it cannot be read (R405). Which context of a core becomes READY first is the model's choice (log 71), as is
the form of a job's launch (log 17). A LAUNCH with reserved bit 7 of word 8 set, or
with no context in CTXM, and in RECOVERY any LAUNCH or UPDJOB, completes failed. -/
def Obligations.LaunchesArePlaced : Prop :=
  ∀ (s : State) (q lid : Nat) (m : List Nat) (c : Command) (rest : List Command), s.arg.a = q → q < 8192 → s.fwRuns = true →
    (s.queue q).cmds = c :: rest → c.started = false → s.tenantWaits (s.queue q).tid = false → noWaitv rest →
    let placed (t : State) : Prop :=
      NatMap.find? t.launches lid = some (launchOf s q c m) ∧ t.nextLid = lid ∧
        (c.op = 1 → (t.queue q).cmds = { c with started := true, launch := some lid } :: rest) ∧
        (∀ u n, c.op = 7 → s.reserveTests.cursorNow q c = (u, some n) → (t.queue q).cmds = { c with
          started := true, launch := some lid, prog := n + 1
          done := decide ((c.words.getD 17 0).toNat ≤ n) } :: rest) ∧
        (c.op = 1 → ∀ x ∈ (launchOf s q c m).contexts,
          let y := t.getCtx x.2
          (y.st = .ready ∨ y.st = .issuing ∨ y.st = .dormant) ∧
          y.place = x.1 ∧ y.regs.k = [] ∧ y.regs.m = [] ∧ y.checked = true ∧ y.c.vcc = 0 ∧
          NatMap.get 0 y.regs.s 1 = BitVec.ofNat 64 x.1.2.2 ∧ NatMap.get 0 y.regs.s 2 = BitVec.ofNat 64 x.1.2.1 ∧
          NatMap.get 0 y.regs.s 3 = BitVec.ofNat 64 x.1.1 ∧ NatMap.get 0 y.regs.s 4 = c.word 4 ∧
          (∀ n, n = 0 ∨ 4 < n → NatMap.get 0 y.regs.s n = 0))
    (c.prog ≠ 0 → s.candidates.head? = some (.cmd q 0) → s.reserveTests.freeLid = some lid →
      s.reserveTests.mapping (s.queue q).tid (c.word 8) [] = some m →
      (c.op = 1 → ∃ t, exec .launch s = .next t ∧ placed t) ∧
      (∀ u n, c.op = 7 → s.reserveTests.cursorNow q c = (u, some n) → ∃ t, exec .updjob s = .next t ∧ placed t) ∧
      (∀ u, c.op = 7 → s.reserveTests.cursorNow q c = (u, none) → ∃ t, exec .updjob s = .next t ∧
        (t.queue q).cmds = { c with started := true, done := true, fail := 3 } :: rest) ∧
      (c.op = 1 ∨ c.op = 7 ∧ (∃ u n, s.reserveTests.cursorNow q c = (u, some n)) →
        ∃ t, exec .launchPlacement s = .next t ∧ placed t)) ∧
    (c.prog = 0 → s.candidates.head? = some (.cmd q 0) →
      let failed (t : State) (code : Nat) : Prop :=
        (t.queue q).cmds = { c with started := true, done := true, fail := code } :: rest ∧ t.mem = s.mem ∧ t.ctx = s.ctx
      (s.mgmt.recov = true → c.op = 1 → ∃ t, exec .launch s = .next t ∧ failed t 1) ∧
      (s.mgmt.recov = true → c.op = 7 → ∃ t, exec .updjob s = .next t ∧ failed t 1) ∧
      (s.mgmt.recov = false → c.op = 1 → (c.word 8).toNat / 2 ^ 7 % 2 = 1 → ∃ t, exec .launch s = .next t ∧ failed t 2) ∧
      (s.mgmt.recov = false → c.op = 1 → fieldsClear c false [3, 4, 5, 6, 7, 8, 9] → c.word 8 = 0 →
        (c.word 3).toNat < 2 ^ 52 → (c.word 5).toNat % 2 ^ 31 = 0 → (c.word 6).toNat % 2 ^ 16 = 0 →
        (c.word 9).toNat < 2 ^ 57 →
        ∃ t, exec .launch s = .next t ∧ failed t 6))

/-- 16 R399, R400, R403 to R405, R407, 18 R413, R414: where the first launch in the dispatcher's order cannot be placed,
pre-emption stops the launch that makes room and saves it, once its contexts can be saved, their images and its scratchpads being
written to its save area (what bytes the images have is the model's reading of the table, log 15); the first saved launch in the order resumes where it can be placed, with the registers it was saved with; CTXSWAP does
the one and then the other to the launches it names. An update job reads the inputs of its next record and writes its
outputs; once those have performed, its cursor moves past the record. -/
def Obligations.LaunchesAreSavedAndResumed : Prop :=
  (∀ (s : State) (src dst n : Nat), Memory.wf s.mem = true →
    (∀ i, i < n → (s.moveBytes src dst n).byte (dst + i) = s.byte (src + i)) ∧
    (∀ a, a < dst ∨ dst + n ≤ a → (s.moveBytes src dst n).byte a = s.byte a)) ∧
  ∀ (s : State) (lid : Nat) (m : List Nat) (l : Launch), s.fwRuns = true → s.arg.flag = false →
    NatMap.find? s.launches lid = some l →
    (∀ pri tid w8, saves s lid l false → s.reserveTests = s → s.firstLaunch.bind s.candShape = some (pri, tid, w8) →
      s.mapping tid w8 [] = none → s.victims pri tid w8 = [lid] → (∀ x ∈ s.launches, x.2.halt = none) →
      ∃ t, exec .preempt s = .next t ∧ saved s t lid l false) ∧
    (∀ pri tid w8, s.reserveTests = s → (∀ x ∈ s.launches, x.2.halt = none) → s.firstLaunch.bind s.candShape = some (pri, tid, w8) →
      (s.mapping tid w8 []).isSome = true → exec .preempt s = .next s) ∧
    (s.arg.a = lid → s.candidates.head? = some (.saved lid) → l.st = .saved false →
      s.reserveTests.mapping l.tid l.shape [] = some m → restorable s.reserveTests l m →
      ∃ t, exec .contextResume s = .next t ∧ resumed t lid l m) ∧
    (∀ q c rest, runs s q c rest → c.op = 9 → fieldsClear c false [3, 4, 5, 6] →
      (s.tenant (s.queue q).tid).vsaved = false →
      (c.prog = 0 → (c.word 3 ≠ 0 ∨ c.word 4 ≠ 0) → l.shape.getLsbD 23 = true → saves s lid l true →
        s.namedLaunch (s.queue q).tid (c.word 3) (c.word 4) .running = some (lid, l) →
        ∃ t, exec .ctxswap s = .next t ∧ saved s t lid l true ∧ (t.queue q).cmds = { c with prog := 1 } :: rest) ∧
      (c.prog = 1 → (c.word 5 ≠ 0 ∨ c.word 6 ≠ 0) →
        s.namedLaunch (s.queue q).tid (c.word 5) (c.word 6) (.saved true) = some (lid, l) →
        s.reserveTests.mapping l.tid l.shape [] = some m → restorable s.reserveTests l m →
        ∃ t, exec .ctxswap s = .next t ∧ resumed t lid l m ∧ (t.queue q).cmds = (doneWith s q c rest 0).cmds)) ∧
    (∀ q c rest, runs s q c rest → c.op = 7 → c.launch = some lid → l.st = .running →
      (s.cpOut q = true → exec .updjobCursor s = .next s) ∧
      (c.phase = 0 → s.quiet q = true →
        (∀ t ins, s.jobInputs q l.tid l.words (c.prog - 1) = (t, .wait, ins) → exec .updjobCursor s = .next t) ∧
        (∀ t b ins u, s.jobInputs q l.tid l.words (c.prog - 1) = (t, .bytes b, ins) →
          (t.cpDrop q).jobOutputs q l.tid l.words (c.prog - 1) ins = (u, .done) →
          exec .updjobCursor s = .next (u.setCmd q 0 { c with phase := 1 }))) ∧
      (∀ t, c.phase = 1 → s.cpOut q = false → (s.queue q).refused = false →
        s.cpWrite q l.tid ((l.words.getD 3 0).toNat + 16) (valBytes (BitVec.ofNat 64 c.prog) 8) = (t, .done) →
        t.cpOut q = false → ∃ u, exec .updjobCursor s = .next u ∧ u.mem = t.mem ∧
          (u.queue q).cmds = (t.queue q).cmds.set 0 { c with
            prog := c.prog + 1, phase := 0, done := decide ((l.words.getD 17 0).toNat ≤ c.prog) }))

/-- 16 R393, R401, R402, R406, R407, 03 R88, R90: what the other commands do once started: WAITV is over when the masked word
compares true and is read again otherwise; SIGNAL, COPY and FILL run as copies with the record's operands; SNAP NEW waits
until PCLK covers what is in place (05 R163), allocates a handle, and is done once the handle's write has performed; SNAP
DROP releases a handle; QFENCE, and a CTXSWAP that names no launch, only complete; HEAD then passes a CTXSWAP; SELFTEST reserves its clusters, and each tested
one is cleared with its outcome written; VF_SAVE and VF_RESTORE mark a function saved and not. A COPY or FILL length
beyond bits 39:0 fails with FCODE RESERVED, a misaligned WAITV or SIGNAL add with ACCESS, which is the model's choice (log 43), as
it is that a self-test's outcome comes with an event (log 45). -/
def Obligations.FirmwareCommandsRun : Prop :=
  (∀ s : State, s.arg.a ≠ 0 → s.arg.a < 256 → (∀ x ∈ s.queues, x.2.tid = s.arg.a → ∀ d ∈ x.2.cmds, d.op ≠ 9) →
    (∀ x ∈ s.launches, x.2.halt = none) →
    exec .vfSave s = .next (s.setTenant s.arg.a { s.tenant s.arg.a with vsaved := true }) ∧
    exec .vfRestore s = .next (s.setTenant s.arg.a { s.tenant s.arg.a with vsaved := false })) ∧
  ∀ (s : State) (q pa : Nat) (c : Command) (rest : List Command), runs s q c rest →
    let tid := (s.queue q).tid
    let va := (c.word 3).toNat
    let done (i : Instr) (code : Nat) : Prop :=
      ∃ t, exec i s = .next t ∧ queueSet s t q (doneWith s q c rest code)
    let copying (i : Instr) (op : CopyOp) (buf : NatMap (Option Byte)) : Prop :=
      ∃ t, exec i s = .next t ∧ t.copies = s.copies ++ [served s q op buf] ∧
        queueSet s t q { s.queue q with cmds := { c with prog := 1 } :: rest }
    let flat (w : Word) : NatMap (Option Byte) := (List.range 8).map fun i => (i, some (byteOf w i))
    (c.op = 2 → fieldsClear c true [3, 4, 5] → (c.word 0).toNat / 4096 ≤ 3 → reaches s tid va pa .read → s.upsets = [] →
      unwatched s → s.flights = [] → (∀ d ∈ s.copies, d.ident ≠ 16384 + q) → ∀ v, s.granule pa = some v →
      let cmp : Bool := match (c.word 0).toNat / 4096 with
        | 0 => v &&& c.word 5 == c.word 4
        | 1 => v &&& c.word 5 != c.word 4
        | 2 => decide ((c.word 4).toNat ≤ (v &&& c.word 5).toNat)
        | _ => decide ((c.word 4).toNat < (v &&& c.word 5).toNat)
      ∀ i, (i = .waitv ∧ c.prog = 0 ∨ i = .waitvPoll ∧ c.prog ≠ 0) →
        (cmp = true → done i 0) ∧ (cmp = false → ∃ t, exec i s = .next t ∧
          queueSet s t q { s.queue q with cmds := { c with prog := 1 } :: rest })) ∧
    (c.op = 2 → fieldsClear c true [3, 4, 5] → (c.word 0).toNat / 4096 ≤ 3 → va % 8 ≠ 0 → c.prog = 0 → done .waitv 3) ∧
    (c.prog = 0 →
      (c.op = 3 → c.word 5 = 0 → fieldsClear c false [3, 4] →
        copying .signalWrite (.cpy va 0 8) (flat (c.word 4))) ∧
      (c.op = 3 → c.word 5 = 1 → fieldsClear c false [3, 4, 5] → va % 8 = 0 →
        copying .signalAdd (.cpacc va 0 8 0 3) (flat (c.word 4))) ∧
      (c.op = 3 → c.word 5 = 1 → fieldsClear c false [3, 4, 5] → va % 8 ≠ 0 → done .signalAdd 3) ∧
      (c.op = 4 → fieldsClear c false [3, 4, 5] → (c.word 5).toNat < 2 ^ 40 →
        copying .copy (.cpy va (c.word 4).toNat (c.word 5).toNat) []) ∧
      (c.op = 5 → fieldsClear c false [3, 4, 5] → (c.word 5).toNat < 2 ^ 40 →
        copying .fill (.cpfill va (c.word 4) false (c.word 5).toNat) []) ∧
      (c.op = 4 → (c.word 5).toNat / 2 ^ 40 ≠ 0 → done .copy 2) ∧ (c.op = 5 → (c.word 5).toNat / 2 ^ 40 ≠ 0 → done .fill 2)) ∧
    (c.op = 6 → c.word 3 = 0 → fieldsClear c false [3, 4, 5] →
      (s.quiet q = true → s.clockSettled = true → reaches s tid (c.word 5).toNat pa .write → s.upsets = [] → unwatched s →
        s.snaps = [] → 0 < (s.tenant tid).snq →
        ∃ t, exec .snapNewCmd s = .next t ∧ (t.queue q).cmds = { c with phase := 1 } :: rest ∧ t.granule pa = some 0x10000 ∧
          NatMap.get .reset t.snaps 0 = ⟨.live, 1, s.pclk, tid, 0⟩ ∧ (∀ a, a < pa ∨ pa + 8 ≤ a → t.byte a = s.byte a)) ∧
      (s.quiet q = true → s.clockSettled = false → exec .snapNewCmd s = .next s) ∧
      (c.phase = 1 → s.cpOut q = true → exec .snapNewCmd s = .next s) ∧
      (c.phase = 1 → s.cpOut q = false → ∃ t, exec .snapNewCmd s = .next t ∧ t.mem = s.mem ∧ (t.queue q).cmds =
        { c with phase := 0, done := true, fail := if (s.queue q).refused then 3 else 0 } :: rest)) ∧
    (c.op = 6 → c.word 3 = 1 → fieldsClear c false [3, 4, 5] →
      (∀ i e, s.liveSnap tid (c.word 4).toNat = some (i, e) → ∃ t, exec .snapDropCmd s = .next t ∧
        t.queue q = doneWith s q c rest 0 ∧ t.mem = s.mem ∧
        NatMap.get .reset t.snaps i = { e with st := if e.binds = 0 then .free else .draining }) ∧
      (s.liveSnap tid (c.word 4).toNat = none → done .snapDropCmd 5)) ∧
    (c.op = 10 → fieldsClear c false [] → done .qfence 0) ∧
    (c.op = 8 → (tid ≠ 0 → done .selftest 1) ∧
      (tid = 0 → fieldsClear c false [3, 4, 5] → s.quiet q = true → c.untested = [] → done .selftest 0) ∧
      (tid = 0 → fieldsClear c false [3, 4, 5] → s.quiet q = true → c.untested ≠ [] →
        exec .selftest s = .next (s.setCmd q 0 c).reserveTests)) ∧
    (c.op = 8 → tid = 0 → fieldsClear c false [3, 4, 5] → c.word 3 = 1 → c.word 4 = 0 → c.prog = 0 →
      s.quiet q = true → (s.getClu 0).reserved = true → s.arg.c < 3 → reaches s 0 (c.word 5).toNat pa .write →
      s.upsets = [] → unwatched s →
      ∃ t, exec .selftestCluster s = .next t ∧ t.byte pa = BitVec.ofNat 8 s.arg.c ∧ (t.getClu 0).reserved = false ∧
        (t.getClu 0).withdrawn = (s.arg.c == 2) ∧
        (t.queue q).cmds = { c with prog := 1, done := true, fail := 0 } :: rest ∧
        (∀ x, x < 32 → (t.getCtx x).regs.v = []) ∧
        (∀ a, a ≠ pa → t.byte a = if localPa 0 0 ≤ a ∧ a < localPa 1 0 then 0 else s.byte a)) ∧
    (c.op = 9 → fieldsClear c false [3, 4, 5, 6] → (s.tenant tid).vsaved = false → c.word 3 = 0 → c.word 4 = 0 →
      c.word 5 = 0 → c.word 6 = 0 →
      (c.prog = 0 → ∃ t, exec .ctxswap s = .next t ∧
        queueSet s t q { s.queue q with cmds := { c with prog := 1 } :: rest }) ∧
      (c.prog = 1 → ∃ t, exec .ctxswap s = .next t ∧ queueSet s t q { doneWith s q c rest 0 with
        head := ((s.queue q).head + 1) % 2 ^ 32, poll := true }))

/-- 01 R23, R37, R471, R472, 18 R417, R419, R425, R426, 03 R99, 21 R464: what the device's registers do when they are
written or read: an invalidation starts, or sets ERR where it may not, and drops its TLB and walk-cache entries, BUSY
standing until what was translated before has performed; a tenant is enabled with a root in the cellar; the communicator table, the fault queue, the flags, the
error records and STARTCTL follow their writes. 01 R470, R471: a virtual function reaches its own tenant's page and its
queues only: a write from 0x50000 up, to another tenant's queue or to the physical function's registers of its page
is ignored; the physical function writes every tenant's TROOT, SNQ and TINVA. In OFF only STARTCTL and the management processor's own bank take a write (21 R469).
DBGCTL takes its step bit at debug level INVASIVE only (18 R423), and not of a gated cluster in CLUSTER_GATED. That an LRSZ out of
range may stand without a GO is the model's choice (log 18), as is that an invalidation uses what TINVA holds as it ends (log 72);
debug levels gate what log 44 says. -/
def Obligations.RegistersActByFunction : Prop :=
  (∀ (s : State), s.arg.a < 256 →
     let a := s.arg.a
     let w := s.arg.w
     let n := NatMap.get Tenant.reset s.tenants a
     let who := if a = 0 then w.toNat / 2 ^ 20 % 256 else a
     (w.getLsbD 0 = true → w.getLsbD 30 = false → n.tinvBusy = false →
       (w.extractLsb' 28 2 = 0 → exec .tinvPage s =
           .next (withT s a { n with tinvKind := 0, tinvTid := who, tinvBusy := true })) ∧
       (w.extractLsb' 28 2 = 1 → exec .tinvTid s = .next (withT s a { n with tinvKind := 1, tinvTid := who, tinvBusy := true })) ∧
       (w.extractLsb' 28 2 = 2 → a = 0 →
         exec .tinvAllTenants s = .next (withT s a { n with tinvKind := 2, tinvTid := who, tinvBusy := true })) ∧
       (w.extractLsb' 28 2 = 2 → a ≠ 0 →
         exec .tinvAllTenants s = .next (withT s a { n with tinvKind := 2, tinvTid := who, tinvErr := true }))) ∧
     (n.tinvBusy = false → exec .tinvComplete s = .next s) ∧
     (n.tinvBusy = true → s.flights = [] →
       let at_ := n.tinva.toNat % 2 ^ 52 / 65536 * 65536
       let tids (x : Nat) : Bool := n.tinvKind == 2 || x == (if a = 0 then n.tinvTid else a)
       let gone (tid va size : Nat) : Bool :=
         tids tid && (n.tinvKind != 0 || (decide (va ≤ at_) && decide (at_ < va + size)))
       ∃ t, exec .tinvComplete s = .next t ∧ t.ctx = s.ctx ∧ t.mem = s.mem ∧
         (NatMap.get Tenant.reset t.tenants a).tinvBusy = s.translatedOut tids ∧
         (∀ c, c < 128 → (t.getClu c).tlb = (s.getClu c).tlb.filter fun e => !gone e.tid e.va e.size) ∧
         ∀ x ∈ t.walkCache, ∀ e ∈ x.2, gone e.tid e.va e.size = false) ∧
     (w.getLsbD 0 = true → w.getLsbD 1 = false →
       exec .tenantEnable s = .next (withT s a (if n.troot.toNat % 2 ^ 52 / 65536 * 65536 < s.lumberBase then
         { n with en := true } else { n with en := false, terr := true }))) ∧
     (s.arg.flag = true → n.cmsel.getLsbD 31 = true → w.toNat % 8192 ≠ 1 → w.toNat % 8192 ≤ 4096 →
       exec .cmdataAccess s = .next (withT s a { n with
         comm := NatMap.set 0 n.comm (n.cmsel.toNat % 256 * 8192 + 4096) (w &&& 0x0FFF1FFF) })) ∧
     (s.arg.flag = true → n.cmsel.getLsbD 31 = false →
       n.cmsel.toNat / 65536 % 4096 < (NatMap.get 0 n.comm (n.cmsel.toNat % 256 * 8192 + 4096)).toNat % 8192 →
       exec .cmdataAccess s = .next (withT s a { n with
         comm := NatMap.set 0 n.comm (n.cmsel.toNat % 256 * 8192 + n.cmsel.toNat / 65536 % 4096) (w &&& 0xFFF) })) ∧
     (s.fqOver = [] → (∀ id ∈ s.cur :: s.ctxs.map Prod.fst, (s.getCtx id).q.sysc = []) →
       (s.arg.b = 0 → exec .fqRegisterWrite s = .next (withT s a { n with fqbase := w &&& 0xFFFFFFFFFFFFFFC0 })) ∧
       (s.arg.b = 1 → exec .fqRegisterWrite s = .next (withT s a { n with fqlog := w &&& 0xF })) ∧
       (s.arg.b = 3 → exec .fqRegisterWrite s = .next (withT s a { n with fqhead := w }))) ∧
     (∀ c cause code va, s.copies = [c] → c.ident = w.toNat % 8192 → c.tid = a → c.st = .faulted cause code va → s.colls = [] →
       s.autoQ = [] →
       (w.extractLsb' 62 2 = 1 → exec .fqservResume s = .next { s with copies := [{ c with st := .running }] }) ∧
       (w.extractLsb' 62 2 = 2 → ∃ t, exec .fqservEnd s = .next t ∧
         t.copies = [{ c with st := .written, failed := true }] ∧ t.mem = s.mem)) ∧
     (s.copies = [] → (w.extractLsb' 62 2 = 1 → exec .fqservResume s = .next (withT s a { n with badsrv := true })) ∧
       (w.extractLsb' 62 2 = 2 → exec .fqservEnd s = .next (withT s a { n with badsrv := true }))) ∧
     (∀ l id, NatMap.find? s.launches (w.toNat / 2 ^ 32 % 65536) = some l → l.tid = a → id < 4096 →
       s.findPlace (w.toNat / 2 ^ 32 % 65536) (w.toNat / 256 % 256) (w.toNat / 16 % 8) (w.toNat % 4) = some id →
       ∃ t, exec .flgset s = .next t ∧ t.mem = s.mem ∧ (∀ x, x ≠ id → t.getCtx x = s.getCtx x) ∧
         (t.getCtx id).c.flg = (s.getCtx id).c.flg ||| (1#64 <<< (w.toNat / 65536 % 32)) ∧
         (t.getCtx id).regs = (s.getCtx id).regs) ∧
     (∀ l, NatMap.find? s.launches (w.toNat / 2 ^ 32 % 65536) = some l → l.tid ≠ a → exec .flgset s = .next s) ∧
     (a < 64 →
       let m := NatMap.get Mca.reset s.mca a
       (s.arg.flag = false → w.getLsbD 63 = true → w.extractLsb' 16 16 = m.fcls.extractLsb' 16 16 →
         exec .mcaRecordClear s = .next { s with
           mca := NatMap.set .reset s.mca a { m with fcls := 0, floc := 0, forg := 0 } }) ∧
       (s.arg.flag = true → w.getLsbD 63 = true → w.extractLsb' 16 16 = m.wcls.extractLsb' 16 16 →
         exec .mcaRecordClear s = .next { s with
           mca := NatMap.set .reset s.mca a { m with wcls := 0, wloc := 0, worg := 0 } }) ∧
       exec .mcaEcntRead s = .next { s with
         outbox := s.outbox ++ [.readback m.ecnt]
         mca := NatMap.set .reset s.mca a { m with ecnt := m.ecnt &&& 0xFFFFFFFF0000FFFF } }) ∧
     (a < 4 → exec .colfreedRead s = .next { s with
       outbox := s.outbox ++ [.readback (NatMap.get 0 s.colfreed a)], colfreed := NatMap.del s.colfreed a }) ∧
     (∀ k : Nat, w.toNat = 1 + 2 * k + 65536 * 6 → (k = 1 ∨ k = 2) → s.mgmt.starting = false →
       exec (if k = 1 then .startctlCold else .startctlWarm) s = .next { s with
         halted := true
         mgmt := { s.mgmt with lrsz := 6, stkind := k, starting := true, goWarm := k == 2, ready := false } }) ∧
     (∀ k : Nat, w.toNat = 1 + 2 * k + 65536 * 2 → (k = 1 ∨ k = 2) →
       exec (if k = 1 then .startctlCold else .startctlWarm) s = .next { s with mgmt := { s.mgmt with sterr := true } })) ∧
  ((∀ (s : State), s.arg.a < 4096 →
     (s.mgmt.debug = .invasive → s.mgmt.power ≠ .off →
       (s.mgmt.power = .gated → (s.getClu (s.arg.a / 32)).gated = false) →
       ∃ t, exec .dbgctlWrite s = .next t ∧
         t.getCtx s.arg.a = { s.getCtx s.arg.a with dbgStep := s.arg.w.getLsbD 0 } ∧
         (∀ x, x ≠ s.arg.a → t.getCtx x = s.getCtx x) ∧ t.mem = s.mem) ∧
     (s.mgmt.debug ≠ .invasive ∨ s.mgmt.power = .off ∨ s.mgmt.power = .gated ∧ (s.getClu (s.arg.a / 32)).gated = true →
       exec .dbgctlWrite s = .next s)) ∧
   ∀ (s : State), s.arg.a < 256 →
     let fn := s.arg.a
     let off := s.arg.b
     (fn ≠ 0 → 0x50000 ≤ off → exec .registerWrite s = .next s) ∧
     (fn ≠ 0 → off ∈ [0x00, 0x08, 0x10, 0x18, 0x20, 0x1002, 0x11FE] → exec .registerWrite s = .next s) ∧
     (∀ q, fn ≠ 0 → q < 8192 → (s.queue q).tid ≠ fn → 0x10000 + 32 * q ≤ off → off < 0x10000 + 32 * q + 32 →
       exec .registerWrite s = .next s) ∧
     (∀ t, fn = 0 → t < 256 → s.mgmt.power ≠ .off →
       let n := NatMap.get Tenant.reset s.tenants t
       (off = 0x1000000 + 0x10000 * t → exec .registerWrite s = .next (withT s t { n with
         troot := s.arg.w &&& 0xFFFFFFFFF0000 })) ∧
       (off = 0x1000010 + 0x10000 * t → exec .registerWrite s = .next (withT s t { n with
         snq := s.arg.w.toNat % 8192 })) ∧
       (off = 0x1000040 + 0x10000 * t → exec .registerWrite s = .next (withT s t { n with tinva := s.arg.w }))) ∧
     (off = 0x40 → s.mgmt.power ≠ .off → exec .registerWrite s = .next (withT s fn { NatMap.get Tenant.reset s.tenants fn with
       tinva := s.arg.w })) ∧
     (s.mgmt.power = .off → off ≠ 0x50018 → off < 0x60F40 ∨ 0x60F80 ≤ off → exec .registerWrite s = .next s))

/-- 01 R8, R13, 02 R76 to R79, 18 R427, R428, 21 R448, R465, R467, R469: what reaches memory from outside the cores:
dumps at level INVASIVE only and the scrubber find nothing at an address that does not exist; the host's accesses to the
cellar end at the lumber room; a FATAL error stops every core and asks for a start. Each leaves memory as it is but for
what it writes, and all but the opening of a SEALED package the contexts. A dump gives the bytes as they stand outside the
lumber room; a host read gives the granules it names, or the whole block. 21 R449: the physical function answers each SPDM request; an unsupported one, a FINISH without its key exchange, a
measurement index out of range and, in FAILED, every request get an ERROR; virtual functions have no mailbox. The model's choices here: what a
scrub checks (log 53), how mailbox messages stand in the state (log 54), that a recalled line is to be read again before the host
writes it (log 69), what makes a debug token valid and when the nonce changes (log 80). -/
def Obligations.HostsDebugErrorsAttestation : Prop :=
  (∀ (s : State),
     (s.mgmt.debug ≠ .invasive → exec .memoryDump s = .next s) ∧
     (s.mgmt.debug = .invasive → s.mgmt.power ≠ .off → s.arg.flag = false →
       (s.mgmt.power = .gated → ∀ i, i < s.arg.b → (s.arg.a + i) / spaceSize = 2 →
         (s.getClu ((s.arg.a + i) % spaceSize / 0x1000000)).gated = false) →
       (∀ i, i < s.arg.b → paOk (s.arg.a + i) = true) →
       ∃ l, exec .memoryDump s = .next { s with outbox := s.outbox ++ [.dump s.arg.a l] } ∧ l.length = s.arg.b ∧
         ∀ i, i < s.arg.b → s.arg.a + i < s.lumberBase ∨ spaceSize ≤ s.arg.a + i → l[i]? = some (s.byte (s.arg.a + i))) ∧
     (s.mgmt.debug = .invasive → s.mgmt.power ≠ .off → s.arg.flag = false → s.arg.b ≠ 0 → paOk s.arg.a = false →
       exec .memoryDump s = .fault (.noSuchAddress s.arg.a)) ∧
     (paOk s.arg.a = false → exec .patrolScrub s = .fault (.noSuchAddress s.arg.a)) ∧
     (paOk s.arg.a = true → s.upsets = [] → exec .patrolScrub s = .next s) ∧
     (∀ pa unc, s.upsets = [⟨.mem pa, unc⟩] → paOk s.arg.a = true → s.arg.flag = false →
       (s.arg.a / spaceSize = 0 ∧ pa / 64 = s.arg.a / 64 ∨ s.arg.a / spaceSize = 1 ∧ pa / 8 = s.arg.a / 8) →
       ∃ t, exec .patrolScrub s = .next t ∧ t.upsets = [] ∧ t.mem = s.mem ∧ t.ctx = s.ctx ∧
         (unc = true → t.granule s.arg.a = none) ∧ (unc = false → t.memPoison = s.memPoison)) ∧
     (s.mgmt.debug = .invasive → s.mgmt.power = .gated → s.arg.flag = false → (∀ i, i < s.arg.b → paOk (s.arg.a + i) = true) →
       (∃ i, i < s.arg.b ∧ (s.arg.a + i) / spaceSize = 2 ∧ (s.getClu ((s.arg.a + i) % spaceSize / 0x1000000)).gated = true) →
       exec .memoryDump s = .next s) ∧
     (s.mgmt.power ≠ .off →
       let token : Bool := s.arg.flag && s.arg.w == Config.serial && s.arg.x == Config.nonce s.mgmt.nonce &&
         s.arg.c % 3 == s.arg.a
       let level (d : DebugLevel) : State := { s with mgmt := { s.mgmt with
         debug := d, debugLog := if d = .none then s.mgmt.debugLog else s.mgmt.debugLog ++ [s.arg.a + 4 * s.arg.b]
         nonce := if token then s.mgmt.nonce + 1 else s.mgmt.nonce } }
       (s.arg.a = 0 → exec .debugLevelRequest s = .next (level .none)) ∧
       (s.arg.a = 1 → s.mgmt.security ≠ .sealed → exec .debugLevelRequest s = .next (level .nonInvasive)) ∧
       (s.arg.a = 2 → s.mgmt.security = .open_ ∨ (s.mgmt.security = .provisioned ∧ token = true) →
         exec .debugLevelRequest s = .next (level .invasive)) ∧
       (s.arg.a = 1 → s.mgmt.security = .sealed → token = false → exec .debugLevelRequest s = .next s) ∧
       (s.arg.a = 2 → s.mgmt.security = .sealed → token = true → ∃ t, exec .debugLevelRequest s = .next t ∧
         t.mgmt.debug = .invasive ∧ t.mgmt.spdm = 0 ∧ t.mgmt.ideOpen = false ∧ t.mem = s.mem) ∧
       (s.arg.a = 2 → s.mgmt.security = .failed → exec .debugLevelRequest s = .next s)) ∧
     (s.mgmt.ready = true → s.mgmt.power ≠ .off → s.arg.a % 64 = 0 → s.arg.a < spaceSize →
       (s.lumberBase ≤ s.arg.a → ∃ t, exec .hostMemAccess s = .next t ∧ t.mem = s.mem ∧ t.ctx = s.ctx ∧
         (s.arg.flag = false → .hostRead 0 true ∈ t.outbox)) ∧
       (s.arg.a < s.lumberBase → s.upsets = [] → unwatched s →
         (s.arg.flag = true → NatMap.get false s.recalled (s.arg.a / 64) = true → exec .hostMemAccess s = .next s) ∧
         (s.arg.flag = true → NatMap.get false s.recalled (s.arg.a / 64) = false →
           ∃ t, exec .hostMemAccess s = .next t ∧ t.ctx = s.ctx ∧
           (∀ i, i < 64 → t.byte (s.arg.a + i) =
             if s.arg.mask.getLsbD i then s.arg.data.extractLsb' (8 * i) 8 else s.byte (s.arg.a + i)) ∧
           (∀ x, x < s.arg.a ∨ s.arg.a + 64 ≤ x → t.byte x = s.byte x)) ∧
         (s.arg.flag = false → s.memPoison = [] → ∃ t d, exec .hostMemAccess s = .next t ∧ t.mem = s.mem ∧ t.ctx = s.ctx ∧
           t.outbox = s.outbox ++ [.hostRead d false] ∧ NatMap.get false t.recalled (s.arg.a / 64) = false ∧
           ∀ i, i < 64 → (∀ k, k < 8 → s.arg.mask.extractLsb' (8 * k) 8 = 0#8) ∨
               s.arg.mask.extractLsb' (8 * (i / 8)) 8 ≠ 0#8 →
             d.extractLsb' (8 * i) 8 = s.byte (s.arg.a + i)))) ∧
     (s.arg.a < 256 → exec .configRequest s = .next { s with outbox := s.outbox ++
       [if s.mgmt.starting = true ∨ s.mgmt.regsUp = false ∨ s.mgmt.power = .off then .configRetry s.arg.a else .configOk s.arg.a] }) ∧
     (s.arg.a % 64 = 0 → s.arg.a < spaceSize → NatMap.get false s.recalled ((4 * spaceSize + s.arg.a) / 64) = true →
       s.arg.flag = false → exec .cxlHostResponse s = .next s) ∧
     (s.arg.a % 64 = 0 → s.arg.a < spaceSize →
       NatMap.get false s.recalled ((4 * spaceSize + s.arg.a) / 64) = false ∨ s.arg.flag = true →
       ∃ t, exec .cxlHostResponse s = .next t ∧ t.ctx = s.ctx ∧
       (∀ i, i < 64 → t.byte (4 * spaceSize + s.arg.a + i) =
         if s.arg.mask.getLsbD i then s.arg.data.extractLsb' (8 * i) 8 else s.byte (4 * spaceSize + s.arg.a + i)) ∧
       (∀ x, x < 4 * spaceSize + s.arg.a ∨ 4 * spaceSize + s.arg.a + 64 ≤ x → t.byte x = s.byte x)) ∧
     (s.arg.a < 64 → s.mgmt.power ≠ .off → s.mgmt.starting = false → ∃ t, exec .fatalError s = .next t ∧ t.halted = true ∧
       t.mgmt.starting = true ∧ t.mgmt.ready = false ∧
       t.mgmt.goWarm = !decide (s.arg.a ∈ [35, 41, 47, 53, 62]) ∧ .cxlError ∈ t.outbox ∧ .msix 0 1 ∈ t.outbox ∧
       (NatMap.get Mca.reset t.mca s.arg.a).wcls.extractLsb' 61 3 = 7#3 ∧ t.mem = s.mem ∧ t.ctx = s.ctx)) ∧
  (∀ (s : State), s.mgmt.power ≠ .off →
     let tells (m : Message) : State := { s with outbox := s.outbox ++ [m] }
     let all : List Instr := [.getVersion, .getCapabilities, .negotiateAlgorithms, .getDigests, .getCertificate, .challenge,
       .getMeasurements, .keyExchange, .finish, .spdmUnsupportedRequest]
     (s.arg.a % 256 ≠ 0 → ∀ i ∈ all, exec i s = .next s) ∧
     (s.arg.a % 256 = 0 → s.mgmt.security = .failed → ∀ i ∈ all, exec i s = .next (tells (.spdmError false))) ∧
     (s.arg.a % 256 = 0 → s.mgmt.security ≠ .failed →
       exec .getVersion s = .next (tells (.spdm "VERSION 1.2")) ∧
       exec .getCapabilities s = .next (tells (.spdm "CAPABILITIES")) ∧
       (∃ x, exec .negotiateAlgorithms s = .next (tells (.spdm x))) ∧
       exec .getDigests s = .next (tells (.spdm "DIGESTS")) ∧
       exec .getCertificate s = .next (tells (.spdm "CERTIFICATE")) ∧
       exec .challenge s = .next (tells (.spdm "CHALLENGE_AUTH")) ∧
       exec .spdmUnsupportedRequest s = .next (tells (.spdmError true)) ∧
       (1 ≤ s.arg.b → s.arg.b ≤ 6 → ∃ d, exec .getMeasurements s = .next (tells (.measurement s.arg.b d))) ∧
       (s.arg.b = 0 ∨ 6 < s.arg.b → exec .getMeasurements s = .next (tells (.spdmError false))) ∧
       (∃ t, exec .keyExchange s = .next t ∧ t.mgmt = { s.mgmt with spdm := 1 } ∧ t.mem = s.mem ∧ t.ctx = s.ctx) ∧
       (s.mgmt.spdm = 1 → ∃ t, exec .finish s = .next t ∧
         t.mgmt = { s.mgmt with spdm := 2, ideOpen := s.mgmt.ideOpen || s.arg.flag } ∧ t.mem = s.mem ∧ t.ctx = s.ctx) ∧
       (s.mgmt.spdm ≠ 1 → exec .finish s = .next (tells (.spdmError false)))))

/-- 03 R113, R114, 18 R429, R430, 21 R462 to R466, R468, R469: a cold start leaves the package as it is after reset, its links up
where their round trip is at most 64 flit times; a warm start keeps the cellar's bytes and the clock, with no transaction and no
snapshot live; a start that fails says at which step, and what the steps after the failed one work on stands; losing all power and
OFF clear the package's memories and contexts; gating drops a cluster's state, and
ungating finds its scratchpad cleared; the reset of a tenant ends its launches, copies, transactions and queues, a command whose
completion word cannot be written yet being kept, failed, until it is. What PBUD, STARTS, the tripped marks and the rest of the
management state are after a start is the model's reading (log 47), as is an LRSZ out of range (log 18). -/
def Obligations.StartsAndPower : Prop :=
  ∀ (s : State),
    (s.mgmt.starting = true → s.mgmt.power ≠ .off →
      (s.mgmt.goWarm = false → s.arg.c = 0 → s.arg.mask = 0 → s.arg.data = 0 → ∃ t, exec .coldStart s = .next t ∧
        { t with agenda := [], arg := .reset, draws := 0, stepping := true, mgmt := .reset, outbox := [], lrsz := 6, upsets := [],
                 dirRoom := State.reset.dirRoom, mem := [], memPoison := [] } = State.reset ∧
        (∀ a, a < 3 * spaceSize → t.byte a = 0) ∧ (∀ a, 4 * spaceSize ≤ a → t.byte a = s.byte a) ∧
        t.lrsz = (if 3 ≤ s.mgmt.lrsz ∧ s.mgmt.lrsz ≤ 12 then s.mgmt.lrsz else 6) ∧ t.mgmt.ready = true ∧ t.mgmt.starting = false ∧ t.mgmt.debug = .none ∧
        t.mgmt.regsUp = true ∧ t.mgmt.repair = s.arg.x ∧
        t.mgmt.floor = 1600 ∧ t.mgmt.budget = 3200 ∧ t.mgmt.dem = 0 ∧ t.mgmt.fails = 0) ∧
      (s.mgmt.goWarm = false → s.arg.c = 0 → ∃ t, exec .coldStart s = .next t ∧
        (∀ n, n < 48 → (t.port n).up = decide ((s.arg.data.extractLsb' (8 * n) 8).toNat ≤ 64)) ∧
        (∀ p, p < 128 → (t.getClu p).atcap = if s.arg.mask.getLsbD p then 0x0803 else 0x100F)) ∧
      (s.mgmt.goWarm = false → 1 ≤ s.arg.c → s.arg.c ≤ 9 → s.mgmt.fails < 2 → s.mgmt.recov = false →
        ∃ t, exec .coldStart s = .next t ∧ t.halted = true ∧ t.mgmt.ready = false ∧ t.mgmt.lstep = s.arg.c ∧
          t.mgmt.fails = s.mgmt.fails + 1 ∧ (s.arg.c ≤ 2 → t.mgmt.security = .failed) ∧
          t.mgmt.regsUp = decide (4 ≤ s.arg.c) ∧ (s.arg.c ≤ 3 → ∀ n, n < 48 → (t.port n).up = false) ∧
          (s.arg.c ≤ 4 → ∀ a, a < spaceSize → t.byte a = s.byte a) ∧ (5 ≤ s.arg.c → ∀ a, a < spaceSize → t.byte a = 0) ∧
          (s.arg.c ≤ 5 → ∀ p, p < 128 → (t.getClu p).atcap = (s.getClu p).atcap) ∧
          (s.arg.c ≤ 7 → t.cclk = s.cclk ∧ t.pclk = s.pclk ∧ t.lrsz = s.lrsz ∧ t.snaps = s.snaps)) ∧
      (s.mgmt.goWarm = true → s.arg.flag = false → s.arg.c = 0 → s.txs = [] → s.upsets = [] → ∃ t, exec .warmStart s = .next t ∧
        (∀ a, a < spaceSize → t.byte a = s.byte a) ∧ (∀ a, spaceSize ≤ a → a < 3 * spaceSize → t.byte a = 0) ∧
        t.cclk = s.cclk ∧ t.pclk = s.pclk ∧ t.txs = [] ∧ (∀ x ∈ t.snaps, x.2.st = .free) ∧ t.launches = [] ∧
        (∀ p, p < 128 → (t.getClu p).atcap = (s.getClu p).atcap) ∧ t.mgmt.ready = true ∧ t.mgmt.warm = true) ∧
      (s.mgmt.goWarm = true → s.arg.flag = true → s.arg.c = 0 → ∃ t, exec .warmStart s = .next t ∧
        (∀ a, a < 3 * spaceSize → t.byte a = 0) ∧ t.mgmt.warm = false ∧ t.mgmt.fallbk = true ∧ t.mgmt.ready = true)) ∧
    (s.mgmt.power = .off → s.arg.c = 0 → ∃ t, exec .moduleLeavesOff s = .next t ∧ t.mgmt.power = .on ∧
      t.mgmt.ready = true ∧ t.mgmt.fallbk = (s.mgmt.stkind == 2) ∧ (∀ a, a < 3 * spaceSize → t.byte a = 0)) ∧
    (∃ t, exec .lossOfAllPower s = .next t ∧ t.halted = true ∧ t.mgmt.power = .off ∧ t.mgmt.lrsz = 6 ∧ t.mgmt.starts = 0 ∧
      t.mgmt.fused = s.mgmt.fused ∧ t.mgmt.regsUp = false ∧ (∀ a, a < 4 * spaceSize → t.byte a = 0) ∧ t.ctx = Context.reset) ∧
    (∃ t, exec .powerOff s = .next t ∧ t.halted = true ∧ t.mgmt.power = .off ∧ t.mgmt.debug = .none ∧ t.mgmt.regsUp = false ∧
      (∀ a, a < 4 * spaceSize → t.byte a = 0) ∧ t.ctx = Context.reset) ∧
    (s.powered = true → (∃ p, p < 128 ∧ s.arg.mask.getLsbD p = true ∧ (s.getClu p).gated = false) →
      ∃ t, exec .powerClusterGate s = .next t ∧ t.mgmt.power = .gated ∧
        ∀ p, p < 128 → s.arg.mask.getLsbD p = true → (t.getClu p).gated = true ∧
          (t.getClu p).tlb = (if (s.getClu p).gated then (s.getClu p).tlb else []) ∧
          ((s.getClu p).gated = false → (t.getClu p).ramp = [] ∧ ∀ x, x / 32 = p → (t.getCtx x).regs = Regs.reset)) ∧
    (s.powered = true → ∃ t, exec .powerIdle s = .next t ∧ t.mgmt.power = .idle ∧ ∀ p, p < 128 → (t.getClu p).gated = true) ∧
    (s.powered = true → s.mgmt.power = .idle → s.launchWaits = true → ∃ t, exec .ungateOnDemand s = .next t ∧
      t.mgmt.power = .on ∧ ∀ p, p < 128 → (t.getClu p).gated = false) ∧
    (s.powered = true → s.mgmt.power = .gated → s.arg.mask = BitVec.allOnes 128 → ∃ t, exec .clusterUngate s = .next t ∧
      t.mgmt.power = .on ∧ ∀ p, p < 128 → (t.getClu p).gated = false ∧
        ((s.getClu p).gated = true → ∀ a, localPa p 0 ≤ a → a < localPa p 0x1000000 → t.byte a = 0)) ∧
    (s.mgmt.starting = true ∨ s.mgmt.power = .off → exec .functionLevelReset s = .next s) ∧
    (s.mgmt.starting = false → s.mgmt.power ≠ .off → s.arg.a < 256 → ∃ t, exec .functionLevelReset s = .next t ∧
      (∀ x ∈ t.launches, x.2.tid ≠ s.arg.a) ∧ (∀ c ∈ t.copies, c.tid ≠ s.arg.a) ∧
      (∀ x ∈ t.queues, x.2.tid = s.arg.a → x.2.en = false ∧ ∀ d ∈ x.2.cmds, d.done = true ∧ d.fail = 9 ∧ d.word 1 ≠ 0) ∧
      (∀ r ∈ t.fqOver, r.tid ≠ s.arg.a) ∧ (∀ x ∈ t.txs, x.2.tid ≠ s.arg.a))

/-- 18 R430, 21 R450 to R455: a flit that comes in order moves its port's sequence on and sets the mask it obeys; one
that does not, or is damaged, is answered by a NAK; an unknown kind is discarded and logged. A read is answered with the
bytes, a write stores them, an RMW stores the operation's result and answers the old value; the response to a store ends
its wait, and one to nothing is dropped; a reset marker lets the tenant's flits count again; a NAK is answered by a replay, and a changed mask is sent.
Where a request's address and operands stand in a payload (log 19), the way a response goes (log 50), what the CRC is (log 30) and
when a host write may fall inside an RMW (log 69) are the model's choice. -/
def Obligations.LinksReceive : Prop :=
  ∀ (s : State),
    let n := s.arg.a % 48
    let p := s.port n
    let tid := (s.arg.hdr.extractLsb' 20 8).toNat
    let len := (s.arg.hdr.extractLsb' 72 8).toNat
    let pa := s.arg.w.toNat
    (p.up = true → s.mgmt.power ≠ .off → p.held = [] → (s.arg.crcOk = false ∨ s.arg.hdr.extractLsb' 60 12 ≠ p.rxSeq) →
      ∀ i ∈ [Instr.skelholtIdle, .skelholtReadRequest, .skelholtWrite, .skelholtRmw, .skelholtResponse, .skelholtCollective,
          .skelholtResetMarker, .skelholtUnknownKind, .offer, .take, .grant],
        exec i s = .next { s with outbox := s.outbox ++ [.nak n p.rxSeq.toNat] }) ∧
    (inOrder s →
      (kindIs s 0 → exec .skelholtIdle s = .next (received s)) ∧
      (s.arg.hdr.extractLsb' 16 4 ≠ 0#4 ∨ s.arg.hdr.extractLsb' 0 8 ≠ 0#8 ∨ 8 ≤ (s.arg.hdr.extractLsb' 11 5).toNat →
        ∃ t, exec .skelholtUnknownKind s = .next t ∧ t.ports = (received s).ports ∧ t.mem = s.mem ∧ t.ctx = s.ctx ∧
          (NatMap.get Mca.reset t.mca (32 + 6 * (n / 12) + 4)).ecnt =
            ((NatMap.get Mca.reset s.mca (32 + 6 * (n / 12) + 4)).log 1 0x0014 false 0 0 none).ecnt) ∧
      (kindIs s 7 → exec .skelholtResetMarker s = .next { received s with
        discard := s.discard.filter fun d => d != n * 256 + tid }) ∧
      (kindIs s 1 → forUs s → unwatched s → ∀ m, servable s 8 m → s.arg.mask = 0 → len = 8 → pa % 8 = 0 →
        ∃ t, exec .skelholtReadRequest s = .next t ∧ t.mem = s.mem ∧ t.ctx = s.ctx ∧
          responds s s t m 8 0 [⟨pa, 0xFF, s.granule pa⟩]) ∧
      (kindIs s 2 → forUs s → unwatched s → ∀ m, servable s len m → s.arg.c / 4 % 2 = 0 → s.arg.mask = 0 → len ≤ 240 →
        ∃ t, exec .skelholtWrite s = .next t ∧ t.ctx = s.ctx ∧ responds s s t m 0 0 [] ∧
          (∀ i, i < len → t.byte (pa + i) = s.arg.data.extractLsb' (8 * i) 8) ∧
          (∀ a, a < pa ∨ pa + len ≤ a → t.byte a = s.byte a)) ∧
      (kindIs s 3 → forUs s → unwatched s → ∀ m old, servable s 8 m → s.arg.c = 3 → len = 8 → pa % 8 = 0 → s.arg.b < 8 →
        s.granule pa = some old → s.arg.mask = 0 → s.arg.flag = false →
        let v : Word := s.arg.data.extractLsb' 0 64
        let new : Word := match s.arg.b with
          | 0 => old + v
          | 1 => if v.toInt < old.toInt then v else old
          | 2 => if old.toInt < v.toInt then v else old
          | 3 => old &&& v
          | 4 => old ||| v
          | 5 => old ^^^ v
          | 6 => v
          | _ => if old = s.arg.data.extractLsb' 64 64 then v else old
        ∃ t, exec .skelholtRmw s = .next t ∧ t.ctx = s.ctx ∧ responds s s t m 8 0 [⟨pa, 0xFF, some old⟩] ∧
          t.granule pa = some new ∧ (∀ a, a < pa ∨ pa + 8 ≤ a → t.byte a = s.byte a)) ∧
      (kindIs s 4 → forUs s → s.arg.hdr.extractLsb' 80 16 ≠ 0xFFFF#16 → s.peerReqs = [] →
        exec .skelholtResponse s = .next (received s)) ∧
      (kindIs s 4 → forUs s → s.arg.hdr.extractLsb' 80 16 ≠ 0xFFFF#16 → ∀ r cid id, s.peerReqs = [r] → r.tag = (s.arg.hdr.extractLsb' 80 16).toNat →
        r.who = .store cid id → cid < 4096 → s.arg.b = 0 →
        ∃ t, exec .skelholtResponse s = .next t ∧ t.peerReqs = [] ∧ t.mem = s.mem ∧
          (t.getCtx cid).q.sq = (s.getCtx cid).q.sq.filter fun e => e.id != id) ∧
      (kindIs s 5 → forUs s → (NatMap.get Tenant.reset s.tenants tid).en = true → ∀ k, s.colls = [k] → k.tid = tid → k.bad = true →
        k.w0.extractLsb' 16 8 = s.arg.data.extractLsb' 16 8 → k.w0.extractLsb' 32 32 = s.arg.data.extractLsb' 32 32 →
        exec .skelholtCollective s = .next (received s))) ∧
    (∀ f rest, p.up = true → s.arg.flag = false → p.sent = f :: rest → s.arg.b = (hdrSeq f.1).toNat → p.nak ≠ s.arg.b →
      ∃ t, exec .flitReplay s = .next t ∧ t.mem = s.mem ∧ t.ctx = s.ctx ∧ (t.port n).replays = 1 ∧ (t.port n).up = true ∧
        (p.sent.length ≤ t.outbox.length - s.outbox.length) ∧
        ((t.port n).sent.map fun g => hdrSeq g.1) = (p.sent.map fun g => hdrSeq g.1)) ∧
    (p.up = true → s.arg.flag = false → p.sent ≠ [] → p.sent.head?.map (fun f => (hdrSeq f.1).toNat) = some s.arg.b → p.nak = s.arg.b →
      8 ≤ p.replays → s.peerReqs = [] → s.colls = [] →
      ∃ t, exec .flitReplay s = .next t ∧ (t.port n).up = false ∧ t.mem = s.mem ∧ t.ctx = s.ctx) ∧
    (p.up = true → p.full ≠ p.mask → s.device < 4096 → ∃ t h, exec .xoffIdleFlit s = .next t ∧
      t.outbox = s.outbox ++ [.flit n h 0 (0, 0) []] ∧ h.extractLsb' 52 8 = p.full ∧ h.extractLsb' 60 12 = p.txSeq ∧
      h.extractLsb' 11 5 = 0#5 ∧ (t.port n).mask = p.full ∧ (t.port n).txSeq = p.txSeq + 1) ∧
    ∀ l : List EvArgs, (p.holding l).held = l ∧ ∀ v, v < 8 →
      let k := (l.filter fun x => (x.hdr.extractLsb' 8 3).toNat == v).length
      (64 ≤ k → (p.holding l).full.getLsbD v = true) ∧ (k ≤ 32 → (p.holding l).full.getLsbD v = false) ∧
      (32 < k → k < 64 → (p.holding l).full.getLsbD v = p.full.getLsbD v)

/-- 10 R309, R310: a member whose descriptor differs fails its command and marks the collective bad. One that agrees is
counted, and is sent on until every member has compared it; until all agree no value is taken. Then a hop of the collective
combines the partial value with this rank's element and sends it to the next rank. The order of comparing and of the hops' flits is
the model's reading (logs 19, 51). -/
def Obligations.CollectivesHop : Prop :=
  ∀ (s u w : State) (k : Coll) (c : CopyCmd) (v : Nat), inOrder s → kindIs s 5 → forUs s → s.colls = [k] →
    (NatMap.get Tenant.reset s.tenants k.tid).en = true → k.tid = (s.arg.hdr.extractLsb' 20 8).toNat → k.bad = false → k.ident = c.ident →
    k.w0.extractLsb' 16 8 = s.arg.data.extractLsb' 16 8 → k.w0.extractLsb' 32 32 = s.arg.data.extractLsb' 32 32 →
    s.copyOf k.ident = some c → c.failed = false → c.st = .collective →
    let word (i : Nat) : Word := s.arg.data.extractLsb' (64 * i) 64
    let r : State := (received s).hold { s.arg with temp := 0 }
    let h := (word 3).toNat % 65536
    let rank := (word 3).toNat / 65536 % 4096
    (k.differs s.arg = true →
      (∀ m, s.routeTo c.collHub k.next = some m → ((received s).port m).xoff.getLsbD 5 = false) →
      ∃ t, exec .skelholtCollective s = .next t ∧ (∀ x ∈ t.colls, x.bad = true) ∧
      (∀ d ∈ t.copies, d.ident = c.ident → d.failed = true)) ∧
    (k.differs s.arg = false → (word 3).getLsbD 32 = false → (word 3).getLsbD 33 = true →
      (k.members ≤ h + 1 → ∃ t k', exec .skelholtCollective s = .next t ∧ t.colls = [k'] ∧ k'.met = k.met + 1 ∧
        t.mem = s.mem ∧ t.outbox = s.outbox) ∧
      (h + 1 < k.members → r.collSend k c.collHub 4 0 (h + 1) rank 2 0 = .sent w →
        ∃ t k', exec .skelholtCollective s = .next t ∧ t.colls = [k'] ∧ k'.met = k.met + 1 ∧
          t.mem = s.mem ∧ t.outbox = w.outbox)) ∧
    (k.differs s.arg = false → (word 3).getLsbD 32 = false → (word 3).getLsbD 33 = false → k.agreed = false →
      exec .skelholtCollective s = .next r) ∧
    (k.differs s.arg = false → (word 3).getLsbD 32 = false → (word 3).getLsbD 33 = false → k.agreed = true →
      s.arg.hdr.extractLsb' 8 3 = 4#3 → h + 1 < k.members →
      r.collElem k c (word 2).toNat = (u, some (v, false)) →
      u.collSend k c.collHub 4 (word 2).toNat (h + 1) rank 0 (k.hop h (word 2).toNat (word 4).toNat v) = .sent w →
      ∃ t k', exec .skelholtCollective s = .next t ∧ t.outbox = w.outbox ∧ t.mem = u.mem ∧ t.colls = [k'] ∧
        k'.got = k.got + 1 ∧ k'.sent = k.sent)

/-- 21 R456, R457: offers go to every neighbour that may be sent to, and a device in deficit asks the largest offer; an
offer heard is kept; a take is granted as far as the surplus goes, which leaves the budget, and the rest is asked of the best other
offer; of takes in one tick none is served before the last has come; a grant is added to the budget, or handed on to the port that its
take came from. How takes and grants name each other is the model's reading (log 49). -/
def Obligations.RackPowerMoves : Prop :=
  ∀ (s : State),
    let n := s.arg.a % 48
    let m := s.mgmt
    let surplus := m.budget - max m.dem m.floor
    let deficit := min m.dem 3200 - m.budget
    let lane (k : Nat) : Prop := (s.port k).up = true ∧ (s.port k).xoff.getLsbD 0 = false ∧ (s.port k).vl0 = []
    (m.power ≠ .off → ∃ t, exec .budgetOfferTimer s = .next t ∧ t.mgmt = m ∧ t.mem = s.mem ∧ t.ctx = s.ctx ∧
      (∀ k, k < 48 → lane k → .offer k (s.offerFor k).1 (s.offerFor k).2 ∈ t.outbox ∧
        surplus ≤ (s.offerFor k).1 ∧ ∀ j, j < 48 → j ≠ k → (s.port j).up = true → (s.port j).hops ≤ 3 →
          (s.port j).offer ≤ (s.offerFor k).1) ∧
      (deficit ≠ 0 → ∀ k, k < 48 → lane k → (s.port k).offer ≠ 0 →
        (∀ j, j < 48 → j ≠ k → (s.port j).up = true → (s.port j).offer < (s.port k).offer) → .take k deficit ∈ t.outbox)) ∧
    (inOrder s → kindIs s 6 →
      exec .offer s = .next { s with ports := NatMap.set .reset s.ports n { (received s).port n with
        offer := s.arg.b, hops := s.arg.c } } ∧
      (s.arg.x.getLsbD 63 = true → exec .take s = .next { received s with
        mgmt := { m with takes := m.takes ++ [(n, (s.arg.hdr.extractLsb' 80 16).toNat, s.arg.b)] } }) ∧
      (((received s).port n).xoff.getLsbD 0 = false → s.arg.x.getLsbD 63 = false → m.takes = [] →
        (s.arg.b ≤ surplus → ∃ t, exec .take s = .next t ∧ t.mgmt = { m with budget := m.budget - s.arg.b } ∧
          .grant n s.arg.b 0 ∈ t.outbox ∧ t.mem = s.mem ∧ t.ctx = s.ctx) ∧
        (surplus < s.arg.b → (∀ j, j < 48 → j ≠ n → (s.port j).offer = 0) → ∃ t, exec .take s = .next t ∧
          t.mgmt = { m with budget := m.budget - surplus } ∧ .grant n surplus (s.arg.b - surplus) ∈ t.outbox ∧
          t.mem = s.mem ∧ t.ctx = s.ctx) ∧
        (surplus < s.arg.b → ∀ k, k < 48 → k ≠ n → lane k → (s.port k).offer ≠ 0 →
          (∀ j, j < 48 → j ≠ n → j ≠ k → (s.port j).up = true → (s.port j).offer < (s.port k).offer) →
          ∃ t, exec .take s = .next t ∧ t.mgmt = { m with budget := m.budget - surplus } ∧ .grant n surplus 0 ∈ t.outbox ∧
            .take k (s.arg.b - surplus) ∈ t.outbox ∧ t.relays.length = s.relays.length + 1)) ∧
      (s.relays = [] → exec .grant s = .next { received s with
        mgmt := { m with budget := min 4095 (m.budget + s.arg.b) } }) ∧
      (∀ k tag, k < 48 → k ≠ n → lane k →
        s.relays = [((s.arg.hdr.extractLsb' 80 16).toNat * 64 + n, tag * 64 + k, s.arg.b + s.arg.c)] →
        ∃ t, exec .grant s = .next t ∧ t.mgmt = m ∧ t.relays = [] ∧ .grant k s.arg.b s.arg.c ∈ t.outbox))

/-- 08 R215 to R228: for every well-formed slot word, decoding its encoding gives it back: its position, predicate, H,
prefixes and every field of its operands. -/
def Obligations.EncodeThenDecode : Prop :=
  ∀ (e : Env) (i : Instr), Instr.isWord i = true → i.wf e = true → decodeWords e.pos (encode e i) = some ⟨e, i⟩

/-- 08 R216 to R219, 07 R188, 09 R261: a step that issues runs the words of the bundle that the code at the program
counter decodes to, in their order, each by `exec` with its own envelope, and then ends the bundle, or takes the trap
that one of them raised before it, the errors in storage that its words met being found; a word that reads a predicate, mask or
iterator lost to an error takes MCHK instead (02 R77, the model's reading, log 75); an event runs by `exec` with its own arguments.
What memory-side watchpoints met is posted after either (18 R422). The code is what the program counter's bytes are once fetched, with no error in storage on the way. -/
def Obligations.StepRunsTheDecodedBundle : Prop :=
  (∀ (s s1 t : State) (rest : List Act) (p : Plan), s.agenda = .issue :: rest → s.openRmws = [] →
    let s0 : State := { s with agenda := rest }
    s0.prep = (s1, some p) →
      (runWords p.todo (s1.commit p) = .next t → step s = .next (s1.settled t p.addr).postWatched) ∧
      (∀ x u, p.todo = [x] → ((s1.commit p).enter x).deadRead x = false → exec x.1.op ((s1.commit p).enter x) = .next u →
        (u.issue.trap = none → u.issue.watch = none → step s = .next ((u.measure x).finish s1.inh).postWatched) ∧
        (∀ e, u.issue.trap = some e → step s = .next ((s1.foundBy u).undone p.addr e).postWatched)) ∧
      (s0.ctx.seq = none → s.upsets = [] → ∃ b, decodeBundle (s1.codeWord s0.ctx.pc) = .ok b ∧ p.addr = s0.ctx.pc ∧
        p.next = s0.ctx.pc + 4 * b.len ∧ 4 * b.bw = p.weight ∧ (s0.ctx.checked = true → b.t = true) ∧
        (∀ x ∈ b.words, (x, none, false) ∈ p.todo) ∧ ∀ x ∈ p.todo, x.2.2 = false → x.1 ∈ b.words)) ∧
  (∀ (x : Slot × Option Nat × Bool) (xs : List (Slot × Option Nat × Bool)) (s t : State),
    ((s.enter x).deadRead x = false → exec x.1.op (s.enter x) = .next t →
      (t.issue.trap = none → runWords (x :: xs) s = runWords xs (t.measure x)) ∧
      (t.issue.trap.isSome = true → runWords (x :: xs) s = .next t)) ∧
    (s.ctx.regs.dead = [] → (s.enter x).deadRead x = false) ∧
    ((s.enter x).deadRead x = true → s.inh = false →
      ∃ u, runWords (x :: xs) s = .next u ∧ u.mem = s.mem ∧ u.issue.trap.map Prod.fst = some 0x12)) ∧
  ∀ (s t : State) (rest : List Act) (i : Instr) (x : EvArgs), s.agenda = .event i x :: rest → s.openRmws = [] →
    Instr.isWord i = false → exec i { s with agenda := rest, arg := x } = .next t → t.issue.live = false →
    step s = .next (State.postWatched { t with arg := s.arg })

/-- 08 R215 to R226: the words of the manual's worked bundles decode to what they stand for: position, predicate, H,
prefixes and operands (08 the example after R241, 09 R248, 10 R287, R301, 11 R322); a prefix without a word, and an
opcode the tables do not have, decode to nothing. -/
def Obligations.WordsOfTheSpecDecode : Prop :=
  let plain (p : BitVec 5) : Env := ⟨p, 0, false, Pfx.empty⟩
  decodeWords 1 [0x408A5080] = some ⟨plain 1, .cmpi 2 5 1 16⟩ ∧
  decodeWords 9 [0x06084100] = some ⟨plain 9, .vmul 2 1 3 0⟩ ∧
  decodeWords 10 [0x00001142, 0x87C00086, 0x5ED78101, 0x0040057D] =
    some ⟨{ plain 10 with pfx := { Pfx.empty with rnd := some (5, 8), sat := some (2, 0x87C000) } }, .vmul64 700 701 702 2⟩ ∧
  decodeWords 0 [0x00010088] = some ⟨{ plain 0 with pred := 1 }, .br 8⟩ ∧
  decodeWords 1 [0x0007A10A, 0x8030C100] =
    some ⟨{ plain 1 with pfx := { Pfx.empty with imx := some 7812 } }, .addi 6 6 0x40⟩ ∧
  decodeWords 9 [0x0A308004] = some ⟨{ plain 9 with hold := true }, .vadd 4 6 5 0⟩ ∧
  decodeWords 2 [0x1030E000] = some ⟨plain 2, .add 7 6 8⟩ ∧
  decodeWords 1 [0xC4D12F01, 0x0091A2B3] = some ⟨plain 1, .movi64 9 0x123456789A⟩ ∧
  decodeWords 8 [0x00426000] = some ⟨plain 8, .pand 3 1 2 0 0⟩ ∧
  decodeWords 0 [0xA0208301, 0x00000108] = some ⟨plain 0, .loop 4 2 20 4 2⟩ ∧
  decodeWords 3 [0x2C586101, 0x00000191] = some ⟨plain 3, .ldacqLong 3 11 3 0 4 200 0⟩ ∧
  decodeWords 7 [0x0071A001, 0x00000020] = some ⟨plain 7, .cpy 13 14 0 64⟩ ∧
  decodeWords 9 [0x00000D42, 0x328C8199, 0x000338CC] =
    some ⟨{ plain 9 with pred := 3, pfx := { Pfx.empty with rnd := some (5, 6) } }, .vfma 100 101 102 103 0⟩ ∧
  decodeWords 1 [0x00000042] = none ∧ decodeWords 0 [0x00001F80] = none

/-- 02 R48, 03 R83, R88, 07 R204 to R211, 09 R266, 16 R388, 18 R420, R425, 21 R462: the values the rules give for reset,
and the state after reset is sound: memory is canonical. That registers and bytes which no rule gives a value are 0, that the stepping
is B0, the links up and the state that after one good start are the model's choices (logs 3, 5 to 9). -/
def Obligations.ResetState : Prop :=
  let s := State.reset
  s.sound = true ∧ s.creg 1 = 0x111 ∧ s.creg 2 = 1023 ∧ s.creg 3 = 8191 ∧
    (∀ n ∈ [0, 4, 5, 6, 7, 8, 9, 0xA, 0xB, 0xC, 0xD, 0x10, 0x11, 0x12], s.creg n = 0) ∧
    s.creg 0x44 = 0x0C000000 ∧ s.creg 0x28 = 0x40004000 ∧
    (∀ n, s.sreg n = 0) ∧ (∀ n, s.kreg n = decide (n = 0)) ∧ (∀ pa, s.byte pa = 0) ∧
    s.cclk = 0 ∧ s.pclk = 0 ∧ s.mgmt.ready = true ∧
    s.launches = [] ∧ (∀ t, (NatMap.get Tenant.reset s.tenants t).en = false ∧ (NatMap.get Tenant.reset s.tenants t).snq = 16) ∧
    (∀ q, (s.queue q).en = false ∧ (s.queue q).logsz = 4) ∧ (∀ n, (NatMap.get Mca.reset s.mca n).ecfg = 1)

/-- 02 R43, 03 R81, 21 R450: whatever a step does, the state it leaves is sound where the state before it was: every
write of memory keeps the canonical form, and every change of the directory keeps each line once. -/
def Obligations.StepsKeepTheStateSound : Prop :=
  ∀ s t : State, s.sound = true → step s = .next t → t.sound = true

/-- 08 R220, 02 R47, R68: a word of the scalar, memory, array and copy classes with a false predicate does nothing, but that an
array word of the array's owner counts its step (13 R351); and no word but one of class C writes a register when it runs:
results are owed and land later. -/
def Obligations.PredicatesAndResultsGate : Prop :=
  (∀ (s : State) (i : Instr), Instr.isWord i = true → (Instr.slots i).1 < 9 → s.pred = false →
    ((Instr.slots i).1 ≠ 5 ∨ s.core.array.owner ≠ some s.cur → exec i s = .next s) ∧
    ∃ p, exec i s = .next (withA s { s.core.array with pass := p })) ∧
  ∀ (s t : State) (i : Instr), Instr.isWord i = true → (Instr.slots i).1 ≠ 0 → exec i s = .next t →
    t.ctx.regs = s.ctx.regs ∧ t.cur = s.cur ∧ t.agenda = s.agenda

end
end

