-- ==== Sys2Proof/Laws/State.lean ====
section
/-! SUPPORT. Each named update of the state, field by field: what it sets, and that it leaves every other field alone. A
proof about an instruction rewrites with these and need not unfold a record update. -/

namespace Sys2Proof.Machine

/-! ### `setByte` -/

@[simp] theorem State.setByte_agenda (s : State) (a : Nat) (b : Byte) : (s.setByte a b).agenda = s.agenda := rfl
@[simp] theorem State.setByte_arg (s : State) (a : Nat) (b : Byte) : (s.setByte a b).arg = s.arg := rfl
@[simp] theorem State.setByte_env (s : State) (a : Nat) (b : Byte) : (s.setByte a b).env = s.env := rfl
@[simp] theorem State.setByte_issue (s : State) (a : Nat) (b : Byte) : (s.setByte a b).issue = s.issue := rfl
@[simp] theorem State.setByte_draws (s : State) (a : Nat) (b : Byte) : (s.setByte a b).draws = s.draws := rfl
@[simp] theorem State.setByte_stepping (s : State) (a : Nat) (b : Byte) : (s.setByte a b).stepping = s.stepping := rfl
@[simp] theorem State.setByte_halted (s : State) (a : Nat) (b : Byte) : (s.setByte a b).halted = s.halted := rfl
@[simp] theorem State.setByte_cur (s : State) (a : Nat) (b : Byte) : (s.setByte a b).cur = s.cur := rfl
@[simp] theorem State.setByte_ctx (s : State) (a : Nat) (b : Byte) : (s.setByte a b).ctx = s.ctx := rfl
@[simp] theorem State.setByte_core (s : State) (a : Nat) (b : Byte) : (s.setByte a b).core = s.core := rfl
@[simp] theorem State.setByte_clu (s : State) (a : Nat) (b : Byte) : (s.setByte a b).clu = s.clu := rfl
@[simp] theorem State.setByte_ctxs (s : State) (a : Nat) (b : Byte) : (s.setByte a b).ctxs = s.ctxs := rfl
@[simp] theorem State.setByte_cores (s : State) (a : Nat) (b : Byte) : (s.setByte a b).cores = s.cores := rfl
@[simp] theorem State.setByte_clus (s : State) (a : Nat) (b : Byte) : (s.setByte a b).clus = s.clus := rfl
@[simp] theorem State.setByte_mem (s : State) (a : Nat) (b : Byte) :
    (s.setByte a b).mem = NatMap.set 0 s.mem a b := rfl
@[simp] theorem State.setByte_memPoison (s : State) (a : Nat) (b : Byte) : (s.setByte a b).memPoison = s.memPoison := rfl
@[simp] theorem State.setByte_upsets (s : State) (a : Nat) (b : Byte) : (s.setByte a b).upsets = s.upsets := rfl
@[simp] theorem State.setByte_residues (s : State) (a : Nat) (b : Byte) : (s.setByte a b).residues = s.residues := rfl
@[simp] theorem State.setByte_cached (s : State) (a : Nat) (b : Byte) : (s.setByte a b).cached = s.cached := rfl
@[simp] theorem State.setByte_walkCache (s : State) (a : Nat) (b : Byte) : (s.setByte a b).walkCache = s.walkCache := rfl
@[simp] theorem State.setByte_openRmws (s : State) (a : Nat) (b : Byte) : (s.setByte a b).openRmws = s.openRmws := rfl
@[simp] theorem State.setByte_recalled (s : State) (a : Nat) (b : Byte) : (s.setByte a b).recalled = s.recalled := rfl
@[simp] theorem State.setByte_flights (s : State) (a : Nat) (b : Byte) : (s.setByte a b).flights = s.flights := rfl
@[simp] theorem State.setByte_cclk (s : State) (a : Nat) (b : Byte) : (s.setByte a b).cclk = s.cclk := rfl
@[simp] theorem State.setByte_pclk (s : State) (a : Nat) (b : Byte) : (s.setByte a b).pclk = s.pclk := rfl
@[simp] theorem State.setByte_unpublished (s : State) (a : Nat) (b : Byte) : (s.setByte a b).unpublished = s.unpublished := rfl
@[simp] theorem State.setByte_turn (s : State) (a : Nat) (b : Byte) : (s.setByte a b).turn = s.turn := rfl
@[simp] theorem State.setByte_dir (s : State) (a : Nat) (b : Byte) : (s.setByte a b).dir = s.dir := rfl
@[simp] theorem State.setByte_autoQ (s : State) (a : Nat) (b : Byte) : (s.setByte a b).autoQ = s.autoQ := rfl
@[simp] theorem State.setByte_snaps (s : State) (a : Nat) (b : Byte) : (s.setByte a b).snaps = s.snaps := rfl
@[simp] theorem State.setByte_txs (s : State) (a : Nat) (b : Byte) : (s.setByte a b).txs = s.txs := rfl
@[simp] theorem State.setByte_colfreed (s : State) (a : Nat) (b : Byte) : (s.setByte a b).colfreed = s.colfreed := rfl
@[simp] theorem State.setByte_colst (s : State) (a : Nat) (b : Byte) : (s.setByte a b).colst = s.colst := rfl
@[simp] theorem State.setByte_lrsz (s : State) (a : Nat) (b : Byte) : (s.setByte a b).lrsz = s.lrsz := rfl
@[simp] theorem State.setByte_dirRoom (s : State) (a : Nat) (b : Byte) : (s.setByte a b).dirRoom = s.dirRoom := rfl
@[simp] theorem State.setByte_tenants (s : State) (a : Nat) (b : Byte) : (s.setByte a b).tenants = s.tenants := rfl
@[simp] theorem State.setByte_fqOver (s : State) (a : Nat) (b : Byte) : (s.setByte a b).fqOver = s.fqOver := rfl
@[simp] theorem State.setByte_watchQ (s : State) (a : Nat) (b : Byte) : (s.setByte a b).watchQ = s.watchQ := rfl
@[simp] theorem State.setByte_queues (s : State) (a : Nat) (b : Byte) : (s.setByte a b).queues = s.queues := rfl
@[simp] theorem State.setByte_launches (s : State) (a : Nat) (b : Byte) : (s.setByte a b).launches = s.launches := rfl
@[simp] theorem State.setByte_nextLid (s : State) (a : Nat) (b : Byte) : (s.setByte a b).nextLid = s.nextLid := rfl
@[simp] theorem State.setByte_nextOrder (s : State) (a : Nat) (b : Byte) : (s.setByte a b).nextOrder = s.nextOrder := rfl
@[simp] theorem State.setByte_copies (s : State) (a : Nat) (b : Byte) : (s.setByte a b).copies = s.copies := rfl
@[simp] theorem State.setByte_colls (s : State) (a : Nat) (b : Byte) : (s.setByte a b).colls = s.colls := rfl
@[simp] theorem State.setByte_mca (s : State) (a : Nat) (b : Byte) : (s.setByte a b).mca = s.mca := rfl
@[simp] theorem State.setByte_hwpa (s : State) (a : Nat) (b : Byte) : (s.setByte a b).hwpa = s.hwpa := rfl
@[simp] theorem State.setByte_hwpc (s : State) (a : Nat) (b : Byte) : (s.setByte a b).hwpc = s.hwpc := rfl
@[simp] theorem State.setByte_device (s : State) (a : Nat) (b : Byte) : (s.setByte a b).device = s.device := rfl
@[simp] theorem State.setByte_route (s : State) (a : Nat) (b : Byte) : (s.setByte a b).route = s.route := rfl
@[simp] theorem State.setByte_ports (s : State) (a : Nat) (b : Byte) : (s.setByte a b).ports = s.ports := rfl
@[simp] theorem State.setByte_peerReqs (s : State) (a : Nat) (b : Byte) : (s.setByte a b).peerReqs = s.peerReqs := rfl
@[simp] theorem State.setByte_discard (s : State) (a : Nat) (b : Byte) : (s.setByte a b).discard = s.discard := rfl
@[simp] theorem State.setByte_relays (s : State) (a : Nat) (b : Byte) : (s.setByte a b).relays = s.relays := rfl
@[simp] theorem State.setByte_mgmt (s : State) (a : Nat) (b : Byte) : (s.setByte a b).mgmt = s.mgmt := rfl
@[simp] theorem State.setByte_outbox (s : State) (a : Nat) (b : Byte) : (s.setByte a b).outbox = s.outbox := rfl

/-! ### `setBytes` -/

@[simp] theorem State.setBytes_agenda (s : State) (a : Nat) (l : List Byte) : (s.setBytes a l).agenda = s.agenda := rfl
@[simp] theorem State.setBytes_arg (s : State) (a : Nat) (l : List Byte) : (s.setBytes a l).arg = s.arg := rfl
@[simp] theorem State.setBytes_env (s : State) (a : Nat) (l : List Byte) : (s.setBytes a l).env = s.env := rfl
@[simp] theorem State.setBytes_issue (s : State) (a : Nat) (l : List Byte) : (s.setBytes a l).issue = s.issue := rfl
@[simp] theorem State.setBytes_draws (s : State) (a : Nat) (l : List Byte) : (s.setBytes a l).draws = s.draws := rfl
@[simp] theorem State.setBytes_stepping (s : State) (a : Nat) (l : List Byte) : (s.setBytes a l).stepping = s.stepping := rfl
@[simp] theorem State.setBytes_halted (s : State) (a : Nat) (l : List Byte) : (s.setBytes a l).halted = s.halted := rfl
@[simp] theorem State.setBytes_cur (s : State) (a : Nat) (l : List Byte) : (s.setBytes a l).cur = s.cur := rfl
@[simp] theorem State.setBytes_ctx (s : State) (a : Nat) (l : List Byte) : (s.setBytes a l).ctx = s.ctx := rfl
@[simp] theorem State.setBytes_core (s : State) (a : Nat) (l : List Byte) : (s.setBytes a l).core = s.core := rfl
@[simp] theorem State.setBytes_clu (s : State) (a : Nat) (l : List Byte) : (s.setBytes a l).clu = s.clu := rfl
@[simp] theorem State.setBytes_ctxs (s : State) (a : Nat) (l : List Byte) : (s.setBytes a l).ctxs = s.ctxs := rfl
@[simp] theorem State.setBytes_cores (s : State) (a : Nat) (l : List Byte) : (s.setBytes a l).cores = s.cores := rfl
@[simp] theorem State.setBytes_clus (s : State) (a : Nat) (l : List Byte) : (s.setBytes a l).clus = s.clus := rfl
@[simp] theorem State.setBytes_mem (s : State) (a : Nat) (l : List Byte) :
    (s.setBytes a l).mem = ((List.range l.length).zip l).foldl (fun m x => NatMap.set 0 m (a + x.1) x.2) s.mem := rfl
@[simp] theorem State.setBytes_memPoison (s : State) (a : Nat) (l : List Byte) : (s.setBytes a l).memPoison = s.memPoison := rfl
@[simp] theorem State.setBytes_upsets (s : State) (a : Nat) (l : List Byte) : (s.setBytes a l).upsets = s.upsets := rfl
@[simp] theorem State.setBytes_residues (s : State) (a : Nat) (l : List Byte) : (s.setBytes a l).residues = s.residues := rfl
@[simp] theorem State.setBytes_cached (s : State) (a : Nat) (l : List Byte) : (s.setBytes a l).cached = s.cached := rfl
@[simp] theorem State.setBytes_walkCache (s : State) (a : Nat) (l : List Byte) : (s.setBytes a l).walkCache = s.walkCache := rfl
@[simp] theorem State.setBytes_openRmws (s : State) (a : Nat) (l : List Byte) : (s.setBytes a l).openRmws = s.openRmws := rfl
@[simp] theorem State.setBytes_recalled (s : State) (a : Nat) (l : List Byte) : (s.setBytes a l).recalled = s.recalled := rfl
@[simp] theorem State.setBytes_flights (s : State) (a : Nat) (l : List Byte) : (s.setBytes a l).flights = s.flights := rfl
@[simp] theorem State.setBytes_cclk (s : State) (a : Nat) (l : List Byte) : (s.setBytes a l).cclk = s.cclk := rfl
@[simp] theorem State.setBytes_pclk (s : State) (a : Nat) (l : List Byte) : (s.setBytes a l).pclk = s.pclk := rfl
@[simp] theorem State.setBytes_unpublished (s : State) (a : Nat) (l : List Byte) : (s.setBytes a l).unpublished = s.unpublished := rfl
@[simp] theorem State.setBytes_turn (s : State) (a : Nat) (l : List Byte) : (s.setBytes a l).turn = s.turn := rfl
@[simp] theorem State.setBytes_dir (s : State) (a : Nat) (l : List Byte) : (s.setBytes a l).dir = s.dir := rfl
@[simp] theorem State.setBytes_autoQ (s : State) (a : Nat) (l : List Byte) : (s.setBytes a l).autoQ = s.autoQ := rfl
@[simp] theorem State.setBytes_snaps (s : State) (a : Nat) (l : List Byte) : (s.setBytes a l).snaps = s.snaps := rfl
@[simp] theorem State.setBytes_txs (s : State) (a : Nat) (l : List Byte) : (s.setBytes a l).txs = s.txs := rfl
@[simp] theorem State.setBytes_colfreed (s : State) (a : Nat) (l : List Byte) : (s.setBytes a l).colfreed = s.colfreed := rfl
@[simp] theorem State.setBytes_colst (s : State) (a : Nat) (l : List Byte) : (s.setBytes a l).colst = s.colst := rfl
@[simp] theorem State.setBytes_lrsz (s : State) (a : Nat) (l : List Byte) : (s.setBytes a l).lrsz = s.lrsz := rfl
@[simp] theorem State.setBytes_dirRoom (s : State) (a : Nat) (l : List Byte) : (s.setBytes a l).dirRoom = s.dirRoom := rfl
@[simp] theorem State.setBytes_tenants (s : State) (a : Nat) (l : List Byte) : (s.setBytes a l).tenants = s.tenants := rfl
@[simp] theorem State.setBytes_fqOver (s : State) (a : Nat) (l : List Byte) : (s.setBytes a l).fqOver = s.fqOver := rfl
@[simp] theorem State.setBytes_watchQ (s : State) (a : Nat) (l : List Byte) : (s.setBytes a l).watchQ = s.watchQ := rfl
@[simp] theorem State.setBytes_queues (s : State) (a : Nat) (l : List Byte) : (s.setBytes a l).queues = s.queues := rfl
@[simp] theorem State.setBytes_launches (s : State) (a : Nat) (l : List Byte) : (s.setBytes a l).launches = s.launches := rfl
@[simp] theorem State.setBytes_nextLid (s : State) (a : Nat) (l : List Byte) : (s.setBytes a l).nextLid = s.nextLid := rfl
@[simp] theorem State.setBytes_nextOrder (s : State) (a : Nat) (l : List Byte) : (s.setBytes a l).nextOrder = s.nextOrder := rfl
@[simp] theorem State.setBytes_copies (s : State) (a : Nat) (l : List Byte) : (s.setBytes a l).copies = s.copies := rfl
@[simp] theorem State.setBytes_colls (s : State) (a : Nat) (l : List Byte) : (s.setBytes a l).colls = s.colls := rfl
@[simp] theorem State.setBytes_mca (s : State) (a : Nat) (l : List Byte) : (s.setBytes a l).mca = s.mca := rfl
@[simp] theorem State.setBytes_hwpa (s : State) (a : Nat) (l : List Byte) : (s.setBytes a l).hwpa = s.hwpa := rfl
@[simp] theorem State.setBytes_hwpc (s : State) (a : Nat) (l : List Byte) : (s.setBytes a l).hwpc = s.hwpc := rfl
@[simp] theorem State.setBytes_device (s : State) (a : Nat) (l : List Byte) : (s.setBytes a l).device = s.device := rfl
@[simp] theorem State.setBytes_route (s : State) (a : Nat) (l : List Byte) : (s.setBytes a l).route = s.route := rfl
@[simp] theorem State.setBytes_ports (s : State) (a : Nat) (l : List Byte) : (s.setBytes a l).ports = s.ports := rfl
@[simp] theorem State.setBytes_peerReqs (s : State) (a : Nat) (l : List Byte) : (s.setBytes a l).peerReqs = s.peerReqs := rfl
@[simp] theorem State.setBytes_discard (s : State) (a : Nat) (l : List Byte) : (s.setBytes a l).discard = s.discard := rfl
@[simp] theorem State.setBytes_relays (s : State) (a : Nat) (l : List Byte) : (s.setBytes a l).relays = s.relays := rfl
@[simp] theorem State.setBytes_mgmt (s : State) (a : Nat) (l : List Byte) : (s.setBytes a l).mgmt = s.mgmt := rfl
@[simp] theorem State.setBytes_outbox (s : State) (a : Nat) (l : List Byte) : (s.setBytes a l).outbox = s.outbox := rfl

/-! ### `modC` -/

@[simp] theorem State.modC_agenda (s : State) (f : CRegs → CRegs) : (s.modC f).agenda = s.agenda := rfl
@[simp] theorem State.modC_arg (s : State) (f : CRegs → CRegs) : (s.modC f).arg = s.arg := rfl
@[simp] theorem State.modC_env (s : State) (f : CRegs → CRegs) : (s.modC f).env = s.env := rfl
@[simp] theorem State.modC_issue (s : State) (f : CRegs → CRegs) : (s.modC f).issue = s.issue := rfl
@[simp] theorem State.modC_draws (s : State) (f : CRegs → CRegs) : (s.modC f).draws = s.draws := rfl
@[simp] theorem State.modC_stepping (s : State) (f : CRegs → CRegs) : (s.modC f).stepping = s.stepping := rfl
@[simp] theorem State.modC_halted (s : State) (f : CRegs → CRegs) : (s.modC f).halted = s.halted := rfl
@[simp] theorem State.modC_cur (s : State) (f : CRegs → CRegs) : (s.modC f).cur = s.cur := rfl
@[simp] theorem State.modC_ctx (s : State) (f : CRegs → CRegs) :
    (s.modC f).ctx = { s.ctx with c := f s.ctx.c } := rfl
@[simp] theorem State.modC_core (s : State) (f : CRegs → CRegs) : (s.modC f).core = s.core := rfl
@[simp] theorem State.modC_clu (s : State) (f : CRegs → CRegs) : (s.modC f).clu = s.clu := rfl
@[simp] theorem State.modC_ctxs (s : State) (f : CRegs → CRegs) : (s.modC f).ctxs = s.ctxs := rfl
@[simp] theorem State.modC_cores (s : State) (f : CRegs → CRegs) : (s.modC f).cores = s.cores := rfl
@[simp] theorem State.modC_clus (s : State) (f : CRegs → CRegs) : (s.modC f).clus = s.clus := rfl
@[simp] theorem State.modC_mem (s : State) (f : CRegs → CRegs) : (s.modC f).mem = s.mem := rfl
@[simp] theorem State.modC_memPoison (s : State) (f : CRegs → CRegs) : (s.modC f).memPoison = s.memPoison := rfl
@[simp] theorem State.modC_upsets (s : State) (f : CRegs → CRegs) : (s.modC f).upsets = s.upsets := rfl
@[simp] theorem State.modC_residues (s : State) (f : CRegs → CRegs) : (s.modC f).residues = s.residues := rfl
@[simp] theorem State.modC_cached (s : State) (f : CRegs → CRegs) : (s.modC f).cached = s.cached := rfl
@[simp] theorem State.modC_walkCache (s : State) (f : CRegs → CRegs) : (s.modC f).walkCache = s.walkCache := rfl
@[simp] theorem State.modC_openRmws (s : State) (f : CRegs → CRegs) : (s.modC f).openRmws = s.openRmws := rfl
@[simp] theorem State.modC_recalled (s : State) (f : CRegs → CRegs) : (s.modC f).recalled = s.recalled := rfl
@[simp] theorem State.modC_flights (s : State) (f : CRegs → CRegs) : (s.modC f).flights = s.flights := rfl
@[simp] theorem State.modC_cclk (s : State) (f : CRegs → CRegs) : (s.modC f).cclk = s.cclk := rfl
@[simp] theorem State.modC_pclk (s : State) (f : CRegs → CRegs) : (s.modC f).pclk = s.pclk := rfl
@[simp] theorem State.modC_unpublished (s : State) (f : CRegs → CRegs) : (s.modC f).unpublished = s.unpublished := rfl
@[simp] theorem State.modC_turn (s : State) (f : CRegs → CRegs) : (s.modC f).turn = s.turn := rfl
@[simp] theorem State.modC_dir (s : State) (f : CRegs → CRegs) : (s.modC f).dir = s.dir := rfl
@[simp] theorem State.modC_autoQ (s : State) (f : CRegs → CRegs) : (s.modC f).autoQ = s.autoQ := rfl
@[simp] theorem State.modC_snaps (s : State) (f : CRegs → CRegs) : (s.modC f).snaps = s.snaps := rfl
@[simp] theorem State.modC_txs (s : State) (f : CRegs → CRegs) : (s.modC f).txs = s.txs := rfl
@[simp] theorem State.modC_colfreed (s : State) (f : CRegs → CRegs) : (s.modC f).colfreed = s.colfreed := rfl
@[simp] theorem State.modC_colst (s : State) (f : CRegs → CRegs) : (s.modC f).colst = s.colst := rfl
@[simp] theorem State.modC_lrsz (s : State) (f : CRegs → CRegs) : (s.modC f).lrsz = s.lrsz := rfl
@[simp] theorem State.modC_dirRoom (s : State) (f : CRegs → CRegs) : (s.modC f).dirRoom = s.dirRoom := rfl
@[simp] theorem State.modC_tenants (s : State) (f : CRegs → CRegs) : (s.modC f).tenants = s.tenants := rfl
@[simp] theorem State.modC_fqOver (s : State) (f : CRegs → CRegs) : (s.modC f).fqOver = s.fqOver := rfl
@[simp] theorem State.modC_watchQ (s : State) (f : CRegs → CRegs) : (s.modC f).watchQ = s.watchQ := rfl
@[simp] theorem State.modC_queues (s : State) (f : CRegs → CRegs) : (s.modC f).queues = s.queues := rfl
@[simp] theorem State.modC_launches (s : State) (f : CRegs → CRegs) : (s.modC f).launches = s.launches := rfl
@[simp] theorem State.modC_nextLid (s : State) (f : CRegs → CRegs) : (s.modC f).nextLid = s.nextLid := rfl
@[simp] theorem State.modC_nextOrder (s : State) (f : CRegs → CRegs) : (s.modC f).nextOrder = s.nextOrder := rfl
@[simp] theorem State.modC_copies (s : State) (f : CRegs → CRegs) : (s.modC f).copies = s.copies := rfl
@[simp] theorem State.modC_colls (s : State) (f : CRegs → CRegs) : (s.modC f).colls = s.colls := rfl
@[simp] theorem State.modC_mca (s : State) (f : CRegs → CRegs) : (s.modC f).mca = s.mca := rfl
@[simp] theorem State.modC_hwpa (s : State) (f : CRegs → CRegs) : (s.modC f).hwpa = s.hwpa := rfl
@[simp] theorem State.modC_hwpc (s : State) (f : CRegs → CRegs) : (s.modC f).hwpc = s.hwpc := rfl
@[simp] theorem State.modC_device (s : State) (f : CRegs → CRegs) : (s.modC f).device = s.device := rfl
@[simp] theorem State.modC_route (s : State) (f : CRegs → CRegs) : (s.modC f).route = s.route := rfl
@[simp] theorem State.modC_ports (s : State) (f : CRegs → CRegs) : (s.modC f).ports = s.ports := rfl
@[simp] theorem State.modC_peerReqs (s : State) (f : CRegs → CRegs) : (s.modC f).peerReqs = s.peerReqs := rfl
@[simp] theorem State.modC_discard (s : State) (f : CRegs → CRegs) : (s.modC f).discard = s.discard := rfl
@[simp] theorem State.modC_relays (s : State) (f : CRegs → CRegs) : (s.modC f).relays = s.relays := rfl
@[simp] theorem State.modC_mgmt (s : State) (f : CRegs → CRegs) : (s.modC f).mgmt = s.mgmt := rfl
@[simp] theorem State.modC_outbox (s : State) (f : CRegs → CRegs) : (s.modC f).outbox = s.outbox := rfl

/-! ### `modQ` -/

@[simp] theorem State.modQ_agenda (s : State) (f : Queues → Queues) : (s.modQ f).agenda = s.agenda := rfl
@[simp] theorem State.modQ_arg (s : State) (f : Queues → Queues) : (s.modQ f).arg = s.arg := rfl
@[simp] theorem State.modQ_env (s : State) (f : Queues → Queues) : (s.modQ f).env = s.env := rfl
@[simp] theorem State.modQ_issue (s : State) (f : Queues → Queues) : (s.modQ f).issue = s.issue := rfl
@[simp] theorem State.modQ_draws (s : State) (f : Queues → Queues) : (s.modQ f).draws = s.draws := rfl
@[simp] theorem State.modQ_stepping (s : State) (f : Queues → Queues) : (s.modQ f).stepping = s.stepping := rfl
@[simp] theorem State.modQ_halted (s : State) (f : Queues → Queues) : (s.modQ f).halted = s.halted := rfl
@[simp] theorem State.modQ_cur (s : State) (f : Queues → Queues) : (s.modQ f).cur = s.cur := rfl
@[simp] theorem State.modQ_ctx (s : State) (f : Queues → Queues) :
    (s.modQ f).ctx = { s.ctx with q := f s.ctx.q } := rfl
@[simp] theorem State.modQ_core (s : State) (f : Queues → Queues) : (s.modQ f).core = s.core := rfl
@[simp] theorem State.modQ_clu (s : State) (f : Queues → Queues) : (s.modQ f).clu = s.clu := rfl
@[simp] theorem State.modQ_ctxs (s : State) (f : Queues → Queues) : (s.modQ f).ctxs = s.ctxs := rfl
@[simp] theorem State.modQ_cores (s : State) (f : Queues → Queues) : (s.modQ f).cores = s.cores := rfl
@[simp] theorem State.modQ_clus (s : State) (f : Queues → Queues) : (s.modQ f).clus = s.clus := rfl
@[simp] theorem State.modQ_mem (s : State) (f : Queues → Queues) : (s.modQ f).mem = s.mem := rfl
@[simp] theorem State.modQ_memPoison (s : State) (f : Queues → Queues) : (s.modQ f).memPoison = s.memPoison := rfl
@[simp] theorem State.modQ_upsets (s : State) (f : Queues → Queues) : (s.modQ f).upsets = s.upsets := rfl
@[simp] theorem State.modQ_residues (s : State) (f : Queues → Queues) : (s.modQ f).residues = s.residues := rfl
@[simp] theorem State.modQ_cached (s : State) (f : Queues → Queues) : (s.modQ f).cached = s.cached := rfl
@[simp] theorem State.modQ_walkCache (s : State) (f : Queues → Queues) : (s.modQ f).walkCache = s.walkCache := rfl
@[simp] theorem State.modQ_openRmws (s : State) (f : Queues → Queues) : (s.modQ f).openRmws = s.openRmws := rfl
@[simp] theorem State.modQ_recalled (s : State) (f : Queues → Queues) : (s.modQ f).recalled = s.recalled := rfl
@[simp] theorem State.modQ_flights (s : State) (f : Queues → Queues) : (s.modQ f).flights = s.flights := rfl
@[simp] theorem State.modQ_cclk (s : State) (f : Queues → Queues) : (s.modQ f).cclk = s.cclk := rfl
@[simp] theorem State.modQ_pclk (s : State) (f : Queues → Queues) : (s.modQ f).pclk = s.pclk := rfl
@[simp] theorem State.modQ_unpublished (s : State) (f : Queues → Queues) : (s.modQ f).unpublished = s.unpublished := rfl
@[simp] theorem State.modQ_turn (s : State) (f : Queues → Queues) : (s.modQ f).turn = s.turn := rfl
@[simp] theorem State.modQ_dir (s : State) (f : Queues → Queues) : (s.modQ f).dir = s.dir := rfl
@[simp] theorem State.modQ_autoQ (s : State) (f : Queues → Queues) : (s.modQ f).autoQ = s.autoQ := rfl
@[simp] theorem State.modQ_snaps (s : State) (f : Queues → Queues) : (s.modQ f).snaps = s.snaps := rfl
@[simp] theorem State.modQ_txs (s : State) (f : Queues → Queues) : (s.modQ f).txs = s.txs := rfl
@[simp] theorem State.modQ_colfreed (s : State) (f : Queues → Queues) : (s.modQ f).colfreed = s.colfreed := rfl
@[simp] theorem State.modQ_colst (s : State) (f : Queues → Queues) : (s.modQ f).colst = s.colst := rfl
@[simp] theorem State.modQ_lrsz (s : State) (f : Queues → Queues) : (s.modQ f).lrsz = s.lrsz := rfl
@[simp] theorem State.modQ_dirRoom (s : State) (f : Queues → Queues) : (s.modQ f).dirRoom = s.dirRoom := rfl
@[simp] theorem State.modQ_tenants (s : State) (f : Queues → Queues) : (s.modQ f).tenants = s.tenants := rfl
@[simp] theorem State.modQ_fqOver (s : State) (f : Queues → Queues) : (s.modQ f).fqOver = s.fqOver := rfl
@[simp] theorem State.modQ_watchQ (s : State) (f : Queues → Queues) : (s.modQ f).watchQ = s.watchQ := rfl
@[simp] theorem State.modQ_queues (s : State) (f : Queues → Queues) : (s.modQ f).queues = s.queues := rfl
@[simp] theorem State.modQ_launches (s : State) (f : Queues → Queues) : (s.modQ f).launches = s.launches := rfl
@[simp] theorem State.modQ_nextLid (s : State) (f : Queues → Queues) : (s.modQ f).nextLid = s.nextLid := rfl
@[simp] theorem State.modQ_nextOrder (s : State) (f : Queues → Queues) : (s.modQ f).nextOrder = s.nextOrder := rfl
@[simp] theorem State.modQ_copies (s : State) (f : Queues → Queues) : (s.modQ f).copies = s.copies := rfl
@[simp] theorem State.modQ_colls (s : State) (f : Queues → Queues) : (s.modQ f).colls = s.colls := rfl
@[simp] theorem State.modQ_mca (s : State) (f : Queues → Queues) : (s.modQ f).mca = s.mca := rfl
@[simp] theorem State.modQ_hwpa (s : State) (f : Queues → Queues) : (s.modQ f).hwpa = s.hwpa := rfl
@[simp] theorem State.modQ_hwpc (s : State) (f : Queues → Queues) : (s.modQ f).hwpc = s.hwpc := rfl
@[simp] theorem State.modQ_device (s : State) (f : Queues → Queues) : (s.modQ f).device = s.device := rfl
@[simp] theorem State.modQ_route (s : State) (f : Queues → Queues) : (s.modQ f).route = s.route := rfl
@[simp] theorem State.modQ_ports (s : State) (f : Queues → Queues) : (s.modQ f).ports = s.ports := rfl
@[simp] theorem State.modQ_peerReqs (s : State) (f : Queues → Queues) : (s.modQ f).peerReqs = s.peerReqs := rfl
@[simp] theorem State.modQ_discard (s : State) (f : Queues → Queues) : (s.modQ f).discard = s.discard := rfl
@[simp] theorem State.modQ_relays (s : State) (f : Queues → Queues) : (s.modQ f).relays = s.relays := rfl
@[simp] theorem State.modQ_mgmt (s : State) (f : Queues → Queues) : (s.modQ f).mgmt = s.mgmt := rfl
@[simp] theorem State.modQ_outbox (s : State) (f : Queues → Queues) : (s.modQ f).outbox = s.outbox := rfl

/-! ### `modR` -/

@[simp] theorem State.modR_agenda (s : State) (f : Regs → Regs) : (s.modR f).agenda = s.agenda := rfl
@[simp] theorem State.modR_arg (s : State) (f : Regs → Regs) : (s.modR f).arg = s.arg := rfl
@[simp] theorem State.modR_env (s : State) (f : Regs → Regs) : (s.modR f).env = s.env := rfl
@[simp] theorem State.modR_issue (s : State) (f : Regs → Regs) : (s.modR f).issue = s.issue := rfl
@[simp] theorem State.modR_draws (s : State) (f : Regs → Regs) : (s.modR f).draws = s.draws := rfl
@[simp] theorem State.modR_stepping (s : State) (f : Regs → Regs) : (s.modR f).stepping = s.stepping := rfl
@[simp] theorem State.modR_halted (s : State) (f : Regs → Regs) : (s.modR f).halted = s.halted := rfl
@[simp] theorem State.modR_cur (s : State) (f : Regs → Regs) : (s.modR f).cur = s.cur := rfl
@[simp] theorem State.modR_ctx (s : State) (f : Regs → Regs) :
    (s.modR f).ctx = { s.ctx with regs := f s.ctx.regs } := rfl
@[simp] theorem State.modR_core (s : State) (f : Regs → Regs) : (s.modR f).core = s.core := rfl
@[simp] theorem State.modR_clu (s : State) (f : Regs → Regs) : (s.modR f).clu = s.clu := rfl
@[simp] theorem State.modR_ctxs (s : State) (f : Regs → Regs) : (s.modR f).ctxs = s.ctxs := rfl
@[simp] theorem State.modR_cores (s : State) (f : Regs → Regs) : (s.modR f).cores = s.cores := rfl
@[simp] theorem State.modR_clus (s : State) (f : Regs → Regs) : (s.modR f).clus = s.clus := rfl
@[simp] theorem State.modR_mem (s : State) (f : Regs → Regs) : (s.modR f).mem = s.mem := rfl
@[simp] theorem State.modR_memPoison (s : State) (f : Regs → Regs) : (s.modR f).memPoison = s.memPoison := rfl
@[simp] theorem State.modR_upsets (s : State) (f : Regs → Regs) : (s.modR f).upsets = s.upsets := rfl
@[simp] theorem State.modR_residues (s : State) (f : Regs → Regs) : (s.modR f).residues = s.residues := rfl
@[simp] theorem State.modR_cached (s : State) (f : Regs → Regs) : (s.modR f).cached = s.cached := rfl
@[simp] theorem State.modR_walkCache (s : State) (f : Regs → Regs) : (s.modR f).walkCache = s.walkCache := rfl
@[simp] theorem State.modR_openRmws (s : State) (f : Regs → Regs) : (s.modR f).openRmws = s.openRmws := rfl
@[simp] theorem State.modR_recalled (s : State) (f : Regs → Regs) : (s.modR f).recalled = s.recalled := rfl
@[simp] theorem State.modR_flights (s : State) (f : Regs → Regs) : (s.modR f).flights = s.flights := rfl
@[simp] theorem State.modR_cclk (s : State) (f : Regs → Regs) : (s.modR f).cclk = s.cclk := rfl
@[simp] theorem State.modR_pclk (s : State) (f : Regs → Regs) : (s.modR f).pclk = s.pclk := rfl
@[simp] theorem State.modR_unpublished (s : State) (f : Regs → Regs) : (s.modR f).unpublished = s.unpublished := rfl
@[simp] theorem State.modR_turn (s : State) (f : Regs → Regs) : (s.modR f).turn = s.turn := rfl
@[simp] theorem State.modR_dir (s : State) (f : Regs → Regs) : (s.modR f).dir = s.dir := rfl
@[simp] theorem State.modR_autoQ (s : State) (f : Regs → Regs) : (s.modR f).autoQ = s.autoQ := rfl
@[simp] theorem State.modR_snaps (s : State) (f : Regs → Regs) : (s.modR f).snaps = s.snaps := rfl
@[simp] theorem State.modR_txs (s : State) (f : Regs → Regs) : (s.modR f).txs = s.txs := rfl
@[simp] theorem State.modR_colfreed (s : State) (f : Regs → Regs) : (s.modR f).colfreed = s.colfreed := rfl
@[simp] theorem State.modR_colst (s : State) (f : Regs → Regs) : (s.modR f).colst = s.colst := rfl
@[simp] theorem State.modR_lrsz (s : State) (f : Regs → Regs) : (s.modR f).lrsz = s.lrsz := rfl
@[simp] theorem State.modR_dirRoom (s : State) (f : Regs → Regs) : (s.modR f).dirRoom = s.dirRoom := rfl
@[simp] theorem State.modR_tenants (s : State) (f : Regs → Regs) : (s.modR f).tenants = s.tenants := rfl
@[simp] theorem State.modR_fqOver (s : State) (f : Regs → Regs) : (s.modR f).fqOver = s.fqOver := rfl
@[simp] theorem State.modR_watchQ (s : State) (f : Regs → Regs) : (s.modR f).watchQ = s.watchQ := rfl
@[simp] theorem State.modR_queues (s : State) (f : Regs → Regs) : (s.modR f).queues = s.queues := rfl
@[simp] theorem State.modR_launches (s : State) (f : Regs → Regs) : (s.modR f).launches = s.launches := rfl
@[simp] theorem State.modR_nextLid (s : State) (f : Regs → Regs) : (s.modR f).nextLid = s.nextLid := rfl
@[simp] theorem State.modR_nextOrder (s : State) (f : Regs → Regs) : (s.modR f).nextOrder = s.nextOrder := rfl
@[simp] theorem State.modR_copies (s : State) (f : Regs → Regs) : (s.modR f).copies = s.copies := rfl
@[simp] theorem State.modR_colls (s : State) (f : Regs → Regs) : (s.modR f).colls = s.colls := rfl
@[simp] theorem State.modR_mca (s : State) (f : Regs → Regs) : (s.modR f).mca = s.mca := rfl
@[simp] theorem State.modR_hwpa (s : State) (f : Regs → Regs) : (s.modR f).hwpa = s.hwpa := rfl
@[simp] theorem State.modR_hwpc (s : State) (f : Regs → Regs) : (s.modR f).hwpc = s.hwpc := rfl
@[simp] theorem State.modR_device (s : State) (f : Regs → Regs) : (s.modR f).device = s.device := rfl
@[simp] theorem State.modR_route (s : State) (f : Regs → Regs) : (s.modR f).route = s.route := rfl
@[simp] theorem State.modR_ports (s : State) (f : Regs → Regs) : (s.modR f).ports = s.ports := rfl
@[simp] theorem State.modR_peerReqs (s : State) (f : Regs → Regs) : (s.modR f).peerReqs = s.peerReqs := rfl
@[simp] theorem State.modR_discard (s : State) (f : Regs → Regs) : (s.modR f).discard = s.discard := rfl
@[simp] theorem State.modR_relays (s : State) (f : Regs → Regs) : (s.modR f).relays = s.relays := rfl
@[simp] theorem State.modR_mgmt (s : State) (f : Regs → Regs) : (s.modR f).mgmt = s.mgmt := rfl
@[simp] theorem State.modR_outbox (s : State) (f : Regs → Regs) : (s.modR f).outbox = s.outbox := rfl

/-! ### `modA` -/

@[simp] theorem State.modA_agenda (s : State) (f : ArrayState → ArrayState) : (s.modA f).agenda = s.agenda := rfl
@[simp] theorem State.modA_arg (s : State) (f : ArrayState → ArrayState) : (s.modA f).arg = s.arg := rfl
@[simp] theorem State.modA_env (s : State) (f : ArrayState → ArrayState) : (s.modA f).env = s.env := rfl
@[simp] theorem State.modA_issue (s : State) (f : ArrayState → ArrayState) : (s.modA f).issue = s.issue := rfl
@[simp] theorem State.modA_draws (s : State) (f : ArrayState → ArrayState) : (s.modA f).draws = s.draws := rfl
@[simp] theorem State.modA_stepping (s : State) (f : ArrayState → ArrayState) : (s.modA f).stepping = s.stepping := rfl
@[simp] theorem State.modA_halted (s : State) (f : ArrayState → ArrayState) : (s.modA f).halted = s.halted := rfl
@[simp] theorem State.modA_cur (s : State) (f : ArrayState → ArrayState) : (s.modA f).cur = s.cur := rfl
@[simp] theorem State.modA_ctx (s : State) (f : ArrayState → ArrayState) : (s.modA f).ctx = s.ctx := rfl
@[simp] theorem State.modA_core (s : State) (f : ArrayState → ArrayState) :
    (s.modA f).core = { s.core with array := f s.core.array } := rfl
@[simp] theorem State.modA_clu (s : State) (f : ArrayState → ArrayState) : (s.modA f).clu = s.clu := rfl
@[simp] theorem State.modA_ctxs (s : State) (f : ArrayState → ArrayState) : (s.modA f).ctxs = s.ctxs := rfl
@[simp] theorem State.modA_cores (s : State) (f : ArrayState → ArrayState) : (s.modA f).cores = s.cores := rfl
@[simp] theorem State.modA_clus (s : State) (f : ArrayState → ArrayState) : (s.modA f).clus = s.clus := rfl
@[simp] theorem State.modA_mem (s : State) (f : ArrayState → ArrayState) : (s.modA f).mem = s.mem := rfl
@[simp] theorem State.modA_memPoison (s : State) (f : ArrayState → ArrayState) : (s.modA f).memPoison = s.memPoison := rfl
@[simp] theorem State.modA_upsets (s : State) (f : ArrayState → ArrayState) : (s.modA f).upsets = s.upsets := rfl
@[simp] theorem State.modA_residues (s : State) (f : ArrayState → ArrayState) : (s.modA f).residues = s.residues := rfl
@[simp] theorem State.modA_cached (s : State) (f : ArrayState → ArrayState) : (s.modA f).cached = s.cached := rfl
@[simp] theorem State.modA_walkCache (s : State) (f : ArrayState → ArrayState) : (s.modA f).walkCache = s.walkCache := rfl
@[simp] theorem State.modA_openRmws (s : State) (f : ArrayState → ArrayState) : (s.modA f).openRmws = s.openRmws := rfl
@[simp] theorem State.modA_recalled (s : State) (f : ArrayState → ArrayState) : (s.modA f).recalled = s.recalled := rfl
@[simp] theorem State.modA_flights (s : State) (f : ArrayState → ArrayState) : (s.modA f).flights = s.flights := rfl
@[simp] theorem State.modA_cclk (s : State) (f : ArrayState → ArrayState) : (s.modA f).cclk = s.cclk := rfl
@[simp] theorem State.modA_pclk (s : State) (f : ArrayState → ArrayState) : (s.modA f).pclk = s.pclk := rfl
@[simp] theorem State.modA_unpublished (s : State) (f : ArrayState → ArrayState) : (s.modA f).unpublished = s.unpublished := rfl
@[simp] theorem State.modA_turn (s : State) (f : ArrayState → ArrayState) : (s.modA f).turn = s.turn := rfl
@[simp] theorem State.modA_dir (s : State) (f : ArrayState → ArrayState) : (s.modA f).dir = s.dir := rfl
@[simp] theorem State.modA_autoQ (s : State) (f : ArrayState → ArrayState) : (s.modA f).autoQ = s.autoQ := rfl
@[simp] theorem State.modA_snaps (s : State) (f : ArrayState → ArrayState) : (s.modA f).snaps = s.snaps := rfl
@[simp] theorem State.modA_txs (s : State) (f : ArrayState → ArrayState) : (s.modA f).txs = s.txs := rfl
@[simp] theorem State.modA_colfreed (s : State) (f : ArrayState → ArrayState) : (s.modA f).colfreed = s.colfreed := rfl
@[simp] theorem State.modA_colst (s : State) (f : ArrayState → ArrayState) : (s.modA f).colst = s.colst := rfl
@[simp] theorem State.modA_lrsz (s : State) (f : ArrayState → ArrayState) : (s.modA f).lrsz = s.lrsz := rfl
@[simp] theorem State.modA_dirRoom (s : State) (f : ArrayState → ArrayState) : (s.modA f).dirRoom = s.dirRoom := rfl
@[simp] theorem State.modA_tenants (s : State) (f : ArrayState → ArrayState) : (s.modA f).tenants = s.tenants := rfl
@[simp] theorem State.modA_fqOver (s : State) (f : ArrayState → ArrayState) : (s.modA f).fqOver = s.fqOver := rfl
@[simp] theorem State.modA_watchQ (s : State) (f : ArrayState → ArrayState) : (s.modA f).watchQ = s.watchQ := rfl
@[simp] theorem State.modA_queues (s : State) (f : ArrayState → ArrayState) : (s.modA f).queues = s.queues := rfl
@[simp] theorem State.modA_launches (s : State) (f : ArrayState → ArrayState) : (s.modA f).launches = s.launches := rfl
@[simp] theorem State.modA_nextLid (s : State) (f : ArrayState → ArrayState) : (s.modA f).nextLid = s.nextLid := rfl
@[simp] theorem State.modA_nextOrder (s : State) (f : ArrayState → ArrayState) : (s.modA f).nextOrder = s.nextOrder := rfl
@[simp] theorem State.modA_copies (s : State) (f : ArrayState → ArrayState) : (s.modA f).copies = s.copies := rfl
@[simp] theorem State.modA_colls (s : State) (f : ArrayState → ArrayState) : (s.modA f).colls = s.colls := rfl
@[simp] theorem State.modA_mca (s : State) (f : ArrayState → ArrayState) : (s.modA f).mca = s.mca := rfl
@[simp] theorem State.modA_hwpa (s : State) (f : ArrayState → ArrayState) : (s.modA f).hwpa = s.hwpa := rfl
@[simp] theorem State.modA_hwpc (s : State) (f : ArrayState → ArrayState) : (s.modA f).hwpc = s.hwpc := rfl
@[simp] theorem State.modA_device (s : State) (f : ArrayState → ArrayState) : (s.modA f).device = s.device := rfl
@[simp] theorem State.modA_route (s : State) (f : ArrayState → ArrayState) : (s.modA f).route = s.route := rfl
@[simp] theorem State.modA_ports (s : State) (f : ArrayState → ArrayState) : (s.modA f).ports = s.ports := rfl
@[simp] theorem State.modA_peerReqs (s : State) (f : ArrayState → ArrayState) : (s.modA f).peerReqs = s.peerReqs := rfl
@[simp] theorem State.modA_discard (s : State) (f : ArrayState → ArrayState) : (s.modA f).discard = s.discard := rfl
@[simp] theorem State.modA_relays (s : State) (f : ArrayState → ArrayState) : (s.modA f).relays = s.relays := rfl
@[simp] theorem State.modA_mgmt (s : State) (f : ArrayState → ArrayState) : (s.modA f).mgmt = s.mgmt := rfl
@[simp] theorem State.modA_outbox (s : State) (f : ArrayState → ArrayState) : (s.modA f).outbox = s.outbox := rfl

/-! ### `send` -/

@[simp] theorem State.send_agenda (s : State) (m : Message) : (s.send m).agenda = s.agenda := rfl
@[simp] theorem State.send_arg (s : State) (m : Message) : (s.send m).arg = s.arg := rfl
@[simp] theorem State.send_env (s : State) (m : Message) : (s.send m).env = s.env := rfl
@[simp] theorem State.send_issue (s : State) (m : Message) : (s.send m).issue = s.issue := rfl
@[simp] theorem State.send_draws (s : State) (m : Message) : (s.send m).draws = s.draws := rfl
@[simp] theorem State.send_stepping (s : State) (m : Message) : (s.send m).stepping = s.stepping := rfl
@[simp] theorem State.send_halted (s : State) (m : Message) : (s.send m).halted = s.halted := rfl
@[simp] theorem State.send_cur (s : State) (m : Message) : (s.send m).cur = s.cur := rfl
@[simp] theorem State.send_ctx (s : State) (m : Message) : (s.send m).ctx = s.ctx := rfl
@[simp] theorem State.send_core (s : State) (m : Message) : (s.send m).core = s.core := rfl
@[simp] theorem State.send_clu (s : State) (m : Message) : (s.send m).clu = s.clu := rfl
@[simp] theorem State.send_ctxs (s : State) (m : Message) : (s.send m).ctxs = s.ctxs := rfl
@[simp] theorem State.send_cores (s : State) (m : Message) : (s.send m).cores = s.cores := rfl
@[simp] theorem State.send_clus (s : State) (m : Message) : (s.send m).clus = s.clus := rfl
@[simp] theorem State.send_mem (s : State) (m : Message) : (s.send m).mem = s.mem := rfl
@[simp] theorem State.send_memPoison (s : State) (m : Message) : (s.send m).memPoison = s.memPoison := rfl
@[simp] theorem State.send_upsets (s : State) (m : Message) : (s.send m).upsets = s.upsets := rfl
@[simp] theorem State.send_residues (s : State) (m : Message) : (s.send m).residues = s.residues := rfl
@[simp] theorem State.send_cached (s : State) (m : Message) : (s.send m).cached = s.cached := rfl
@[simp] theorem State.send_walkCache (s : State) (m : Message) : (s.send m).walkCache = s.walkCache := rfl
@[simp] theorem State.send_openRmws (s : State) (m : Message) : (s.send m).openRmws = s.openRmws := rfl
@[simp] theorem State.send_recalled (s : State) (m : Message) : (s.send m).recalled = s.recalled := rfl
@[simp] theorem State.send_flights (s : State) (m : Message) : (s.send m).flights = s.flights := rfl
@[simp] theorem State.send_cclk (s : State) (m : Message) : (s.send m).cclk = s.cclk := rfl
@[simp] theorem State.send_pclk (s : State) (m : Message) : (s.send m).pclk = s.pclk := rfl
@[simp] theorem State.send_unpublished (s : State) (m : Message) : (s.send m).unpublished = s.unpublished := rfl
@[simp] theorem State.send_turn (s : State) (m : Message) : (s.send m).turn = s.turn := rfl
@[simp] theorem State.send_dir (s : State) (m : Message) : (s.send m).dir = s.dir := rfl
@[simp] theorem State.send_autoQ (s : State) (m : Message) : (s.send m).autoQ = s.autoQ := rfl
@[simp] theorem State.send_snaps (s : State) (m : Message) : (s.send m).snaps = s.snaps := rfl
@[simp] theorem State.send_txs (s : State) (m : Message) : (s.send m).txs = s.txs := rfl
@[simp] theorem State.send_colfreed (s : State) (m : Message) : (s.send m).colfreed = s.colfreed := rfl
@[simp] theorem State.send_colst (s : State) (m : Message) : (s.send m).colst = s.colst := rfl
@[simp] theorem State.send_lrsz (s : State) (m : Message) : (s.send m).lrsz = s.lrsz := rfl
@[simp] theorem State.send_dirRoom (s : State) (m : Message) : (s.send m).dirRoom = s.dirRoom := rfl
@[simp] theorem State.send_tenants (s : State) (m : Message) : (s.send m).tenants = s.tenants := rfl
@[simp] theorem State.send_fqOver (s : State) (m : Message) : (s.send m).fqOver = s.fqOver := rfl
@[simp] theorem State.send_watchQ (s : State) (m : Message) : (s.send m).watchQ = s.watchQ := rfl
@[simp] theorem State.send_queues (s : State) (m : Message) : (s.send m).queues = s.queues := rfl
@[simp] theorem State.send_launches (s : State) (m : Message) : (s.send m).launches = s.launches := rfl
@[simp] theorem State.send_nextLid (s : State) (m : Message) : (s.send m).nextLid = s.nextLid := rfl
@[simp] theorem State.send_nextOrder (s : State) (m : Message) : (s.send m).nextOrder = s.nextOrder := rfl
@[simp] theorem State.send_copies (s : State) (m : Message) : (s.send m).copies = s.copies := rfl
@[simp] theorem State.send_colls (s : State) (m : Message) : (s.send m).colls = s.colls := rfl
@[simp] theorem State.send_mca (s : State) (m : Message) : (s.send m).mca = s.mca := rfl
@[simp] theorem State.send_hwpa (s : State) (m : Message) : (s.send m).hwpa = s.hwpa := rfl
@[simp] theorem State.send_hwpc (s : State) (m : Message) : (s.send m).hwpc = s.hwpc := rfl
@[simp] theorem State.send_device (s : State) (m : Message) : (s.send m).device = s.device := rfl
@[simp] theorem State.send_route (s : State) (m : Message) : (s.send m).route = s.route := rfl
@[simp] theorem State.send_ports (s : State) (m : Message) : (s.send m).ports = s.ports := rfl
@[simp] theorem State.send_peerReqs (s : State) (m : Message) : (s.send m).peerReqs = s.peerReqs := rfl
@[simp] theorem State.send_discard (s : State) (m : Message) : (s.send m).discard = s.discard := rfl
@[simp] theorem State.send_relays (s : State) (m : Message) : (s.send m).relays = s.relays := rfl
@[simp] theorem State.send_mgmt (s : State) (m : Message) : (s.send m).mgmt = s.mgmt := rfl
@[simp] theorem State.send_outbox (s : State) (m : Message) :
    (s.send m).outbox = s.outbox ++ [m] := rfl

/-! ### `owe` -/

@[simp] theorem State.owe_agenda (s : State) (r : Result) : (s.owe r).agenda = s.agenda := rfl
@[simp] theorem State.owe_arg (s : State) (r : Result) : (s.owe r).arg = s.arg := rfl
@[simp] theorem State.owe_env (s : State) (r : Result) : (s.owe r).env = s.env := rfl
@[simp] theorem State.owe_issue (s : State) (r : Result) : (s.owe r).issue = s.issue := rfl
@[simp] theorem State.owe_draws (s : State) (r : Result) : (s.owe r).draws = s.draws := rfl
@[simp] theorem State.owe_stepping (s : State) (r : Result) : (s.owe r).stepping = s.stepping := rfl
@[simp] theorem State.owe_halted (s : State) (r : Result) : (s.owe r).halted = s.halted := rfl
@[simp] theorem State.owe_cur (s : State) (r : Result) : (s.owe r).cur = s.cur := rfl
@[simp] theorem State.owe_ctx (s : State) (r : Result) :
    (s.owe r).ctx = { s.ctx with q := { s.ctx.q with results := s.ctx.q.results ++ [r] } } := rfl
@[simp] theorem State.owe_core (s : State) (r : Result) : (s.owe r).core = s.core := rfl
@[simp] theorem State.owe_clu (s : State) (r : Result) : (s.owe r).clu = s.clu := rfl
@[simp] theorem State.owe_ctxs (s : State) (r : Result) : (s.owe r).ctxs = s.ctxs := rfl
@[simp] theorem State.owe_cores (s : State) (r : Result) : (s.owe r).cores = s.cores := rfl
@[simp] theorem State.owe_clus (s : State) (r : Result) : (s.owe r).clus = s.clus := rfl
@[simp] theorem State.owe_mem (s : State) (r : Result) : (s.owe r).mem = s.mem := rfl
@[simp] theorem State.owe_memPoison (s : State) (r : Result) : (s.owe r).memPoison = s.memPoison := rfl
@[simp] theorem State.owe_upsets (s : State) (r : Result) : (s.owe r).upsets = s.upsets := rfl
@[simp] theorem State.owe_residues (s : State) (r : Result) : (s.owe r).residues = s.residues := rfl
@[simp] theorem State.owe_cached (s : State) (r : Result) : (s.owe r).cached = s.cached := rfl
@[simp] theorem State.owe_walkCache (s : State) (r : Result) : (s.owe r).walkCache = s.walkCache := rfl
@[simp] theorem State.owe_openRmws (s : State) (r : Result) : (s.owe r).openRmws = s.openRmws := rfl
@[simp] theorem State.owe_recalled (s : State) (r : Result) : (s.owe r).recalled = s.recalled := rfl
@[simp] theorem State.owe_flights (s : State) (r : Result) : (s.owe r).flights = s.flights := rfl
@[simp] theorem State.owe_cclk (s : State) (r : Result) : (s.owe r).cclk = s.cclk := rfl
@[simp] theorem State.owe_pclk (s : State) (r : Result) : (s.owe r).pclk = s.pclk := rfl
@[simp] theorem State.owe_unpublished (s : State) (r : Result) : (s.owe r).unpublished = s.unpublished := rfl
@[simp] theorem State.owe_turn (s : State) (r : Result) : (s.owe r).turn = s.turn := rfl
@[simp] theorem State.owe_dir (s : State) (r : Result) : (s.owe r).dir = s.dir := rfl
@[simp] theorem State.owe_autoQ (s : State) (r : Result) : (s.owe r).autoQ = s.autoQ := rfl
@[simp] theorem State.owe_snaps (s : State) (r : Result) : (s.owe r).snaps = s.snaps := rfl
@[simp] theorem State.owe_txs (s : State) (r : Result) : (s.owe r).txs = s.txs := rfl
@[simp] theorem State.owe_colfreed (s : State) (r : Result) : (s.owe r).colfreed = s.colfreed := rfl
@[simp] theorem State.owe_colst (s : State) (r : Result) : (s.owe r).colst = s.colst := rfl
@[simp] theorem State.owe_lrsz (s : State) (r : Result) : (s.owe r).lrsz = s.lrsz := rfl
@[simp] theorem State.owe_dirRoom (s : State) (r : Result) : (s.owe r).dirRoom = s.dirRoom := rfl
@[simp] theorem State.owe_tenants (s : State) (r : Result) : (s.owe r).tenants = s.tenants := rfl
@[simp] theorem State.owe_fqOver (s : State) (r : Result) : (s.owe r).fqOver = s.fqOver := rfl
@[simp] theorem State.owe_watchQ (s : State) (r : Result) : (s.owe r).watchQ = s.watchQ := rfl
@[simp] theorem State.owe_queues (s : State) (r : Result) : (s.owe r).queues = s.queues := rfl
@[simp] theorem State.owe_launches (s : State) (r : Result) : (s.owe r).launches = s.launches := rfl
@[simp] theorem State.owe_nextLid (s : State) (r : Result) : (s.owe r).nextLid = s.nextLid := rfl
@[simp] theorem State.owe_nextOrder (s : State) (r : Result) : (s.owe r).nextOrder = s.nextOrder := rfl
@[simp] theorem State.owe_copies (s : State) (r : Result) : (s.owe r).copies = s.copies := rfl
@[simp] theorem State.owe_colls (s : State) (r : Result) : (s.owe r).colls = s.colls := rfl
@[simp] theorem State.owe_mca (s : State) (r : Result) : (s.owe r).mca = s.mca := rfl
@[simp] theorem State.owe_hwpa (s : State) (r : Result) : (s.owe r).hwpa = s.hwpa := rfl
@[simp] theorem State.owe_hwpc (s : State) (r : Result) : (s.owe r).hwpc = s.hwpc := rfl
@[simp] theorem State.owe_device (s : State) (r : Result) : (s.owe r).device = s.device := rfl
@[simp] theorem State.owe_route (s : State) (r : Result) : (s.owe r).route = s.route := rfl
@[simp] theorem State.owe_ports (s : State) (r : Result) : (s.owe r).ports = s.ports := rfl
@[simp] theorem State.owe_peerReqs (s : State) (r : Result) : (s.owe r).peerReqs = s.peerReqs := rfl
@[simp] theorem State.owe_discard (s : State) (r : Result) : (s.owe r).discard = s.discard := rfl
@[simp] theorem State.owe_relays (s : State) (r : Result) : (s.owe r).relays = s.relays := rfl
@[simp] theorem State.owe_mgmt (s : State) (r : Result) : (s.owe r).mgmt = s.mgmt := rfl
@[simp] theorem State.owe_outbox (s : State) (r : Result) : (s.owe r).outbox = s.outbox := rfl

/-! ### `writeR` -/

@[simp] theorem State.writeR_agenda (s : State) (x : Result) : (s.writeR x).agenda = s.agenda := rfl
@[simp] theorem State.writeR_arg (s : State) (x : Result) : (s.writeR x).arg = s.arg := rfl
@[simp] theorem State.writeR_env (s : State) (x : Result) : (s.writeR x).env = s.env := rfl
@[simp] theorem State.writeR_issue (s : State) (x : Result) : (s.writeR x).issue = s.issue := rfl
@[simp] theorem State.writeR_draws (s : State) (x : Result) : (s.writeR x).draws = s.draws := rfl
@[simp] theorem State.writeR_stepping (s : State) (x : Result) : (s.writeR x).stepping = s.stepping := rfl
@[simp] theorem State.writeR_halted (s : State) (x : Result) : (s.writeR x).halted = s.halted := rfl
@[simp] theorem State.writeR_cur (s : State) (x : Result) : (s.writeR x).cur = s.cur := rfl
@[simp] theorem State.writeR_core (s : State) (x : Result) : (s.writeR x).core = s.core := rfl
@[simp] theorem State.writeR_clu (s : State) (x : Result) : (s.writeR x).clu = s.clu := rfl
@[simp] theorem State.writeR_ctxs (s : State) (x : Result) : (s.writeR x).ctxs = s.ctxs := rfl
@[simp] theorem State.writeR_cores (s : State) (x : Result) : (s.writeR x).cores = s.cores := rfl
@[simp] theorem State.writeR_clus (s : State) (x : Result) : (s.writeR x).clus = s.clus := rfl
@[simp] theorem State.writeR_mem (s : State) (x : Result) : (s.writeR x).mem = s.mem := rfl
@[simp] theorem State.writeR_memPoison (s : State) (x : Result) : (s.writeR x).memPoison = s.memPoison := rfl
@[simp] theorem State.writeR_upsets (s : State) (x : Result) : (s.writeR x).upsets = s.upsets := rfl
@[simp] theorem State.writeR_residues (s : State) (x : Result) : (s.writeR x).residues = s.residues := rfl
@[simp] theorem State.writeR_cached (s : State) (x : Result) : (s.writeR x).cached = s.cached := rfl
@[simp] theorem State.writeR_walkCache (s : State) (x : Result) : (s.writeR x).walkCache = s.walkCache := rfl
@[simp] theorem State.writeR_openRmws (s : State) (x : Result) : (s.writeR x).openRmws = s.openRmws := rfl
@[simp] theorem State.writeR_recalled (s : State) (x : Result) : (s.writeR x).recalled = s.recalled := rfl
@[simp] theorem State.writeR_flights (s : State) (x : Result) : (s.writeR x).flights = s.flights := rfl
@[simp] theorem State.writeR_cclk (s : State) (x : Result) : (s.writeR x).cclk = s.cclk := rfl
@[simp] theorem State.writeR_pclk (s : State) (x : Result) : (s.writeR x).pclk = s.pclk := rfl
@[simp] theorem State.writeR_unpublished (s : State) (x : Result) : (s.writeR x).unpublished = s.unpublished := rfl
@[simp] theorem State.writeR_turn (s : State) (x : Result) : (s.writeR x).turn = s.turn := rfl
@[simp] theorem State.writeR_dir (s : State) (x : Result) : (s.writeR x).dir = s.dir := rfl
@[simp] theorem State.writeR_autoQ (s : State) (x : Result) : (s.writeR x).autoQ = s.autoQ := rfl
@[simp] theorem State.writeR_snaps (s : State) (x : Result) : (s.writeR x).snaps = s.snaps := rfl
@[simp] theorem State.writeR_txs (s : State) (x : Result) : (s.writeR x).txs = s.txs := rfl
@[simp] theorem State.writeR_colfreed (s : State) (x : Result) : (s.writeR x).colfreed = s.colfreed := rfl
@[simp] theorem State.writeR_colst (s : State) (x : Result) : (s.writeR x).colst = s.colst := rfl
@[simp] theorem State.writeR_lrsz (s : State) (x : Result) : (s.writeR x).lrsz = s.lrsz := rfl
@[simp] theorem State.writeR_dirRoom (s : State) (x : Result) : (s.writeR x).dirRoom = s.dirRoom := rfl
@[simp] theorem State.writeR_tenants (s : State) (x : Result) : (s.writeR x).tenants = s.tenants := rfl
@[simp] theorem State.writeR_fqOver (s : State) (x : Result) : (s.writeR x).fqOver = s.fqOver := rfl
@[simp] theorem State.writeR_watchQ (s : State) (x : Result) : (s.writeR x).watchQ = s.watchQ := rfl
@[simp] theorem State.writeR_queues (s : State) (x : Result) : (s.writeR x).queues = s.queues := rfl
@[simp] theorem State.writeR_launches (s : State) (x : Result) : (s.writeR x).launches = s.launches := rfl
@[simp] theorem State.writeR_nextLid (s : State) (x : Result) : (s.writeR x).nextLid = s.nextLid := rfl
@[simp] theorem State.writeR_nextOrder (s : State) (x : Result) : (s.writeR x).nextOrder = s.nextOrder := rfl
@[simp] theorem State.writeR_copies (s : State) (x : Result) : (s.writeR x).copies = s.copies := rfl
@[simp] theorem State.writeR_colls (s : State) (x : Result) : (s.writeR x).colls = s.colls := rfl
@[simp] theorem State.writeR_mca (s : State) (x : Result) : (s.writeR x).mca = s.mca := rfl
@[simp] theorem State.writeR_hwpa (s : State) (x : Result) : (s.writeR x).hwpa = s.hwpa := rfl
@[simp] theorem State.writeR_hwpc (s : State) (x : Result) : (s.writeR x).hwpc = s.hwpc := rfl
@[simp] theorem State.writeR_device (s : State) (x : Result) : (s.writeR x).device = s.device := rfl
@[simp] theorem State.writeR_route (s : State) (x : Result) : (s.writeR x).route = s.route := rfl
@[simp] theorem State.writeR_ports (s : State) (x : Result) : (s.writeR x).ports = s.ports := rfl
@[simp] theorem State.writeR_peerReqs (s : State) (x : Result) : (s.writeR x).peerReqs = s.peerReqs := rfl
@[simp] theorem State.writeR_discard (s : State) (x : Result) : (s.writeR x).discard = s.discard := rfl
@[simp] theorem State.writeR_relays (s : State) (x : Result) : (s.writeR x).relays = s.relays := rfl
@[simp] theorem State.writeR_mgmt (s : State) (x : Result) : (s.writeR x).mgmt = s.mgmt := rfl
@[simp] theorem State.writeR_outbox (s : State) (x : Result) : (s.writeR x).outbox = s.outbox := rfl

/-! ### `setLine` -/

@[simp] theorem State.setLine_agenda (s : State) (l : Nat) (e : LineEntry) : (s.setLine l e).agenda = s.agenda := rfl
@[simp] theorem State.setLine_arg (s : State) (l : Nat) (e : LineEntry) : (s.setLine l e).arg = s.arg := rfl
@[simp] theorem State.setLine_env (s : State) (l : Nat) (e : LineEntry) : (s.setLine l e).env = s.env := rfl
@[simp] theorem State.setLine_issue (s : State) (l : Nat) (e : LineEntry) : (s.setLine l e).issue = s.issue := rfl
@[simp] theorem State.setLine_draws (s : State) (l : Nat) (e : LineEntry) : (s.setLine l e).draws = s.draws := rfl
@[simp] theorem State.setLine_stepping (s : State) (l : Nat) (e : LineEntry) : (s.setLine l e).stepping = s.stepping := rfl
@[simp] theorem State.setLine_halted (s : State) (l : Nat) (e : LineEntry) : (s.setLine l e).halted = s.halted := rfl
@[simp] theorem State.setLine_cur (s : State) (l : Nat) (e : LineEntry) : (s.setLine l e).cur = s.cur := rfl
@[simp] theorem State.setLine_ctx (s : State) (l : Nat) (e : LineEntry) : (s.setLine l e).ctx = s.ctx := rfl
@[simp] theorem State.setLine_core (s : State) (l : Nat) (e : LineEntry) : (s.setLine l e).core = s.core := rfl
@[simp] theorem State.setLine_clu (s : State) (l : Nat) (e : LineEntry) : (s.setLine l e).clu = s.clu := rfl
@[simp] theorem State.setLine_ctxs (s : State) (l : Nat) (e : LineEntry) : (s.setLine l e).ctxs = s.ctxs := rfl
@[simp] theorem State.setLine_cores (s : State) (l : Nat) (e : LineEntry) : (s.setLine l e).cores = s.cores := rfl
@[simp] theorem State.setLine_clus (s : State) (l : Nat) (e : LineEntry) : (s.setLine l e).clus = s.clus := rfl
@[simp] theorem State.setLine_mem (s : State) (l : Nat) (e : LineEntry) : (s.setLine l e).mem = s.mem := rfl
@[simp] theorem State.setLine_memPoison (s : State) (l : Nat) (e : LineEntry) : (s.setLine l e).memPoison = s.memPoison := rfl
@[simp] theorem State.setLine_upsets (s : State) (l : Nat) (e : LineEntry) : (s.setLine l e).upsets = s.upsets := rfl
@[simp] theorem State.setLine_residues (s : State) (l : Nat) (e : LineEntry) : (s.setLine l e).residues = s.residues := rfl
@[simp] theorem State.setLine_cached (s : State) (l : Nat) (e : LineEntry) : (s.setLine l e).cached = s.cached := rfl
@[simp] theorem State.setLine_walkCache (s : State) (l : Nat) (e : LineEntry) : (s.setLine l e).walkCache = s.walkCache := rfl
@[simp] theorem State.setLine_openRmws (s : State) (l : Nat) (e : LineEntry) : (s.setLine l e).openRmws = s.openRmws := rfl
@[simp] theorem State.setLine_recalled (s : State) (l : Nat) (e : LineEntry) : (s.setLine l e).recalled = s.recalled := rfl
@[simp] theorem State.setLine_flights (s : State) (l : Nat) (e : LineEntry) : (s.setLine l e).flights = s.flights := rfl
@[simp] theorem State.setLine_cclk (s : State) (l : Nat) (e : LineEntry) : (s.setLine l e).cclk = s.cclk := rfl
@[simp] theorem State.setLine_pclk (s : State) (l : Nat) (e : LineEntry) : (s.setLine l e).pclk = s.pclk := rfl
@[simp] theorem State.setLine_unpublished (s : State) (l : Nat) (e : LineEntry) : (s.setLine l e).unpublished = s.unpublished := rfl
@[simp] theorem State.setLine_turn (s : State) (l : Nat) (e : LineEntry) : (s.setLine l e).turn = s.turn := rfl
@[simp] theorem State.setLine_dir (s : State) (l : Nat) (e : LineEntry) :
    (s.setLine l e).dir = NatMap.put s.dir l e := rfl
@[simp] theorem State.setLine_autoQ (s : State) (l : Nat) (e : LineEntry) : (s.setLine l e).autoQ = s.autoQ := rfl
@[simp] theorem State.setLine_snaps (s : State) (l : Nat) (e : LineEntry) : (s.setLine l e).snaps = s.snaps := rfl
@[simp] theorem State.setLine_txs (s : State) (l : Nat) (e : LineEntry) : (s.setLine l e).txs = s.txs := rfl
@[simp] theorem State.setLine_colfreed (s : State) (l : Nat) (e : LineEntry) : (s.setLine l e).colfreed = s.colfreed := rfl
@[simp] theorem State.setLine_colst (s : State) (l : Nat) (e : LineEntry) : (s.setLine l e).colst = s.colst := rfl
@[simp] theorem State.setLine_lrsz (s : State) (l : Nat) (e : LineEntry) : (s.setLine l e).lrsz = s.lrsz := rfl
@[simp] theorem State.setLine_dirRoom (s : State) (l : Nat) (e : LineEntry) : (s.setLine l e).dirRoom = s.dirRoom := rfl
@[simp] theorem State.setLine_tenants (s : State) (l : Nat) (e : LineEntry) : (s.setLine l e).tenants = s.tenants := rfl
@[simp] theorem State.setLine_fqOver (s : State) (l : Nat) (e : LineEntry) : (s.setLine l e).fqOver = s.fqOver := rfl
@[simp] theorem State.setLine_watchQ (s : State) (l : Nat) (e : LineEntry) : (s.setLine l e).watchQ = s.watchQ := rfl
@[simp] theorem State.setLine_queues (s : State) (l : Nat) (e : LineEntry) : (s.setLine l e).queues = s.queues := rfl
@[simp] theorem State.setLine_launches (s : State) (l : Nat) (e : LineEntry) : (s.setLine l e).launches = s.launches := rfl
@[simp] theorem State.setLine_nextLid (s : State) (l : Nat) (e : LineEntry) : (s.setLine l e).nextLid = s.nextLid := rfl
@[simp] theorem State.setLine_nextOrder (s : State) (l : Nat) (e : LineEntry) : (s.setLine l e).nextOrder = s.nextOrder := rfl
@[simp] theorem State.setLine_copies (s : State) (l : Nat) (e : LineEntry) : (s.setLine l e).copies = s.copies := rfl
@[simp] theorem State.setLine_colls (s : State) (l : Nat) (e : LineEntry) : (s.setLine l e).colls = s.colls := rfl
@[simp] theorem State.setLine_mca (s : State) (l : Nat) (e : LineEntry) : (s.setLine l e).mca = s.mca := rfl
@[simp] theorem State.setLine_hwpa (s : State) (l : Nat) (e : LineEntry) : (s.setLine l e).hwpa = s.hwpa := rfl
@[simp] theorem State.setLine_hwpc (s : State) (l : Nat) (e : LineEntry) : (s.setLine l e).hwpc = s.hwpc := rfl
@[simp] theorem State.setLine_device (s : State) (l : Nat) (e : LineEntry) : (s.setLine l e).device = s.device := rfl
@[simp] theorem State.setLine_route (s : State) (l : Nat) (e : LineEntry) : (s.setLine l e).route = s.route := rfl
@[simp] theorem State.setLine_ports (s : State) (l : Nat) (e : LineEntry) : (s.setLine l e).ports = s.ports := rfl
@[simp] theorem State.setLine_peerReqs (s : State) (l : Nat) (e : LineEntry) : (s.setLine l e).peerReqs = s.peerReqs := rfl
@[simp] theorem State.setLine_discard (s : State) (l : Nat) (e : LineEntry) : (s.setLine l e).discard = s.discard := rfl
@[simp] theorem State.setLine_relays (s : State) (l : Nat) (e : LineEntry) : (s.setLine l e).relays = s.relays := rfl
@[simp] theorem State.setLine_mgmt (s : State) (l : Nat) (e : LineEntry) : (s.setLine l e).mgmt = s.mgmt := rfl
@[simp] theorem State.setLine_outbox (s : State) (l : Nat) (e : LineEntry) : (s.setLine l e).outbox = s.outbox := rfl

/-! ### `set` -/

@[simp] theorem State.set_agenda (s : State) (n : Nat) (v : Word) : (s.set n v).agenda = s.agenda := rfl
@[simp] theorem State.set_arg (s : State) (n : Nat) (v : Word) : (s.set n v).arg = s.arg := rfl
@[simp] theorem State.set_env (s : State) (n : Nat) (v : Word) : (s.set n v).env = s.env := rfl
@[simp] theorem State.set_issue (s : State) (n : Nat) (v : Word) : (s.set n v).issue = s.issue := rfl
@[simp] theorem State.set_draws (s : State) (n : Nat) (v : Word) : (s.set n v).draws = s.draws := rfl
@[simp] theorem State.set_stepping (s : State) (n : Nat) (v : Word) : (s.set n v).stepping = s.stepping := rfl
@[simp] theorem State.set_halted (s : State) (n : Nat) (v : Word) : (s.set n v).halted = s.halted := rfl
@[simp] theorem State.set_cur (s : State) (n : Nat) (v : Word) : (s.set n v).cur = s.cur := rfl
@[simp] theorem State.set_ctx (s : State) (n : Nat) (v : Word) :
    (s.set n v).ctx = { s.ctx with settings := s.ctx.settings ++ [⟨n, v, settingDelay n⟩] } := rfl
@[simp] theorem State.set_core (s : State) (n : Nat) (v : Word) : (s.set n v).core = s.core := rfl
@[simp] theorem State.set_clu (s : State) (n : Nat) (v : Word) : (s.set n v).clu = s.clu := rfl
@[simp] theorem State.set_ctxs (s : State) (n : Nat) (v : Word) : (s.set n v).ctxs = s.ctxs := rfl
@[simp] theorem State.set_cores (s : State) (n : Nat) (v : Word) : (s.set n v).cores = s.cores := rfl
@[simp] theorem State.set_clus (s : State) (n : Nat) (v : Word) : (s.set n v).clus = s.clus := rfl
@[simp] theorem State.set_mem (s : State) (n : Nat) (v : Word) : (s.set n v).mem = s.mem := rfl
@[simp] theorem State.set_memPoison (s : State) (n : Nat) (v : Word) : (s.set n v).memPoison = s.memPoison := rfl
@[simp] theorem State.set_upsets (s : State) (n : Nat) (v : Word) : (s.set n v).upsets = s.upsets := rfl
@[simp] theorem State.set_residues (s : State) (n : Nat) (v : Word) : (s.set n v).residues = s.residues := rfl
@[simp] theorem State.set_cached (s : State) (n : Nat) (v : Word) : (s.set n v).cached = s.cached := rfl
@[simp] theorem State.set_walkCache (s : State) (n : Nat) (v : Word) : (s.set n v).walkCache = s.walkCache := rfl
@[simp] theorem State.set_openRmws (s : State) (n : Nat) (v : Word) : (s.set n v).openRmws = s.openRmws := rfl
@[simp] theorem State.set_recalled (s : State) (n : Nat) (v : Word) : (s.set n v).recalled = s.recalled := rfl
@[simp] theorem State.set_flights (s : State) (n : Nat) (v : Word) : (s.set n v).flights = s.flights := rfl
@[simp] theorem State.set_cclk (s : State) (n : Nat) (v : Word) : (s.set n v).cclk = s.cclk := rfl
@[simp] theorem State.set_pclk (s : State) (n : Nat) (v : Word) : (s.set n v).pclk = s.pclk := rfl
@[simp] theorem State.set_unpublished (s : State) (n : Nat) (v : Word) : (s.set n v).unpublished = s.unpublished := rfl
@[simp] theorem State.set_turn (s : State) (n : Nat) (v : Word) : (s.set n v).turn = s.turn := rfl
@[simp] theorem State.set_dir (s : State) (n : Nat) (v : Word) : (s.set n v).dir = s.dir := rfl
@[simp] theorem State.set_autoQ (s : State) (n : Nat) (v : Word) : (s.set n v).autoQ = s.autoQ := rfl
@[simp] theorem State.set_snaps (s : State) (n : Nat) (v : Word) : (s.set n v).snaps = s.snaps := rfl
@[simp] theorem State.set_txs (s : State) (n : Nat) (v : Word) : (s.set n v).txs = s.txs := rfl
@[simp] theorem State.set_colfreed (s : State) (n : Nat) (v : Word) : (s.set n v).colfreed = s.colfreed := rfl
@[simp] theorem State.set_colst (s : State) (n : Nat) (v : Word) : (s.set n v).colst = s.colst := rfl
@[simp] theorem State.set_lrsz (s : State) (n : Nat) (v : Word) : (s.set n v).lrsz = s.lrsz := rfl
@[simp] theorem State.set_dirRoom (s : State) (n : Nat) (v : Word) : (s.set n v).dirRoom = s.dirRoom := rfl
@[simp] theorem State.set_tenants (s : State) (n : Nat) (v : Word) : (s.set n v).tenants = s.tenants := rfl
@[simp] theorem State.set_fqOver (s : State) (n : Nat) (v : Word) : (s.set n v).fqOver = s.fqOver := rfl
@[simp] theorem State.set_watchQ (s : State) (n : Nat) (v : Word) : (s.set n v).watchQ = s.watchQ := rfl
@[simp] theorem State.set_queues (s : State) (n : Nat) (v : Word) : (s.set n v).queues = s.queues := rfl
@[simp] theorem State.set_launches (s : State) (n : Nat) (v : Word) : (s.set n v).launches = s.launches := rfl
@[simp] theorem State.set_nextLid (s : State) (n : Nat) (v : Word) : (s.set n v).nextLid = s.nextLid := rfl
@[simp] theorem State.set_nextOrder (s : State) (n : Nat) (v : Word) : (s.set n v).nextOrder = s.nextOrder := rfl
@[simp] theorem State.set_copies (s : State) (n : Nat) (v : Word) : (s.set n v).copies = s.copies := rfl
@[simp] theorem State.set_colls (s : State) (n : Nat) (v : Word) : (s.set n v).colls = s.colls := rfl
@[simp] theorem State.set_mca (s : State) (n : Nat) (v : Word) : (s.set n v).mca = s.mca := rfl
@[simp] theorem State.set_hwpa (s : State) (n : Nat) (v : Word) : (s.set n v).hwpa = s.hwpa := rfl
@[simp] theorem State.set_hwpc (s : State) (n : Nat) (v : Word) : (s.set n v).hwpc = s.hwpc := rfl
@[simp] theorem State.set_device (s : State) (n : Nat) (v : Word) : (s.set n v).device = s.device := rfl
@[simp] theorem State.set_route (s : State) (n : Nat) (v : Word) : (s.set n v).route = s.route := rfl
@[simp] theorem State.set_ports (s : State) (n : Nat) (v : Word) : (s.set n v).ports = s.ports := rfl
@[simp] theorem State.set_peerReqs (s : State) (n : Nat) (v : Word) : (s.set n v).peerReqs = s.peerReqs := rfl
@[simp] theorem State.set_discard (s : State) (n : Nat) (v : Word) : (s.set n v).discard = s.discard := rfl
@[simp] theorem State.set_relays (s : State) (n : Nat) (v : Word) : (s.set n v).relays = s.relays := rfl
@[simp] theorem State.set_mgmt (s : State) (n : Nat) (v : Word) : (s.set n v).mgmt = s.mgmt := rfl
@[simp] theorem State.set_outbox (s : State) (n : Nat) (v : Word) : (s.set n v).outbox = s.outbox := rfl

/-! ### `setQueue` -/

@[simp] theorem State.setQueue_agenda (s : State) (q : Nat) (w : WQueue) : (s.setQueue q w).agenda = s.agenda := rfl
@[simp] theorem State.setQueue_arg (s : State) (q : Nat) (w : WQueue) : (s.setQueue q w).arg = s.arg := rfl
@[simp] theorem State.setQueue_env (s : State) (q : Nat) (w : WQueue) : (s.setQueue q w).env = s.env := rfl
@[simp] theorem State.setQueue_issue (s : State) (q : Nat) (w : WQueue) : (s.setQueue q w).issue = s.issue := rfl
@[simp] theorem State.setQueue_draws (s : State) (q : Nat) (w : WQueue) : (s.setQueue q w).draws = s.draws := rfl
@[simp] theorem State.setQueue_stepping (s : State) (q : Nat) (w : WQueue) : (s.setQueue q w).stepping = s.stepping := rfl
@[simp] theorem State.setQueue_halted (s : State) (q : Nat) (w : WQueue) : (s.setQueue q w).halted = s.halted := rfl
@[simp] theorem State.setQueue_cur (s : State) (q : Nat) (w : WQueue) : (s.setQueue q w).cur = s.cur := rfl
@[simp] theorem State.setQueue_ctx (s : State) (q : Nat) (w : WQueue) : (s.setQueue q w).ctx = s.ctx := rfl
@[simp] theorem State.setQueue_core (s : State) (q : Nat) (w : WQueue) : (s.setQueue q w).core = s.core := rfl
@[simp] theorem State.setQueue_clu (s : State) (q : Nat) (w : WQueue) : (s.setQueue q w).clu = s.clu := rfl
@[simp] theorem State.setQueue_ctxs (s : State) (q : Nat) (w : WQueue) : (s.setQueue q w).ctxs = s.ctxs := rfl
@[simp] theorem State.setQueue_cores (s : State) (q : Nat) (w : WQueue) : (s.setQueue q w).cores = s.cores := rfl
@[simp] theorem State.setQueue_clus (s : State) (q : Nat) (w : WQueue) : (s.setQueue q w).clus = s.clus := rfl
@[simp] theorem State.setQueue_mem (s : State) (q : Nat) (w : WQueue) : (s.setQueue q w).mem = s.mem := rfl
@[simp] theorem State.setQueue_memPoison (s : State) (q : Nat) (w : WQueue) : (s.setQueue q w).memPoison = s.memPoison := rfl
@[simp] theorem State.setQueue_upsets (s : State) (q : Nat) (w : WQueue) : (s.setQueue q w).upsets = s.upsets := rfl
@[simp] theorem State.setQueue_residues (s : State) (q : Nat) (w : WQueue) : (s.setQueue q w).residues = s.residues := rfl
@[simp] theorem State.setQueue_cached (s : State) (q : Nat) (w : WQueue) : (s.setQueue q w).cached = s.cached := rfl
@[simp] theorem State.setQueue_walkCache (s : State) (q : Nat) (w : WQueue) : (s.setQueue q w).walkCache = s.walkCache := rfl
@[simp] theorem State.setQueue_openRmws (s : State) (q : Nat) (w : WQueue) : (s.setQueue q w).openRmws = s.openRmws := rfl
@[simp] theorem State.setQueue_recalled (s : State) (q : Nat) (w : WQueue) : (s.setQueue q w).recalled = s.recalled := rfl
@[simp] theorem State.setQueue_flights (s : State) (q : Nat) (w : WQueue) : (s.setQueue q w).flights = s.flights := rfl
@[simp] theorem State.setQueue_cclk (s : State) (q : Nat) (w : WQueue) : (s.setQueue q w).cclk = s.cclk := rfl
@[simp] theorem State.setQueue_pclk (s : State) (q : Nat) (w : WQueue) : (s.setQueue q w).pclk = s.pclk := rfl
@[simp] theorem State.setQueue_unpublished (s : State) (q : Nat) (w : WQueue) : (s.setQueue q w).unpublished = s.unpublished := rfl
@[simp] theorem State.setQueue_turn (s : State) (q : Nat) (w : WQueue) : (s.setQueue q w).turn = s.turn := rfl
@[simp] theorem State.setQueue_dir (s : State) (q : Nat) (w : WQueue) : (s.setQueue q w).dir = s.dir := rfl
@[simp] theorem State.setQueue_autoQ (s : State) (q : Nat) (w : WQueue) : (s.setQueue q w).autoQ = s.autoQ := rfl
@[simp] theorem State.setQueue_snaps (s : State) (q : Nat) (w : WQueue) : (s.setQueue q w).snaps = s.snaps := rfl
@[simp] theorem State.setQueue_txs (s : State) (q : Nat) (w : WQueue) : (s.setQueue q w).txs = s.txs := rfl
@[simp] theorem State.setQueue_colfreed (s : State) (q : Nat) (w : WQueue) : (s.setQueue q w).colfreed = s.colfreed := rfl
@[simp] theorem State.setQueue_colst (s : State) (q : Nat) (w : WQueue) : (s.setQueue q w).colst = s.colst := rfl
@[simp] theorem State.setQueue_lrsz (s : State) (q : Nat) (w : WQueue) : (s.setQueue q w).lrsz = s.lrsz := rfl
@[simp] theorem State.setQueue_dirRoom (s : State) (q : Nat) (w : WQueue) : (s.setQueue q w).dirRoom = s.dirRoom := rfl
@[simp] theorem State.setQueue_tenants (s : State) (q : Nat) (w : WQueue) : (s.setQueue q w).tenants = s.tenants := rfl
@[simp] theorem State.setQueue_fqOver (s : State) (q : Nat) (w : WQueue) : (s.setQueue q w).fqOver = s.fqOver := rfl
@[simp] theorem State.setQueue_watchQ (s : State) (q : Nat) (w : WQueue) : (s.setQueue q w).watchQ = s.watchQ := rfl
@[simp] theorem State.setQueue_queues (s : State) (q : Nat) (w : WQueue) : (s.setQueue q w).queues = NatMap.set .reset s.queues q w := rfl
@[simp] theorem State.setQueue_launches (s : State) (q : Nat) (w : WQueue) : (s.setQueue q w).launches = s.launches := rfl
@[simp] theorem State.setQueue_nextLid (s : State) (q : Nat) (w : WQueue) : (s.setQueue q w).nextLid = s.nextLid := rfl
@[simp] theorem State.setQueue_nextOrder (s : State) (q : Nat) (w : WQueue) : (s.setQueue q w).nextOrder = s.nextOrder := rfl
@[simp] theorem State.setQueue_copies (s : State) (q : Nat) (w : WQueue) : (s.setQueue q w).copies = s.copies := rfl
@[simp] theorem State.setQueue_colls (s : State) (q : Nat) (w : WQueue) : (s.setQueue q w).colls = s.colls := rfl
@[simp] theorem State.setQueue_mca (s : State) (q : Nat) (w : WQueue) : (s.setQueue q w).mca = s.mca := rfl
@[simp] theorem State.setQueue_hwpa (s : State) (q : Nat) (w : WQueue) : (s.setQueue q w).hwpa = s.hwpa := rfl
@[simp] theorem State.setQueue_hwpc (s : State) (q : Nat) (w : WQueue) : (s.setQueue q w).hwpc = s.hwpc := rfl
@[simp] theorem State.setQueue_device (s : State) (q : Nat) (w : WQueue) : (s.setQueue q w).device = s.device := rfl
@[simp] theorem State.setQueue_route (s : State) (q : Nat) (w : WQueue) : (s.setQueue q w).route = s.route := rfl
@[simp] theorem State.setQueue_ports (s : State) (q : Nat) (w : WQueue) : (s.setQueue q w).ports = s.ports := rfl
@[simp] theorem State.setQueue_peerReqs (s : State) (q : Nat) (w : WQueue) : (s.setQueue q w).peerReqs = s.peerReqs := rfl
@[simp] theorem State.setQueue_discard (s : State) (q : Nat) (w : WQueue) : (s.setQueue q w).discard = s.discard := rfl
@[simp] theorem State.setQueue_relays (s : State) (q : Nat) (w : WQueue) : (s.setQueue q w).relays = s.relays := rfl
@[simp] theorem State.setQueue_mgmt (s : State) (q : Nat) (w : WQueue) : (s.setQueue q w).mgmt = s.mgmt := rfl
@[simp] theorem State.setQueue_outbox (s : State) (q : Nat) (w : WQueue) : (s.setQueue q w).outbox = s.outbox := rfl

/-! ### `setTenant` -/

@[simp] theorem State.setTenant_agenda (s : State) (t : Nat) (n : Tenant) : (s.setTenant t n).agenda = s.agenda := rfl
@[simp] theorem State.setTenant_arg (s : State) (t : Nat) (n : Tenant) : (s.setTenant t n).arg = s.arg := rfl
@[simp] theorem State.setTenant_env (s : State) (t : Nat) (n : Tenant) : (s.setTenant t n).env = s.env := rfl
@[simp] theorem State.setTenant_issue (s : State) (t : Nat) (n : Tenant) : (s.setTenant t n).issue = s.issue := rfl
@[simp] theorem State.setTenant_draws (s : State) (t : Nat) (n : Tenant) : (s.setTenant t n).draws = s.draws := rfl
@[simp] theorem State.setTenant_stepping (s : State) (t : Nat) (n : Tenant) : (s.setTenant t n).stepping = s.stepping := rfl
@[simp] theorem State.setTenant_halted (s : State) (t : Nat) (n : Tenant) : (s.setTenant t n).halted = s.halted := rfl
@[simp] theorem State.setTenant_cur (s : State) (t : Nat) (n : Tenant) : (s.setTenant t n).cur = s.cur := rfl
@[simp] theorem State.setTenant_ctx (s : State) (t : Nat) (n : Tenant) : (s.setTenant t n).ctx = s.ctx := rfl
@[simp] theorem State.setTenant_core (s : State) (t : Nat) (n : Tenant) : (s.setTenant t n).core = s.core := rfl
@[simp] theorem State.setTenant_clu (s : State) (t : Nat) (n : Tenant) : (s.setTenant t n).clu = s.clu := rfl
@[simp] theorem State.setTenant_ctxs (s : State) (t : Nat) (n : Tenant) : (s.setTenant t n).ctxs = s.ctxs := rfl
@[simp] theorem State.setTenant_cores (s : State) (t : Nat) (n : Tenant) : (s.setTenant t n).cores = s.cores := rfl
@[simp] theorem State.setTenant_clus (s : State) (t : Nat) (n : Tenant) : (s.setTenant t n).clus = s.clus := rfl
@[simp] theorem State.setTenant_mem (s : State) (t : Nat) (n : Tenant) : (s.setTenant t n).mem = s.mem := rfl
@[simp] theorem State.setTenant_memPoison (s : State) (t : Nat) (n : Tenant) : (s.setTenant t n).memPoison = s.memPoison := rfl
@[simp] theorem State.setTenant_upsets (s : State) (t : Nat) (n : Tenant) : (s.setTenant t n).upsets = s.upsets := rfl
@[simp] theorem State.setTenant_residues (s : State) (t : Nat) (n : Tenant) : (s.setTenant t n).residues = s.residues := rfl
@[simp] theorem State.setTenant_cached (s : State) (t : Nat) (n : Tenant) : (s.setTenant t n).cached = s.cached := rfl
@[simp] theorem State.setTenant_walkCache (s : State) (t : Nat) (n : Tenant) : (s.setTenant t n).walkCache = s.walkCache := rfl
@[simp] theorem State.setTenant_openRmws (s : State) (t : Nat) (n : Tenant) : (s.setTenant t n).openRmws = s.openRmws := rfl
@[simp] theorem State.setTenant_recalled (s : State) (t : Nat) (n : Tenant) : (s.setTenant t n).recalled = s.recalled := rfl
@[simp] theorem State.setTenant_flights (s : State) (t : Nat) (n : Tenant) : (s.setTenant t n).flights = s.flights := rfl
@[simp] theorem State.setTenant_cclk (s : State) (t : Nat) (n : Tenant) : (s.setTenant t n).cclk = s.cclk := rfl
@[simp] theorem State.setTenant_pclk (s : State) (t : Nat) (n : Tenant) : (s.setTenant t n).pclk = s.pclk := rfl
@[simp] theorem State.setTenant_unpublished (s : State) (t : Nat) (n : Tenant) : (s.setTenant t n).unpublished = s.unpublished := rfl
@[simp] theorem State.setTenant_turn (s : State) (t : Nat) (n : Tenant) : (s.setTenant t n).turn = s.turn := rfl
@[simp] theorem State.setTenant_dir (s : State) (t : Nat) (n : Tenant) : (s.setTenant t n).dir = s.dir := rfl
@[simp] theorem State.setTenant_autoQ (s : State) (t : Nat) (n : Tenant) : (s.setTenant t n).autoQ = s.autoQ := rfl
@[simp] theorem State.setTenant_snaps (s : State) (t : Nat) (n : Tenant) : (s.setTenant t n).snaps = s.snaps := rfl
@[simp] theorem State.setTenant_txs (s : State) (t : Nat) (n : Tenant) : (s.setTenant t n).txs = s.txs := rfl
@[simp] theorem State.setTenant_colfreed (s : State) (t : Nat) (n : Tenant) : (s.setTenant t n).colfreed = s.colfreed := rfl
@[simp] theorem State.setTenant_colst (s : State) (t : Nat) (n : Tenant) : (s.setTenant t n).colst = s.colst := rfl
@[simp] theorem State.setTenant_lrsz (s : State) (t : Nat) (n : Tenant) : (s.setTenant t n).lrsz = s.lrsz := rfl
@[simp] theorem State.setTenant_dirRoom (s : State) (t : Nat) (n : Tenant) : (s.setTenant t n).dirRoom = s.dirRoom := rfl
@[simp] theorem State.setTenant_tenants (s : State) (t : Nat) (n : Tenant) : (s.setTenant t n).tenants = NatMap.set .reset s.tenants t n := rfl
@[simp] theorem State.setTenant_fqOver (s : State) (t : Nat) (n : Tenant) : (s.setTenant t n).fqOver = s.fqOver := rfl
@[simp] theorem State.setTenant_watchQ (s : State) (t : Nat) (n : Tenant) : (s.setTenant t n).watchQ = s.watchQ := rfl
@[simp] theorem State.setTenant_queues (s : State) (t : Nat) (n : Tenant) : (s.setTenant t n).queues = s.queues := rfl
@[simp] theorem State.setTenant_launches (s : State) (t : Nat) (n : Tenant) : (s.setTenant t n).launches = s.launches := rfl
@[simp] theorem State.setTenant_nextLid (s : State) (t : Nat) (n : Tenant) : (s.setTenant t n).nextLid = s.nextLid := rfl
@[simp] theorem State.setTenant_nextOrder (s : State) (t : Nat) (n : Tenant) : (s.setTenant t n).nextOrder = s.nextOrder := rfl
@[simp] theorem State.setTenant_copies (s : State) (t : Nat) (n : Tenant) : (s.setTenant t n).copies = s.copies := rfl
@[simp] theorem State.setTenant_colls (s : State) (t : Nat) (n : Tenant) : (s.setTenant t n).colls = s.colls := rfl
@[simp] theorem State.setTenant_mca (s : State) (t : Nat) (n : Tenant) : (s.setTenant t n).mca = s.mca := rfl
@[simp] theorem State.setTenant_hwpa (s : State) (t : Nat) (n : Tenant) : (s.setTenant t n).hwpa = s.hwpa := rfl
@[simp] theorem State.setTenant_hwpc (s : State) (t : Nat) (n : Tenant) : (s.setTenant t n).hwpc = s.hwpc := rfl
@[simp] theorem State.setTenant_device (s : State) (t : Nat) (n : Tenant) : (s.setTenant t n).device = s.device := rfl
@[simp] theorem State.setTenant_route (s : State) (t : Nat) (n : Tenant) : (s.setTenant t n).route = s.route := rfl
@[simp] theorem State.setTenant_ports (s : State) (t : Nat) (n : Tenant) : (s.setTenant t n).ports = s.ports := rfl
@[simp] theorem State.setTenant_peerReqs (s : State) (t : Nat) (n : Tenant) : (s.setTenant t n).peerReqs = s.peerReqs := rfl
@[simp] theorem State.setTenant_discard (s : State) (t : Nat) (n : Tenant) : (s.setTenant t n).discard = s.discard := rfl
@[simp] theorem State.setTenant_relays (s : State) (t : Nat) (n : Tenant) : (s.setTenant t n).relays = s.relays := rfl
@[simp] theorem State.setTenant_mgmt (s : State) (t : Nat) (n : Tenant) : (s.setTenant t n).mgmt = s.mgmt := rfl
@[simp] theorem State.setTenant_outbox (s : State) (t : Nat) (n : Tenant) : (s.setTenant t n).outbox = s.outbox := rfl

/-! ### `modPort` -/

@[simp] theorem State.modPort_agenda (s : State) (n : Nat) (f : Port → Port) : (s.modPort n f).agenda = s.agenda := rfl
@[simp] theorem State.modPort_arg (s : State) (n : Nat) (f : Port → Port) : (s.modPort n f).arg = s.arg := rfl
@[simp] theorem State.modPort_env (s : State) (n : Nat) (f : Port → Port) : (s.modPort n f).env = s.env := rfl
@[simp] theorem State.modPort_issue (s : State) (n : Nat) (f : Port → Port) : (s.modPort n f).issue = s.issue := rfl
@[simp] theorem State.modPort_draws (s : State) (n : Nat) (f : Port → Port) : (s.modPort n f).draws = s.draws := rfl
@[simp] theorem State.modPort_stepping (s : State) (n : Nat) (f : Port → Port) : (s.modPort n f).stepping = s.stepping := rfl
@[simp] theorem State.modPort_halted (s : State) (n : Nat) (f : Port → Port) : (s.modPort n f).halted = s.halted := rfl
@[simp] theorem State.modPort_cur (s : State) (n : Nat) (f : Port → Port) : (s.modPort n f).cur = s.cur := rfl
@[simp] theorem State.modPort_ctx (s : State) (n : Nat) (f : Port → Port) : (s.modPort n f).ctx = s.ctx := rfl
@[simp] theorem State.modPort_core (s : State) (n : Nat) (f : Port → Port) : (s.modPort n f).core = s.core := rfl
@[simp] theorem State.modPort_clu (s : State) (n : Nat) (f : Port → Port) : (s.modPort n f).clu = s.clu := rfl
@[simp] theorem State.modPort_ctxs (s : State) (n : Nat) (f : Port → Port) : (s.modPort n f).ctxs = s.ctxs := rfl
@[simp] theorem State.modPort_cores (s : State) (n : Nat) (f : Port → Port) : (s.modPort n f).cores = s.cores := rfl
@[simp] theorem State.modPort_clus (s : State) (n : Nat) (f : Port → Port) : (s.modPort n f).clus = s.clus := rfl
@[simp] theorem State.modPort_mem (s : State) (n : Nat) (f : Port → Port) : (s.modPort n f).mem = s.mem := rfl
@[simp] theorem State.modPort_memPoison (s : State) (n : Nat) (f : Port → Port) : (s.modPort n f).memPoison = s.memPoison := rfl
@[simp] theorem State.modPort_upsets (s : State) (n : Nat) (f : Port → Port) : (s.modPort n f).upsets = s.upsets := rfl
@[simp] theorem State.modPort_residues (s : State) (n : Nat) (f : Port → Port) : (s.modPort n f).residues = s.residues := rfl
@[simp] theorem State.modPort_cached (s : State) (n : Nat) (f : Port → Port) : (s.modPort n f).cached = s.cached := rfl
@[simp] theorem State.modPort_walkCache (s : State) (n : Nat) (f : Port → Port) : (s.modPort n f).walkCache = s.walkCache := rfl
@[simp] theorem State.modPort_openRmws (s : State) (n : Nat) (f : Port → Port) : (s.modPort n f).openRmws = s.openRmws := rfl
@[simp] theorem State.modPort_recalled (s : State) (n : Nat) (f : Port → Port) : (s.modPort n f).recalled = s.recalled := rfl
@[simp] theorem State.modPort_flights (s : State) (n : Nat) (f : Port → Port) : (s.modPort n f).flights = s.flights := rfl
@[simp] theorem State.modPort_cclk (s : State) (n : Nat) (f : Port → Port) : (s.modPort n f).cclk = s.cclk := rfl
@[simp] theorem State.modPort_pclk (s : State) (n : Nat) (f : Port → Port) : (s.modPort n f).pclk = s.pclk := rfl
@[simp] theorem State.modPort_unpublished (s : State) (n : Nat) (f : Port → Port) : (s.modPort n f).unpublished = s.unpublished := rfl
@[simp] theorem State.modPort_turn (s : State) (n : Nat) (f : Port → Port) : (s.modPort n f).turn = s.turn := rfl
@[simp] theorem State.modPort_dir (s : State) (n : Nat) (f : Port → Port) : (s.modPort n f).dir = s.dir := rfl
@[simp] theorem State.modPort_autoQ (s : State) (n : Nat) (f : Port → Port) : (s.modPort n f).autoQ = s.autoQ := rfl
@[simp] theorem State.modPort_snaps (s : State) (n : Nat) (f : Port → Port) : (s.modPort n f).snaps = s.snaps := rfl
@[simp] theorem State.modPort_txs (s : State) (n : Nat) (f : Port → Port) : (s.modPort n f).txs = s.txs := rfl
@[simp] theorem State.modPort_colfreed (s : State) (n : Nat) (f : Port → Port) : (s.modPort n f).colfreed = s.colfreed := rfl
@[simp] theorem State.modPort_colst (s : State) (n : Nat) (f : Port → Port) : (s.modPort n f).colst = s.colst := rfl
@[simp] theorem State.modPort_lrsz (s : State) (n : Nat) (f : Port → Port) : (s.modPort n f).lrsz = s.lrsz := rfl
@[simp] theorem State.modPort_dirRoom (s : State) (n : Nat) (f : Port → Port) : (s.modPort n f).dirRoom = s.dirRoom := rfl
@[simp] theorem State.modPort_tenants (s : State) (n : Nat) (f : Port → Port) : (s.modPort n f).tenants = s.tenants := rfl
@[simp] theorem State.modPort_fqOver (s : State) (n : Nat) (f : Port → Port) : (s.modPort n f).fqOver = s.fqOver := rfl
@[simp] theorem State.modPort_watchQ (s : State) (n : Nat) (f : Port → Port) : (s.modPort n f).watchQ = s.watchQ := rfl
@[simp] theorem State.modPort_queues (s : State) (n : Nat) (f : Port → Port) : (s.modPort n f).queues = s.queues := rfl
@[simp] theorem State.modPort_launches (s : State) (n : Nat) (f : Port → Port) : (s.modPort n f).launches = s.launches := rfl
@[simp] theorem State.modPort_nextLid (s : State) (n : Nat) (f : Port → Port) : (s.modPort n f).nextLid = s.nextLid := rfl
@[simp] theorem State.modPort_nextOrder (s : State) (n : Nat) (f : Port → Port) : (s.modPort n f).nextOrder = s.nextOrder := rfl
@[simp] theorem State.modPort_copies (s : State) (n : Nat) (f : Port → Port) : (s.modPort n f).copies = s.copies := rfl
@[simp] theorem State.modPort_colls (s : State) (n : Nat) (f : Port → Port) : (s.modPort n f).colls = s.colls := rfl
@[simp] theorem State.modPort_mca (s : State) (n : Nat) (f : Port → Port) : (s.modPort n f).mca = s.mca := rfl
@[simp] theorem State.modPort_hwpa (s : State) (n : Nat) (f : Port → Port) : (s.modPort n f).hwpa = s.hwpa := rfl
@[simp] theorem State.modPort_hwpc (s : State) (n : Nat) (f : Port → Port) : (s.modPort n f).hwpc = s.hwpc := rfl
@[simp] theorem State.modPort_device (s : State) (n : Nat) (f : Port → Port) : (s.modPort n f).device = s.device := rfl
@[simp] theorem State.modPort_route (s : State) (n : Nat) (f : Port → Port) : (s.modPort n f).route = s.route := rfl
@[simp] theorem State.modPort_ports (s : State) (n : Nat) (f : Port → Port) : (s.modPort n f).ports = NatMap.set .reset s.ports n (f (s.port n)) := rfl
@[simp] theorem State.modPort_peerReqs (s : State) (n : Nat) (f : Port → Port) : (s.modPort n f).peerReqs = s.peerReqs := rfl
@[simp] theorem State.modPort_discard (s : State) (n : Nat) (f : Port → Port) : (s.modPort n f).discard = s.discard := rfl
@[simp] theorem State.modPort_relays (s : State) (n : Nat) (f : Port → Port) : (s.modPort n f).relays = s.relays := rfl
@[simp] theorem State.modPort_mgmt (s : State) (n : Nat) (f : Port → Port) : (s.modPort n f).mgmt = s.mgmt := rfl
@[simp] theorem State.modPort_outbox (s : State) (n : Nat) (f : Port → Port) : (s.modPort n f).outbox = s.outbox := rfl

/-! ### `writeR` inside the context -/

@[simp] theorem State.writeR_regs (s : State) (x : Result) : (s.writeR x).ctx.regs = x.land s.ctx.regs := rfl
@[simp] theorem State.writeR_q (s : State) (x : Result) : (s.writeR x).ctx.q = s.ctx.q := rfl
@[simp] theorem State.writeR_c (s : State) (x : Result) : (s.writeR x).ctx.c = s.ctx.c := rfl

end Sys2Proof.Machine
end

