-- ==== Sys2Proof/Laws/Tables.lean ====
section
/-! SUPPORT. Sparse tables and memory: read after write, and that every operation on memory keeps the canonical form. -/

namespace Sys2Proof.Machine

variable {α : Type}

/-! ### Reading a table -/

@[simp] theorem NatMap.find?_nil (k : Nat) : NatMap.find? ([] : NatMap α) k = none := rfl

@[simp] theorem NatMap.get_nil (d : α) (k : Nat) : NatMap.get d [] k = d := rfl

theorem NatMap.find?_del (m : NatMap α) (k j : Nat) :
    NatMap.find? (NatMap.del m k) j = if j = k then none else NatMap.find? m j := by
  induction m with
  | nil => simp [NatMap.del]
  | cons e t ih =>
    obtain ⟨a, v⟩ := e
    simp only [NatMap.del] at ih
    by_cases h : a = k
    · subst h; by_cases hj : j = a <;> simp_all [NatMap.del, NatMap.find?]
    · by_cases hj : j = a
      · subst hj; simp [NatMap.del, NatMap.find?, h]
      · simp [NatMap.del, NatMap.find?, h, hj, ih]

theorem NatMap.find?_ins (m : NatMap α) (k j : Nat) (v : α) (h : NatMap.find? m k = none) :
    NatMap.find? (NatMap.ins k v m) j = if j = k then some v else NatMap.find? m j := by
  induction m with
  | nil => simp [NatMap.ins, NatMap.find?]
  | cons e t ih =>
    obtain ⟨a, u⟩ := e
    have hk : k ≠ a := by rintro rfl; simp [NatMap.find?] at h
    simp only [NatMap.find?, hk, if_false] at h
    unfold NatMap.ins
    split
    · rfl
    · simp only [NatMap.find?, ih h]
      by_cases hj : j = a
      · subst hj; simp [Ne.symm hk]
      · simp [hj]

@[simp] theorem NatMap.find?_put (m : NatMap α) (k j : Nat) (v : α) :
    NatMap.find? (NatMap.put m k v) j = if j = k then some v else NatMap.find? m j := by
  rw [NatMap.put, NatMap.find?_ins _ _ _ _ (by simp [NatMap.find?_del]), NatMap.find?_del]
  split <;> rfl

variable [DecidableEq α]

/-- A key reads as it was set, and every other key as before. -/
@[simp] theorem NatMap.get_set (d : α) (m : NatMap α) (k j : Nat) (v : α) :
    NatMap.get d (NatMap.set d m k v) j = if j = k then v else NatMap.get d m j := by
  unfold NatMap.get NatMap.set
  split
  · next h => subst h; rw [NatMap.find?_del]; split <;> rfl
  · rw [NatMap.find?_put]; split <;> rfl

theorem NatMap.get_set_same (d : α) (m : NatMap α) (k : Nat) (v : α) : NatMap.get d (NatMap.set d m k v) k = v := by simp

theorem NatMap.get_set_other (d : α) (m : NatMap α) {k j : Nat} (v : α) (h : j ≠ k) :
    NatMap.get d (NatMap.set d m k v) j = NatMap.get d m j := by simp [h]

omit [DecidableEq α]

/-! ### The rising order -/

/-- Every key of the table lies above `k`. -/
def above (k : Nat) (m : NatMap α) : Prop := ∀ e ∈ m, k < e.1

theorem risingFrom_cons {e : Nat × α} {t : NatMap α} : risingFrom (e :: t) = true ↔ above e.1 t ∧ risingFrom t = true := by
  induction t generalizing e with
  | nil => simp [risingFrom, above]
  | cons b t ih =>
    simp only [risingFrom, Bool.and_eq_true, decide_eq_true_eq]
    constructor
    · rintro ⟨h, hr⟩
      refine ⟨fun x hx => ?_, hr⟩
      rcases List.mem_cons.mp hx with rfl | hx
      · exact h
      · exact lt_trans h ((ih.mp hr).1 x hx)
    · rintro ⟨h, hr⟩
      exact ⟨h b (List.mem_cons_self ..), hr⟩

theorem risingFrom_filter (m : NatMap α) (p : Nat × α → Bool) (h : risingFrom m = true) : risingFrom (m.filter p) = true := by
  induction m with
  | nil => rfl
  | cons e t ih =>
    obtain ⟨ha, ht⟩ := risingFrom_cons.mp h
    rw [List.filter_cons]
    split
    · exact risingFrom_cons.mpr ⟨fun x hx => ha x (List.mem_filter.mp hx).1, ih ht⟩
    · exact ih ht

theorem above_ins {k j : Nat} {v : α} {m : NatMap α} (h : above k m) (hj : k < j) : above k (NatMap.ins j v m) := by
  induction m with
  | nil => intro e he; simp [NatMap.ins] at he; subst he; exact hj
  | cons e t ih =>
    unfold NatMap.ins
    split
    · intro x hx
      rcases List.mem_cons.mp hx with rfl | hx
      · exact hj
      · exact h x hx
    · intro x hx
      rcases List.mem_cons.mp hx with rfl | hx
      · exact h _ (List.mem_cons_self ..)
      · exact ih (fun y hy => h y (List.mem_cons_of_mem _ hy)) x hx

theorem risingFrom_ins (m : NatMap α) (k : Nat) (v : α) (h : risingFrom m = true) (hk : ∀ e ∈ m, e.1 ≠ k) :
    risingFrom (NatMap.ins k v m) = true := by
  induction m with
  | nil => rfl
  | cons e t ih =>
    obtain ⟨ha, ht⟩ := risingFrom_cons.mp h
    unfold NatMap.ins
    split
    · next hlt =>
      refine risingFrom_cons.mpr ⟨fun x hx => ?_, h⟩
      rcases List.mem_cons.mp hx with rfl | hx
      · exact hlt
      · exact lt_trans hlt (ha x hx)
    · next hge =>
      have hne := hk e (List.mem_cons_self ..)
      exact risingFrom_cons.mpr ⟨above_ins ha (by simp only at hge hne ⊢; omega),
        ih ht fun x hx => hk x (List.mem_cons_of_mem _ hx)⟩

theorem risingFrom_put (m : NatMap α) (k : Nat) (v : α) (h : risingFrom m = true) : risingFrom (NatMap.put m k v) = true :=
  risingFrom_ins _ _ _ (risingFrom_filter _ _ h) fun e he => by simpa using (List.mem_filter.mp he).2

theorem mem_ins {k : Nat} {v : α} {m : NatMap α} {e : Nat × α} (h : e ∈ NatMap.ins k v m) : e = (k, v) ∨ e ∈ m := by
  induction m with
  | nil => simpa [NatMap.ins] using h
  | cons a t ih =>
    unfold NatMap.ins at h
    split at h
    · simpa using h
    · rcases List.mem_cons.mp h with rfl | h
      · exact .inr (List.mem_cons_self ..)
      · exact (ih h).imp id (List.mem_cons_of_mem _)

/-! ### Memory keeps its form -/

@[simp] theorem Memory.wf_nil : Memory.wf [] = true := rfl

theorem Memory.wf_filter (m : List Host.Cell) (p : Host.Cell → Bool) (h : Memory.wf m = true) :
    Memory.wf (m.filter p) = true := by
  simp only [Memory.wf, Bool.and_eq_true, List.all_eq_true] at h ⊢
  exact ⟨risingFrom_filter _ _ h.1, fun c hc => h.2 c (List.mem_filter.mp hc).1⟩

theorem Memory.wf_set (m : List Host.Cell) (a : Nat) (b : Byte) (h : Memory.wf m = true) :
    Memory.wf (NatMap.set 0 m a b) = true := by
  unfold NatMap.set
  split
  · exact Memory.wf_filter _ _ h
  · next hb =>
    simp only [Memory.wf, Bool.and_eq_true, List.all_eq_true] at h ⊢
    refine ⟨risingFrom_put _ _ _ h.1, fun c hc => ?_⟩
    rcases mem_ins hc with rfl | hc
    · simpa using hb
    · exact h.2 c (List.mem_filter.mp hc).1

/-- A fold of writes keeps the form. -/
theorem Memory.wf_foldl {β : Type} (l : List β) (f : List Host.Cell → β → List Host.Cell)
    (hf : ∀ m x, Memory.wf m = true → Memory.wf (f m x) = true) (m : List Host.Cell) (h : Memory.wf m = true) :
    Memory.wf (l.foldl f m) = true := by
  induction l generalizing m with
  | nil => exact h
  | cons x t ih => exact ih _ (hf m x h)

theorem State.setByte_wf (s : State) (a : Nat) (b : Byte) (h : Memory.wf s.mem = true) :
    Memory.wf (s.setByte a b).mem = true := Memory.wf_set _ _ _ h

theorem State.setBytes_wf (s : State) (a : Nat) (l : List Byte) (h : Memory.wf s.mem = true) :
    Memory.wf (s.setBytes a l).mem = true := Memory.wf_foldl _ _ (fun _ _ => Memory.wf_set _ _ _) _ h

theorem State.writeG_wf (s : State) (g : Granule) (h : Memory.wf s.mem = true) : Memory.wf (s.writeG g).mem = true := by
  unfold State.writeG
  split
  · exact h
  · refine Memory.wf_foldl _ _ (fun m i hm => ?_) _ h
    split
    · exact Memory.wf_set _ _ _ hm
    · exact hm

theorem State.writesG_wf (l : List Granule) (s : State) (h : Memory.wf s.mem = true) :
    Memory.wf (l.foldl State.writeG s).mem = true := by
  induction l generalizing s with
  | nil => exact h
  | cons g t ih => exact ih _ (State.writeG_wf _ _ h)

theorem State.setLine_rising (s : State) (l : Nat) (e : LineEntry) (h : risingFrom s.dir = true) :
    risingFrom (s.setLine l e).dir = true := risingFrom_put _ _ _ h

theorem State.reset_wf : Memory.wf State.reset.mem = true := rfl

theorem State.reset_sound : State.reset.sound = true := rfl

/-! ### Bytes read after they are written -/

@[simp] theorem State.byte_setByte (s : State) (a c : Nat) (b : Byte) :
    (s.setByte a b).byte c = if c = a then b else s.byte c := NatMap.get_set _ _ _ _ _

theorem State.byte_setByte_other (s : State) {a c : Nat} (b : Byte) (h : c ≠ a) : (s.setByte a b).byte c = s.byte c := by
  simp [h]

theorem Memory.get_foldl_other {β : Type} (l : List β) (key : β → Nat) (val : β → Byte) (p : β → Bool)
    (m : List Host.Cell) (c : Nat) (h : ∀ x ∈ l, key x ≠ c) :
    NatMap.get 0 (l.foldl (fun m x => if p x then NatMap.set 0 m (key x) (val x) else m) m) c = NatMap.get 0 m c := by
  induction l generalizing m with
  | nil => rfl
  | cons x t ih =>
    rw [List.foldl_cons, ih _ fun y hy => h y (List.mem_cons_of_mem _ hy)]
    split
    · exact NatMap.get_set_other _ _ _ (Ne.symm (h x (List.mem_cons_self ..)))
    · rfl

/-- A granule write changes no byte outside its granule. -/
theorem State.byte_writeG_other (s : State) (g : Granule) (c : Nat) (h : c < g.addr ∨ g.addr + 8 ≤ c) :
    (s.writeG g).byte c = s.byte c := by
  unfold State.writeG State.byte
  split
  · rfl
  · exact Memory.get_foldl_other _ (fun i => g.addr + i) _ _ _ _ fun i hi => by
      have := List.mem_range.mp hi
      omega

theorem Memory.get_range_foldl (n : Nat) (key : Nat) (val : Nat → Byte) (p : Nat → Bool) (m : List Host.Cell) (j : Nat)
    (hj : j < n) :
    NatMap.get 0 ((List.range n).foldl (fun m i => if p i then NatMap.set 0 m (key + i) (val i) else m) m) (key + j) =
      if p j then val j else NatMap.get 0 m (key + j) := by
  induction n with
  | zero => omega
  | succ n ih =>
    rw [List.range_succ, List.foldl_append, List.foldl_cons, List.foldl_nil]
    rcases Nat.lt_succ_iff_lt_or_eq.mp hj with h | rfl
    · rw [← ih h]
      split
      · exact NatMap.get_set_other _ _ _ (by omega)
      · rfl
    · have hr : NatMap.get 0 ((List.range j).foldl (fun m i => if p i then NatMap.set 0 m (key + i) (val i) else m) m)
          (key + j) = NatMap.get 0 m (key + j) :=
        Memory.get_foldl_other _ (fun i => key + i) _ _ _ _ fun i hi => by have := List.mem_range.mp hi; omega
      split
      · exact NatMap.get_set_same _ _ _ _
      · exact hr

/-- A granule write of data writes the masked bytes of its granule. -/
theorem State.byte_writeG (s : State) (g : Granule) (d : BitVec 64) (i : Nat) (hd : g.data = some d) (hi : i < 8) :
    (s.writeG g).byte (g.addr + i) = if g.mask.getLsbD i then byteOf d i else s.byte (g.addr + i) := by
  unfold State.writeG State.byte
  rw [hd]
  exact Memory.get_range_foldl 8 g.addr (byteOf d) (fun i => g.mask.getLsbD i) s.mem i hi

theorem State.mem_writeG_poison (s : State) (g : Granule) (hd : g.data = none) : (s.writeG g).mem = s.mem := by
  unfold State.writeG; rw [hd]

end Sys2Proof.Machine
end

