-- ==== Sys2Proof/Laws/Ops.lean ====
section
/-! SUPPORT. What each shared operation can do, said once: the gates of a word (predicate, poison, the checks of an access),
results and queue entries, contexts by number, taking a trap, and running the words of a bundle. -/

namespace Sys2Proof.Machine

open Sys2Proof

/-! ### The gates of a word -/

/-- A word of a scalar class always goes on: with a true predicate as its meaning says, else unchanged (08 R220). -/
theorem State.scalar_next (s : State) (f : State → State) : s.scalar f = .next (if s.pred then f s else s) := rfl

@[simp] theorem State.scalar_true (s : State) (f : State → State) (h : s.pred = true) : s.scalar f = .next (f s) := by
  simp [State.scalar, h]

@[simp] theorem State.scalar_false (s : State) (f : State → State) (h : s.pred = false) : s.scalar f = .next s := by
  simp [State.scalar, h]

/-- Consuming either meets no poison and goes on, or takes MCHK before the bundle (02 R78). -/
theorem State.consume_cases (s : State) (l : List Nat) (f : State → State) :
    ((∀ r ∈ l, s.spois r = false) ∧ s.consume l f = f s) ∨ ((∃ r ∈ l, s.spois r = true) ∧ s.consume l f = s.trapMchk) := by
  unfold State.consume
  by_cases h : l.any s.spois = true
  · exact .inr ⟨List.any_eq_true.mp h, if_pos h⟩
  · refine .inl ⟨fun r hr => ?_, if_neg h⟩
    by_contra hp
    exact h (List.any_eq_true.mpr ⟨r, hr, by simpa using hp⟩)

theorem State.consume_clean (s : State) (l : List Nat) (f : State → State) (h : ∀ r ∈ l, s.spois r = false) :
    s.consume l f = f s := by
  rcases s.consume_cases l f with ⟨_, e⟩ | ⟨⟨r, hr, hp⟩, _⟩
  · exact e
  · simp [h r hr] at hp

/-- A two-source operation with a true predicate and unpoisoned sources owes its result and changes nothing else. -/
theorem State.alu2_clean (s : State) (d a b : BitVec 6) (lat : Nat) (f : Word → Word → Word) (hp : s.pred = true)
    (ha : s.spois a.toNat = false) (hb : s.spois b.toNat = false) :
    s.alu2 d a b lat f = .next (s.oweS d.toNat (f (s.sreg a.toNat) (s.sreg b.toNat)) false lat false) := by
  rw [State.alu2, State.scalar_true _ _ hp, State.consume_clean _ _ _ (by simp [ha, hb])]

/-- A one-source operation, likewise. -/
theorem State.alu1_clean (s : State) (d a : BitVec 6) (f : Word → Word) (hp : s.pred = true)
    (ha : s.spois a.toNat = false) :
    s.alu1 d a f = .next (s.oweS d.toNat (f (s.sreg a.toNat)) false 1 false) := by
  rw [State.alu1, State.scalar_true _ _ hp, State.consume_clean _ _ _ (by simp [ha])]

/-- The checks of an access end in one of the four traps before the bundle, or let the word go on (18 R411). -/
theorem State.checkMem_cases (s : State) (l : List (Nat × Nat × Nat × Bool × Nat)) (f : State → State) :
    s.checkMem l f = f s ∨ ∃ cause detail va, s.checkMem l f = s.trapBefore cause detail va ∧
      (cause = alignCause ∨ cause = scratchRange ∨ cause = 0x08 ∨ cause = watchCause) := by
  unfold State.checkMem
  split
  · exact .inr ⟨_, _, _, rfl, .inl rfl⟩
  · split
    · split
      · exact .inr ⟨_, _, _, rfl, .inr (.inl rfl)⟩
      · exact .inr ⟨_, _, _, rfl, .inr (.inr (.inl rfl))⟩
    · split
      · exact .inr ⟨_, _, _, rfl, .inr (.inr (.inr rfl))⟩
      · exact .inl rfl

/-- A misaligned range takes ALIGN with the slot position as DETAIL. -/
theorem State.checkMem_align (s : State) (l : List (Nat × Nat × Nat × Bool × Nat)) (f : State → State)
    (h : ∃ x ∈ l, x.1 % x.2.2.1 ≠ 0) : s.checkMem l f = s.trapBefore alignCause s.alignDetail 0 := by
  unfold State.checkMem
  rw [if_pos]
  obtain ⟨x, hx, hn⟩ := h
  exact List.any_eq_true.mpr ⟨x, hx, by simpa using hn⟩

/-! ### What a word leaves behind -/

theorem State.oweS_eq (s : State) (d : Nat) (v : Word) (p : Bool) (lat : Nat) (e : Bool) :
    s.oweS d v p lat e = s.owe ⟨.sreg (s.sname d), v.setWidth 512, 1, if p then 1 else 0, lat, e⟩ := rfl

/-- Owing a result changes the results owed and nothing else. -/
theorem State.owe_frame (s : State) (r : Result) :
    (s.owe r).ctx.q.results = s.ctx.q.results ++ [r] ∧ (s.owe r).ctx.regs = s.ctx.regs ∧ (s.owe r).ctx.c = s.ctx.c ∧
      (s.owe r).ctx.pc = s.ctx.pc ∧ (s.owe r).mem = s.mem ∧ (s.owe r).core = s.core ∧ (s.owe r).clu = s.clu :=
  ⟨rfl, rfl, rfl, rfl, rfl, rfl, rfl⟩

/-- A load enters the load queue; registers, memory and the other queues stay. -/
theorem State.pushLoad_frame (s : State) (kind : LKind) (swz : Bool) (ranges : List (Nat × Nat)) (fmt : LFmt) (left : Nat)
    (acq : Option Nat) :
    let t := s.pushLoad kind swz ranges fmt left acq
    t.ctx.regs = s.ctx.regs ∧ t.ctx.c = s.ctx.c ∧ t.ctx.q.sq = s.ctx.q.sq ∧ t.ctx.q.landing = s.ctx.q.landing ∧
      t.ctx.q.lq.length = s.ctx.q.lq.length + 1 ∧ t.mem = s.mem ∧ t.issue = s.issue := by
  refine ⟨rfl, rfl, rfl, rfl, ?_, rfl, rfl⟩
  simp [State.pushLoad, State.modQ]

/-- A store enters the store queue; registers, memory and the other queues stay. -/
theorem State.pushStore_frame (s : State) (kind : SKind) (loc swz : Bool) :
    let t := s.pushStore kind loc swz
    t.ctx.regs = s.ctx.regs ∧ t.ctx.c = s.ctx.c ∧ t.ctx.q.lq = s.ctx.q.lq ∧ t.ctx.q.landing = s.ctx.q.landing ∧
      t.ctx.q.sq.length = s.ctx.q.sq.length + 1 ∧ t.mem = s.mem ∧ t.issue = s.issue := by
  refine ⟨rfl, rfl, rfl, rfl, ?_, rfl, rfl⟩
  simp [State.pushStore, State.modQ]

/-! ### Registers -/

@[simp] theorem Regs.write_s0 (r : Regs) (v : BitVec 512) (p l : BitVec 16) : r.write (.sreg 0) v p l = r := rfl

@[simp] theorem Regs.write_k0 (r : Regs) (v : BitVec 512) (p l : BitVec 16) : r.write (.kreg 0) v p l = r := rfl

@[simp] theorem Regs.write_m0 (r : Regs) (g : Nat) (v : BitVec 512) (p l : BitVec 16) : r.write (.mreg g 0) v p l = r := rfl

/-- A scalar register written reads so, and the other scalar registers as before. -/
theorem Regs.write_sreg (r : Regs) (n m : Nat) (v : BitVec 512) (p l : BitVec 16) (h : n ≠ 0) :
    NatMap.get 0 (r.write (.sreg n) v p l).s m = if m = n then v.setWidth 64 else NatMap.get 0 r.s m := by
  simp [Regs.write, h]

theorem Regs.write_kreg (r : Regs) (n m : Nat) (v : BitVec 512) (p l : BitVec 16) (h : n ≠ 0) :
    NatMap.get false (r.write (.kreg n) v p l).k m = if m = n then v.getLsbD 0 else NatMap.get false r.k m := by
  simp [Regs.write, h]

theorem setLanes_get {α : Type} [DecidableEq α] (d : α) (m : NatMap α) (key : Nat) (lanes : BitVec 16) (f : Nat → α)
    (j : Nat) (n : Nat) :
    NatMap.get d ((List.range n).foldl (fun m l => if lanes.getLsbD l then NatMap.set d m (key + l) (f l) else m) m) j =
      if key ≤ j ∧ j < key + n ∧ lanes.getLsbD (j - key) then f (j - key) else NatMap.get d m j := by
  induction n with
  | zero => simp; omega
  | succ n ih =>
    rw [List.range_succ, List.foldl_append, List.foldl_cons, List.foldl_nil]
    by_cases hl : lanes.getLsbD n = true
    · rw [if_pos hl, NatMap.get_set, ih]
      by_cases hj : j = key + n
      · subst hj; simp [hl]
      · have : (key ≤ j ∧ j < key + n ∧ lanes.getLsbD (j - key)) ↔ (key ≤ j ∧ j < key + (n + 1) ∧ lanes.getLsbD (j - key)) := by
          constructor <;> rintro ⟨a, b, c⟩ <;> exact ⟨a, by omega, c⟩
        simp [hj, this]
    · rw [if_neg hl, ih]
      by_cases hj : j = key + n
      · subst hj; simp [hl]
      · have : (key ≤ j ∧ j < key + n ∧ lanes.getLsbD (j - key)) ↔ (key ≤ j ∧ j < key + (n + 1) ∧ lanes.getLsbD (j - key)) := by
          constructor <;> rintro ⟨a, b, c⟩ <;> exact ⟨a, by omega, c⟩
        simp [this]

/-- A vector register's lanes written read so in the lanes of the set; every other lane of every register as before. -/
theorem Regs.write_vreg (r : Regs) (g n j : Nat) (v : BitVec 512) (p l : BitVec 16) :
    NatMap.get 0 (r.write (.vreg g n) v p l).v j =
      if vkey g n 0 ≤ j ∧ j < vkey g n 0 + 16 ∧ l.getLsbD (j - vkey g n 0) then v.extractLsb' (32 * (j - vkey g n 0)) 32
      else NatMap.get 0 r.v j := by
  simp only [Regs.write, setLanes]
  exact setLanes_get 0 r.v (vkey g n 0) l (fun k => v.extractLsb' (32 * k) 32) j 16

/-! ### Contexts by number -/

@[simp] theorem State.getCtx_cur (s : State) : s.getCtx s.cur = s.ctx := by simp [State.getCtx]

/-- A running context reads as it was set, and every other running one as before. -/
theorem State.getCtx_setCtx (s : State) (a b : Nat) (c : Context) (ha : a < 4096) (hb : b < 4096) :
    (s.setCtx a c).getCtx b = if b = a then c else s.getCtx b := by
  have na : ¬ 4096 ≤ a := by omega
  have nb : ¬ 4096 ≤ b := by omega
  unfold State.setCtx State.getCtx
  simp only [na, nb, if_false]
  by_cases h1 : a = s.cur
  · subst h1; by_cases h2 : b = s.cur <;> simp [h2]
  · by_cases h2 : b = s.cur
    · subst h2; simp [h1, Ne.symm h1]
    · simp [h1, h2]

/-! ### Errors and traps -/

/-- Logging an error changes the bank's record and at most sends a signal. -/
theorem State.logError_frame (s : State) (b sev code : Nat) (psn : Bool) (ak loc : Nat) (org : Option Nat) :
    let t := s.logError b sev code psn ak loc org
    t.ctx = s.ctx ∧ t.core = s.core ∧ t.clu = s.clu ∧ t.ctxs = s.ctxs ∧ t.mem = s.mem ∧ t.dir = s.dir ∧
      t.issue = s.issue ∧ t.env = s.env ∧ t.cur = s.cur ∧ t.launches = s.launches ∧ t.device = s.device := by
  unfold State.logError
  dsimp only
  split <;> exact ⟨rfl, rfl, rfl, rfl, rfl, rfl, rfl, rfl, rfl, rfl, rfl⟩

theorem State.failLaunch_frame (s : State) (c : Context) (code : Nat) :
    let t := s.failLaunch c code
    t.ctx = s.ctx ∧ t.core = s.core ∧ t.clu = s.clu ∧ t.ctxs = s.ctxs ∧ t.mem = s.mem ∧ t.dir = s.dir ∧
      t.issue = s.issue ∧ t.env = s.env ∧ t.cur = s.cur ∧ t.device = s.device := by
  unfold State.failLaunch
  dsimp only
  split <;> exact ⟨rfl, rfl, rfl, rfl, rfl, rfl, rfl, rfl, rfl, rfl⟩

theorem State.unbind_frame (s : State) (n : Nat) :
    let t := s.unbind n
    t.ctx = s.ctx ∧ t.core = s.core ∧ t.clu = s.clu ∧ t.ctxs = s.ctxs ∧ t.mem = s.mem ∧ t.dir = s.dir := by
  unfold State.unbind
  dsimp only
  split <;> exact ⟨rfl, rfl, rfl, rfl, rfl, rfl⟩

/-- A double trap stops the context and leaves its registers, its control registers but SNAP, and memory (09 R262). -/
theorem State.doubleTrap_frame (s : State) :
    s.doubleTrap.ctx.st = .retired ∧ s.doubleTrap.ctx.stop = true ∧ s.doubleTrap.ctx.regs = s.ctx.regs ∧
      s.doubleTrap.ctx.c = { s.ctx.c with snap := 0 } ∧ s.doubleTrap.ctx.q = s.ctx.q ∧ s.doubleTrap.mem = s.mem ∧ s.doubleTrap.ctxs = s.ctxs ∧
      s.doubleTrap.dir = s.dir ∧ s.doubleTrap.clu = s.clu ∧ s.doubleTrap.core = s.core := by
  unfold State.doubleTrap
  dsimp only
  have h1 := State.logError_frame s (coreBank s.cur) 2 0x000A false 0 0 (some (s.originOf s.cur))
  dsimp only at h1
  obtain ⟨c1, c2, c3, c4, c5, c6, -⟩ := h1
  generalize s.logError (coreBank s.cur) 2 0x000A false 0 0 (some (s.originOf s.cur)) = u at *
  have h2 := State.failLaunch_frame u u.ctx 7
  dsimp only at h2
  obtain ⟨d1, d2, d3, d4, d5, d6, -⟩ := h2
  have h3 := State.unbind_frame (u.failLaunch u.ctx 7) (u.failLaunch u.ctx 7).ctx.bound
  dsimp only at h3
  obtain ⟨e1, e2, e3, e4, e5, e6⟩ := h3
  simp only [c1, c2, c3, c4, c5, c6] at d1 d2 d3 d4 d5 d6 e1 e2 e3 e4 e5 e6 ⊢
  simp only [d1, d2, d3, d4, d5, d6] at e1 e2 e3 e4 e5 e6 ⊢
  simp only [State.modC, e1, e2, e3, e4, e5, e6, and_self]

/-- Leaving a loop that is over changes the program counter, the sequencer and VWB only (07 R196, R197). -/
theorem State.boundary_frame (s : State) :
    let t := s.boundary
    t.ctx.regs = s.ctx.regs ∧ t.ctx.q = s.ctx.q ∧ t.ctx.st = s.ctx.st ∧ t.ctx.settings = s.ctx.settings ∧ t.mem = s.mem ∧
      t.clu = s.clu ∧ t.ctxs = s.ctxs ∧ t.issue = s.issue ∧ t.dir = s.dir ∧ t.core = s.core ∧
      t.ctx.c.tvec = s.ctx.c.tvec := by
  unfold State.boundary
  dsimp only
  split
  · exact ⟨rfl, rfl, rfl, rfl, rfl, rfl, rfl, rfl, rfl, rfl, rfl⟩
  · split <;> exact ⟨rfl, rfl, rfl, rfl, rfl, rfl, rfl, rfl, rfl, rfl, rfl⟩

/-- Outside a loop a boundary changes nothing. -/
@[simp] theorem State.boundary_none (s : State) (h : s.ctx.seq = none) : s.boundary = s := by
  unfold State.boundary; rw [h]

/-- Taking a trap that posts no fault-queue record, outside the handler (09 R261): the trap registers, the program at TVEC
with T required, the results in flight captured, no hold and no loop; registers, memory, the cluster and the other contexts
stay. -/
theorem State.takeTrap_frame (s : State) (cause : BitVec 8) (detail : BitVec 16) (tbund tnext va : Nat)
    (hi : s.inh = false) (hc : cause ≠ 0x08) (h9 : cause ≠ 0x09) (hA : cause ≠ 0x0A) :
    let t := s.takeTrap cause detail tbund tnext va
    t.ctx.c = { s.boundary.ctx.c with
        tcause := tcauseWord cause detail, tbund := trapAddr tbund, tnext := trapAddr tnext } ∧
      t.ctx.pc = s.ctx.c.tvec.toNat % 2 ^ 52 / 4 * 4 ∧ t.ctx.checked = true ∧ t.ctx.holds = [] ∧ t.ctx.seq = none ∧
      t.ctx.q = { s.ctx.q with results := [], capture := s.ctx.q.capture ++ s.ctx.q.results } ∧
      t.ctx.regs = s.ctx.regs ∧ t.ctx.st = s.ctx.st ∧ t.ctx.settings = s.ctx.settings ∧ t.mem = s.mem ∧ t.clu = s.clu ∧
      t.ctxs = s.ctxs ∧ t.issue = s.issue ∧ t.dir = s.dir := by
  have hp : (cause == 0x08 || cause == 0x09 || cause == 0x0A) = false := by
    simp only [Bool.or_eq_false_iff, beq_eq_false_iff_ne]
    exact ⟨⟨hc, h9⟩, hA⟩
  have hb := s.boundary_frame
  dsimp only at hb
  obtain ⟨b1, b2, b3, b4, b5, b6, b7, b8, b9, -, b11⟩ := hb
  unfold State.takeTrap
  dsimp only
  rw [if_neg (by simp [hi]), hp]
  refine ⟨rfl, ?_, rfl, rfl, rfl, ?_, b1, b3, b4, b5, b6, b7, b8, b9⟩
  · rw [if_neg (by simp), b11]
  · rw [if_neg (by simp), b2]

/-- In the handler a trap is a double trap (09 R262). -/
theorem State.takeTrap_inh (s : State) (cause : BitVec 8) (detail : BitVec 16) (tbund tnext va : Nat) (hi : s.inh = true) :
    s.takeTrap cause detail tbund tnext va = s.doubleTrap := by
  unfold State.takeTrap; simp [hi]

/-- A trap before the bundle always marks the issue with its cause. -/
@[simp] theorem State.trapBefore_trap (s : State) (cause : BitVec 8) (detail : BitVec 16) (va : Nat) :
    (s.trapBefore cause detail va).issue.trap = some (cause, detail, va) := rfl

/-! ### The words of a bundle -/

theorem runWords_nil (s : State) : runWords [] s = .next s := rfl

/-- Where no predicate, mask or iterator is lost to an error, no word reads one (02 R77). -/
theorem State.deadRead_none (s : State) (x : Slot × Option Nat × Bool) (h : s.ctx.regs.dead = []) :
    (s.enter x).deadRead x = false := by
  have e : (s.enter x).ctx = s.ctx := rfl
  simp [State.deadRead, e, h]

/-- A word that goes on without a trap is followed by the next. -/
theorem runWords_next (x : Slot × Option Nat × Bool) (xs : List (Slot × Option Nat × Bool)) (s t : State)
    (hd : (s.enter x).deadRead x = false) (h : exec x.1.op (s.enter x) = .next t) (ht : t.issue.trap = none) :
    runWords (x :: xs) s = runWords xs (t.measure x) := by
  simp [runWords, hd, h, ht]

/-- A word that traps before the bundle is the last. -/
theorem runWords_trap (x : Slot × Option Nat × Bool) (xs : List (Slot × Option Nat × Bool)) (s t : State)
    (hd : (s.enter x).deadRead x = false) (h : exec x.1.op (s.enter x) = .next t) (ht : t.issue.trap.isSome = true) :
    runWords (x :: xs) s = .next t := by
  simp [runWords, hd, h, ht]

/-- Where no memory-side watchpoint was met nothing is posted after an act (18 R422). -/
theorem State.postWatched_nil (s : State) (h : s.watchQ = []) : s.postWatched = s := by
  cases s
  cases h
  rfl

/-- A step takes the first act of the agenda. -/
theorem step_cons (s : State) (a : Act) (l : List Act) (h : s.agenda = a :: l) :
    step s = State.runAct { s with agenda := l } a := by
  simp [step, h]

/-! ### Finding errors and passing through the cellar cache change no memory and no context (02 R64, R76) -/

theorem State.found_frame (s : State) (u : Upset) :
    (s.found u).ctx = s.ctx ∧ (s.found u).mem = s.mem ∧ (s.found u).dir = s.dir := by
  have hp (pa : Nat) : (s.poisonAt pa).ctx = s.ctx ∧ (s.poisonAt pa).mem = s.mem ∧ (s.poisonAt pa).dir = s.dir := by
    unfold State.poisonAt; split <;> exact ⟨rfl, rfl, rfl⟩
  have hl (t : State) (b sev code : Nat) (psn : Bool) (ak loc : Nat) (org : Option Nat) (pl : Nat) :
      (t.logError b sev code psn ak loc org pl).ctx = t.ctx ∧ (t.logError b sev code psn ak loc org pl).mem = t.mem ∧
        (t.logError b sev code psn ak loc org pl).dir = t.dir := by
    unfold State.logError
    dsimp only
    split <;> exact ⟨rfl, rfl, rfl⟩
  unfold State.found
  split <;> simp only [hl, hp, and_self]

theorem State.findAt_frame (s : State) (p : Site → Bool) :
    (s.findAt p).1.ctx = s.ctx ∧ (s.findAt p).1.mem = s.mem ∧ (s.findAt p).1.dir = s.dir := by
  unfold State.findAt
  dsimp only
  have key (l : List Upset) (t : State) :
      (l.foldl State.found t).ctx = t.ctx ∧ (l.foldl State.found t).mem = t.mem ∧ (l.foldl State.found t).dir = t.dir := by
    induction l generalizing t with
    | nil => exact ⟨rfl, rfl, rfl⟩
    | cons u l ih =>
      have h := t.found_frame u
      rw [List.foldl_cons]
      exact ⟨(ih _).1.trans h.1, (ih _).2.1.trans h.2.1, (ih _).2.2.trans h.2.2⟩
  exact key _ _

theorem State.fillLine_frame (s : State) (pa : Nat) (dirty : Bool) :
    (s.fillLine pa dirty).ctx = s.ctx ∧ (s.fillLine pa dirty).mem = s.mem ∧ (s.fillLine pa dirty).dir = s.dir := by
  unfold State.fillLine
  dsimp only
  split
  · exact ⟨rfl, rfl, rfl⟩
  · split
    · exact s.findAt_frame _
    · exact ⟨rfl, rfl, rfl⟩

/-- An access that passes through a hub changes no byte, no context and no directory entry. -/
theorem State.visit_frame (s : State) (pa : Nat) (wr alloc : Bool) :
    (s.visit pa wr alloc).1.ctx = s.ctx ∧ (s.visit pa wr alloc).1.mem = s.mem ∧ (s.visit pa wr alloc).1.dir = s.dir := by
  have h : (s.findUpset pa).1.ctx = s.ctx ∧ (s.findUpset pa).1.mem = s.mem ∧ (s.findUpset pa).1.dir = s.dir :=
    s.findAt_frame _
  unfold State.visit
  dsimp only
  split
  · exact h
  · split
    · exact h
    · split
      · have f := State.findAt_frame (s.findUpset pa).1 fun x => match x with | .mem a => a / 128 == pa / 128 | _ => false
        have g := State.fillLine_frame
          ((s.findUpset pa).1.findAt fun x => match x with | .mem a => a / 128 == pa / 128 | _ => false).1 pa wr
        exact ⟨g.1.trans (f.1.trans h.1), g.2.1.trans (f.2.1.trans h.2.1), g.2.2.trans (f.2.2.trans h.2.2)⟩
      · exact h

/-- A granule written at its home keeps the form of memory. -/
theorem State.store_wf (s : State) (g : Granule) (alloc : Bool) (h : Memory.wf s.mem = true) :
    Memory.wf (s.store g alloc).mem = true := by
  unfold State.store
  dsimp only
  refine State.writeG_wf _ _ ?_
  rw [(State.visit_frame _ _ _ _).2.1]
  split <;> exact h

/-! ### Clearing and loading a scratchpad keep the form of memory -/

theorem State.setCtx_mem (s : State) (i : Nat) (c : Context) : (s.setCtx i c).mem = s.mem := by
  unfold State.setCtx; split
  · rfl
  · split
    · split <;> rfl
    · rfl

theorem State.modCtx_mem (s : State) (i : Nat) (f : Context → Context) : (s.modCtx i f).mem = s.mem :=
  State.setCtx_mem _ _ _

theorem State.setCore_mem (s : State) (i : Nat) (c : CoreState) : (s.setCore i c).mem = s.mem := by
  unfold State.setCore; split <;> rfl

theorem State.setClu_mem (s : State) (i : Nat) (c : ClusterState) : (s.setClu i c).mem = s.mem := by
  unfold State.setClu; split <;> rfl

theorem foldl_mem {β : Type} (l : List β) (f : State → β → State) (hf : ∀ s x, (f s x).mem = s.mem) (s : State) :
    (l.foldl f s).mem = s.mem := by
  induction l generalizing s with
  | nil => rfl
  | cons x t ih => rw [List.foldl_cons, ih, hf]

theorem State.clearCluster_wf (s : State) (p : Nat) (h : Memory.wf s.mem = true) :
    Memory.wf (s.clearCluster p).mem = true := by
  unfold State.clearCluster
  dsimp only
  refine Memory.wf_filter _ _ ?_
  rw [foldl_mem _ _ fun s k => State.setCore_mem _ _ _, foldl_mem _ _ fun s i => State.modCtx_mem _ _ _]
  exact h

theorem State.moveBytes_wf (s : State) (src dst n : Nat) (h : Memory.wf s.mem = true) :
    Memory.wf (s.moveBytes src dst n).mem = true :=
  Memory.wf_foldl _ _ (fun _ _ => Memory.wf_set _ _ _) _ (Memory.wf_filter _ _ h)

theorem State.noteHome_mem (s : State) (pa n : Nat) (wr : Bool) (tid kind agent : Nat) :
    (s.noteHome pa n wr tid kind agent).mem = s.mem := by
  unfold State.noteHome; rfl

/-- What reads or makes room in a page of the save area changes no byte (18 R413). -/
theorem State.readPage_mem (s : State) (tid kind agent pa : Nat) : (s.readPage tid kind agent pa).mem = s.mem := by
  have h : ((s.findAt (s.inRange pa 0x10000)).1).mem = s.mem := (State.findAt_frame _ _).2.1
  unfold State.readPage
  dsimp only
  repeat' split
  all_goals simp only [foldl_mem _ _ (fun s i => State.noteHome_mem s _ _ _ _ _ _), foldl_mem _ _ (fun s i => State.send_mem s _), h]

theorem State.overPage_mem (s : State) (tid kind agent pa : Nat) (w : Nat → Bool) :
    (s.overPage tid kind agent pa w).mem = s.mem := by
  unfold State.overPage
  dsimp only
  repeat' split
  all_goals
    simp only [foldl_mem _ _ (fun s i => State.noteHome_mem s _ _ _ _ _ _), foldl_mem _ _ (fun s i => State.send_mem s _),
      State.reportIf]

/-- Copying a scratchpad to its image or back keeps the form of memory (16 R400). -/
theorem State.movePad_wf (s : State) (l : Launch) (v p : Nat) (out : Bool) (h : Memory.wf s.mem = true) :
    Memory.wf (s.movePad l v p out).mem = true := by
  unfold State.movePad
  generalize List.range 256 = is
  induction is generalizing s with
  | nil => exact h
  | cons i t ih =>
    rw [List.foldl_cons]
    refine ih _ ?_
    split
    · exact h
    · dsimp only
      split <;> refine State.moveBytes_wf _ _ _ _ ?_
      · rw [State.overPage_mem, (State.findAt_frame _ _).2.1]; exact h
      · rw [State.readPage_mem]; exact h

theorem State.takeCluster_wf (s : State) (tid p : Nat) (h : Memory.wf s.mem = true) :
    Memory.wf (s.takeCluster tid p).mem = true := by
  unfold State.takeCluster
  dsimp only
  rw [State.setClu_mem]
  split
  · split
    · exact h
    · exact State.clearCluster_wf _ _ h
  · exact h

end Sys2Proof.Machine
end

