-- ==== Sys2Proof/Tests/Slice0.lean ====
section
/-! SUPPORT. Tests: words of the manual's worked bundles decode as it says; each check of well-formedness refuses an ill-formed
term; single steps give the manual's worked results; and every statement's hypotheses are met by a concrete state. -/

namespace Sys2Proof.Tests

set_option Elab.async false

open Sys2Proof Sys2Proof.Machine Sys2Proof.Claims

/-! ### Decoding: words the manual writes out -/

/-- An envelope with nothing but a position. -/
def at_ (p : BitVec 5) : Env := ⟨p, 0, false, Pfx.empty⟩

/-- 08, the hand disassembly, header A. -/
theorem test_decode_bundle_a :
    decodeWords 1 [0x408A5080] = some ⟨at_ 1, .cmpi 2 5 1 16⟩ ∧ decodeWords 9 [0x06084100] = some ⟨at_ 9, .vmul 2 1 3 0⟩ ∧
    decodeWords 10 [0x00001142, 0x87C00086, 0x5ED78101, 0x0040057D] = some
      ⟨{ at_ 10 with pfx := { Pfx.empty with rnd := some (5, 8), sat := some (2, 0x87C000) } }, .vmul64 700 701 702 2⟩ := by
  decide +kernel

/-- 08, headers B and C; the prefix at 0x38 is an orphan. -/
theorem test_decode_bundle_b :
    decodeWords 0 [0x00010088] = some ⟨{ at_ 0 with pred := 1 }, .br 8⟩ ∧
    decodeWords 1 [0x0007A10A, 0x8030C100] = some
      ⟨{ at_ 1 with pfx := { Pfx.empty with imx := some 7812 } }, .addi 6 6 0x40⟩ ∧
    decodeWords 9 [0x0A308004] = some ⟨{ at_ 9 with hold := true }, .vadd 4 6 5 0⟩ ∧
    decodeWords 2 [0x1030E000] = some ⟨at_ 2, .add 7 6 8⟩ ∧ decodeWords 1 [0x00000042] = none := by
  decide +kernel

/-- 08, headers D to F. -/
theorem test_decode_bundle_d :
    decodeWords 1 [0xC4D12F01, 0x0091A2B3] = some ⟨at_ 1, .movi64 9 0x123456789A⟩ ∧
    decodeWords 8 [0x00426000] = some ⟨at_ 8, .pand 3 1 2 0 0⟩ ∧ decodeWords 0 [0x00000580] = some ⟨at_ 0, .retire⟩ ∧
    decodeWords 1 [0x12394080] = some ⟨at_ 1, .sub 10 7 9⟩ ∧ decodeWords 12 [0x18594300] = some ⟨at_ 12, .vmax 10 11 12 0⟩ := by
  decide +kernel

/-- 08, header A as a bundle: BW, T, its length and slots; E is a one-tick bundle; and a word that is no header. -/
theorem test_decode_headers :
    let code := [0x0D08180B, 0x408A5080, 0x06084100, 0x00001142, 0x87C00086, 0x5ED78101, 0x0040057D]
    (match decodeBundle fun n => .word (code.getD n 3) with
      | .ok b => (b.bw, b.t, b.g, b.len, b.words.length) == (13, true, false, 7, 3)
      | .error _ => false) = true ∧
    (match decodeBundle fun _ => .word 0x00000003 with
      | .ok b => (b.bw, b.len, b.words.length) == (0, 1, 0)
      | .error _ => false) = true ∧
    (match decodeBundle fun _ => .word 0x00000001 with
      | .ok _ => false
      | .error e => decide (e = .notHeader)) = true := by
  decide +kernel

/-- 09: LOOP after R248, TRAP and ERET after R265, the control-register read there. -/
theorem test_decode_control :
    decodeWords 0 [0xA0208301, 0x00000108] = some ⟨at_ 0, .loop 4 2 20 4 2⟩ ∧
    decodeWords 0 [0x00084E00] = some ⟨at_ 0, .trap 0x42⟩ ∧ decodeWords 0 [0x00000E80] = some ⟨at_ 0, .eret⟩ ∧
    decodeWords 1 [0x04186000] = some ⟨at_ 1, .add 3 3 2⟩ ∧ decodeWords 0 [0x00512F80] = some ⟨at_ 0, .crd 9 0x00A⟩ := by
  decide +kernel

/-- 10: the acquire after R287 and the copy of R178; 11: the example after R325 and that after R334. -/
theorem test_decode_memory_and_vector :
    decodeWords 3 [0x2C586101, 0x00000191] = some ⟨at_ 3, .ldacqLong 3 11 3 0 4 200 0⟩ ∧
    decodeWords 7 [0x0071A001, 0x00000020] = some ⟨at_ 7, .cpy 13 14 0 64⟩ ∧
    decodeWords 9 [0x00000D42, 0x328C8199, 0x000338CC] = some
      ⟨{ at_ 9 with pred := 3, pfx := { Pfx.empty with rnd := some (5, 6) } }, .vfma 100 101 102 103 0⟩ ∧
    decodeWords 8 [0x00048200] = some ⟨at_ 8, .pnot 4 2 0 0⟩ ∧
    decodeWords 9 [0x92087590] = some ⟨{ at_ 9 with pred := 2 }, .vcompress 3 1 9 1⟩ ∧
    decodeWords 9 [0x1418B620] = some ⟨{ at_ 9 with pred := 4 }, .vexpand 5 3 10 0⟩ := by
  decide +kernel

/-- 13: the words after R356 and R360; 09: TXCOMMIT; 10: CPREL; 19: SUB of the text form. -/
theorem test_decode_array_and_copy :
    decodeWords 5 [0x00228205, 0x152C007F] = some ⟨{ at_ 5 with hold := true }, .amm 20 2 127 0 0 1 1 1 0 21⟩ ∧
    decodeWords 5 [0x00086500] = some ⟨at_ 5, .amode 1 1 0 2⟩ ∧
    decodeWords 0 [0x0048AB80] = some ⟨at_ 0, .txcommit 5 1 1⟩ ∧ decodeWords 7 [0x08604500] = some ⟨at_ 7, .cprel 2 12 4⟩ ∧
    decodeWords 1 [0x0C28E080] = some ⟨at_ 1, .sub 7 5 6⟩ := by
  decide +kernel

/-- 08 R228: opcodes the tables leave free, reserved bits and a word of another class decode to nothing. -/
theorem test_decode_refuses :
    decodeWords 0 [0x00001F80] = none ∧ decodeWords 0 [0x80000E80] = none ∧ decodeWords 1 [0x00426000 ||| 0x80000000] ≠
      some ⟨at_ 8, .pand 3 1 2 0 0⟩ ∧ decodeWords 8 [0xE0426000] = none := by
  decide +kernel

/-! ### Well-formedness: one ill-formed term for each check -/

/-- A plain envelope in the first position of each class. -/
def inC : Env := at_ 0
/-- See `inC`. -/
def inS : Env := at_ 1
/-- See `inC`. -/
def inL : Env := at_ 3
/-- See `inC`. -/
def inA : Env := at_ 5
/-- See `inC`. -/
def inP : Env := at_ 7
/-- See `inC`. -/
def inQ : Env := at_ 8
/-- See `inC`. -/
def inV : Env := at_ 9

theorem test_wf_refuses_control :
    ([Instr.loop 4 2 20 0 17, .loopn 1 1 2 3 4 5 0 17, .fmtset64 7, .opset 0, .qmark 6, .fence 7, .txbegin 0, .txcommit 1 1 0,
      .snapnew 1 1 0, .snapset 1 1 0, .snapdrop 1 1 0, .crd 1 0x3F, .cwr 1 0x3F].all fun i => !i.wf inC) = true := by
  decide +kernel

theorem test_wf_refuses_scalar :
    ([Instr.cmp 10 1 2 1, .cmp64 15 1 2 1, .cmpi 10 1 1 0, .cmpi64 12 1 1 0, .fcmp 8 1 2 1, .fcmp64 8 1 2 1, .cvtf 1 2 5 0,
      .cvtf 1 2 0 7, .aird 1 0 6, .aiwr 1 0 7].all fun i => !i.wf inS) = true ∧
    ([Instr.fadd 1 2 3, .fsub 1 2 3, .fmul 1 2 3, .ffma 1 2 3 4].all fun i =>
      !i.wf { inS with pfx := { Pfx.empty with rnd := some (5, 8) } }) = true := by
  decide +kernel

theorem test_wf_refuses_memory :
    ([Instr.ld64 64 0 0 3 0, .ld64 1 80 0 3 0, .ld64 1 2 0 3 1, .ldacq64 1 2 0 0 0 6, .ldl 1 2 0 0 0 0, .ldl 1 80 0 0 1 0,
      .ldacqLong 1 2 0 0 6 1 0, .vld64 1 80 0 1, .vld64 1 2 0 0, .vldl 1 2 1 0 0, .vldb64 1 2 0 0, .vldx 1 2 3 0 0 0,
      .tld 1000 1 1 1 31 0 0, .tld 1 1 0 1 1 0 0, .st64 64 0 0 0, .strel64 1 2 0 0 6, .vst64 1 2 0 0, .vstm64 1 2 0 1 9,
      .vstx 1 2 3 0 0 0, .tst 1023 1 1 1 1].all fun i => !i.wf inL) = true := by
  decide +kernel

theorem test_wf_refuses_array_and_copy :
    ([Instr.ald 80 0 0 0 0, .ald 1 0 0 0 3, .ald 1 0 0 1 1, .alds 1 0 0 1 2, .azero 6, .amm 80 0 0 0 0 0 0 0 0 0,
      .amm 1 0 0 0 0 0 3 0 0 0, .amm 1 0 0 0 0 0 0 0 3 0, .amms 1 0 0 0 0 0 0 0 0 80, .aeval 80 0 0 0 0, .abwd 80 0 0 0 0 0,
      .agrad 1 0 80 0 0, .amode 1 1 3 2, .amode 1 3 0 2, .amode 1 1 0 5, .aout 1 0 3 0 0 0 0, .aouts 80 0 0 0 0 0 0,
      .agout 1 5 0 0 0, .agout 1 0 0 22 0, .acout 1 7 0 0 0, .scale 1 0 15 1, .scale 1 1 1 1, .scx 1 15 1].all fun i =>
        !i.wf inA) = true ∧
    ([Instr.cpys 1 2 63, .cpacc 1 2 3 0 6 0, .cpacc 1 2 3 0 3 0, .cpswap 1 2 3 0 0, .cpcas 1 2 3 4 0 0, .cpsend 60,
      .cpbinit 1 62, .cparr 1 2 0 6, .cprel 1 2 6, .cpstat 1 0].all fun i => !i.wf inP) = true := by
  decide +kernel

theorem test_wf_refuses_predicate_and_vector :
    ([Instr.pand 1 2 3 1 1, .por 1 2 3 1 1, .pxor 1 2 3 1 1, .pandn 1 2 3 1 1, .pnot 1 2 1 1, .pmov 1 2 1 1, .psetk 1 2 0 3,
      .pktom 1 2 0].all fun i => !i.wf inQ) = true ∧
    ([Instr.vadd64 1 2 3 9, .vsub64 1 2 3 9, .vmul64 1 2 3 9, .vfma 1 2 3 4 9, .vfms 1 2 3 4 9, .vmin64 1 2 3 9, .vabs64 1 2 9,
      .vrcp64 1 2 9, .vsin64 1 2 9, .vsilu64 1 2 9, .vshl64 1 2 3 0, .viadd64 1 2 3 0, .vimul64 1 2 3 1, .vcmp64 1 0 1 2 9 0,
      .vcmp64 1 0 1 2 0 1, .vicmp 1 1 2 6, .vicmp64 1 6 1 2 10 0, .vicmp64 1 0 1 2 0 0, .vsplat 1 2 3, .vsplat64 1 2 3,
      .viota 1 2 1 3 0, .vperm64 1 2 3 15, .vredadd64 1 2 0 1, .vredadd64 1 2 15 0, .vscan64 1 2 15 0, .vcompress64 1 2 3 0 15,
      .vexpand64 1 2 3 0 15, .vcvt 1 2 15 0 0 0 0, .vrnd 1 2 15 0 1, .vrng 1 2, .vpack 1 2 3 0, .vunpk 1 2 0 0 0 0,
      .vspcomp 40 32 44 6 0, .vblkscl 1 2 3 3 0 0].all fun i => !i.wf inV) = true := by
  decide +kernel

/-- 08 R217, R221, R225: a word outside its class's positions, H in class C, a prefix the word does not take, and a prefix payload
of another kind. -/
theorem test_wf_refuses_envelopes :
    Instr.wf (at_ 3) (.add 1 2 3) = false ∧ Instr.wf (at_ 17) (.vadd 1 2 3 0) = false ∧
    Instr.wf { inC with hold := true } .eret = false ∧
    Instr.wf { inS with pfx := { Pfx.empty with rnd := some (0, 0) } } (.add 1 2 3) = false ∧
    Instr.wf { inS with pfx := { Pfx.empty with sat := some (1, 0), imx := some 1 } } (.addi 1 2 3) = true ∧
    Instr.wf { inS with pfx := { Pfx.empty with sat := some (3, 0) } } (.add 1 2 3) = false := by
  decide +kernel

/-- The words of the decode tests are well-formed. -/
theorem test_wf_accepts :
    Instr.wf inS (.cmpi 2 5 1 16) = true ∧ Instr.wf inV (.vmul 2 1 3 0) = true ∧ Instr.wf inC (.loop 4 2 20 4 2) = true ∧
    Instr.wf inL (.ldacqLong 3 11 3 0 4 200 0) = true ∧ Instr.wf { inA with hold := true } (.amm 20 2 127 0 0 1 1 1 0 21) = true ∧
    Instr.wf inP (.cprel 2 12 4) = true ∧ Instr.wf inQ (.pnot 4 2 0 0) = true := by
  decide +kernel

/-! ### Single steps -/

/-- The state a word answers; reset where it stops. -/
def after (o : Host.Outcome State Fault Refusal) : State := match o with
  | .next t => t
  | _ => State.reset

/-- The youngest result owed. -/
def owed (o : Host.Outcome State Fault Refusal) : BitVec 512 := ((after o).ctx.q.results.getLast?.map fun r => r.val).getD 0

/-- Registers for the scalar tests: s1 = −2^63, s2 = −1, s4 = 7, s5 = the FP32 number of 09 after R276, k1 true. -/
def st : State := { State.reset with ctx := { Context.reset with regs := { Regs.reset with
  s := [(1, 0x8000000000000000), (2, 0xFFFFFFFFFFFFFFFF), (4, 7), (5, 0x3F80B400)], k := [(1, true)] } } }

/-- 09 R268, R269. -/
theorem test_divide_and_wrap :
    owed (exec (.div 3 1 2) st) = 0x8000000000000000 ∧ owed (exec (.rem 3 1 2) st) = 0 ∧
    owed (exec (.divn 3 4 6) st) = 0xFFFFFFFFFFFFFFFF ∧ owed (exec (.remn 3 4 6) st) = 7 ∧
    owed (exec (.sub 3 1 4) st) = 0x7FFFFFFFFFFFFFF9 ∧
    owed (exec (.sub 3 1 4) { st with env := { inS with pfx := { Pfx.empty with sat := some (1, 0) } } }) =
      0x8000000000000000 := by
  decide +kernel

/-- 09 R267, R271: counts are bits 5:0; a field that passes bit 63 reads zeros. -/
theorem test_shift_and_field :
    owed (exec (.sar 3 1 4) st) = 0xFF00000000000000 ∧ owed (exec (.shl 3 4 2) st) = 0x8000000000000000 ∧
    owed (exec (.rol 3 1 4) st) = 0x40 ∧ owed (exec (.bfx 3 2 60 7) st) = 0xF ∧ owed (exec (.bfi 4 2 8 3) st) = 0xF07 ∧
    owed (exec (.clz 3 6) st) = 64 ∧ owed (exec (.ctz 3 1) st) = 63 ∧ owed (exec (.addx 3 4 4 1) st) = 455 := by
  decide +kernel

/-- 09 R273, 08 R224: signed against unsigned. -/
theorem test_compare :
    owed (exec (.cmp 2 1 4 1) st) = 1 ∧ owed (exec (.cmp 6 1 4 1) st) = 0 ∧ owed (exec (.cmpi 0 2 1 63) st) = 1 := by
  decide +kernel

/-- 09 after R276: FP32 0x3F80B400 to BF16 under RNE and under RTZ. -/
theorem test_convert_bf16 :
    owed (exec (.cvtf 4 5 0 1) st) = 0x3F81 ∧
    owed (exec (.cvtf 4 5 0 1) { st with env := { inS with pfx := { Pfx.empty with rnd := some (1, 0) } } }) = 0x3F80 := by
  decide +kernel

/-- 04 after R131: the stochastic rounding of the same value, four random bits; it rounds up when they are at least 5. -/
theorem test_stochastic_rounding :
    roundFloat 1 ⟨5, 4, 5⟩ 0 (decodeFloat 0 0x3F80B400) = 0x3F81 ∧
    roundFloat 1 ⟨5, 4, 4⟩ 0 (decodeFloat 0 0x3F80B400) = 0x3F80 := by
  decide +kernel

/-- 04 after R133: four FP32 values to E4M3 by 1.5 × 2^−2. -/
theorem test_scale_convert :
    let m := (decodeFloat 0 0x3FC00000).mul (.fin false 1 (-2))
    scv 0 3 rne (0, 0) m 0x447A0000 = 0x7C ∧ scv 0 3 rne (0, 0) m 0x44A28000 = 0x7F ∧
    scv 0 3 rne (1, 0) m 0x44A28000 = 0x7E ∧ scv 0 3 rne (2, 0x43C80000) m 0x44A28000 = 0x7C ∧
    scv 0 3 rne (0, 0) m 0xBC000000 = 0x82 := by
  decide +kernel

/-- 01 before R30: the translation worked through: a 2 MiB leaf at entry 97 of the level-1 table. -/
theorem test_translation :
    let s : State := (((State.reset.setBytes 0x20148 (valBytes (0x30001#64) 8)).setBytes 0x30308
      (valBytes (0x3E600017#64) 8)).setBytes 0x10000 (valBytes (0x20001#64) 8))
    let s : State := { s with tenants := [(0, { Tenant.reset with en := true, troot := 0x10000 })] }
    (match (s.translate none 0 none 0xA4C217F40 .read).2 with | .ok pa _ => pa | _ => 0) = 0x3E617F40 ∧
      (s.translate none 0 none 0x10000000000000 .read).2 = .fault 0x08 3 ∧
      (s.translate none 0 none 0xA4C217F40 .exec).2 = .fault 0x09 6 := by
  decide +kernel

/-- 02 before R53: SWZ names bank field 9 where LIN names 10. -/
theorem test_swizzle : swizzle 0x413A80 = 0x413A40 ∧ hubOf 0x3E617F40 = 3 := by decide +kernel

/-- 09 after R265, step 2: the software trap's registers, and TNEXT the bundle after it. -/
theorem test_software_trap :
    let s : State := { st with
      issue := { Issue.reset with live := true, addr := 0x10040, next := 0x1004C }
      ctx := { st.ctx with c := { st.ctx.c with tvec := 0x20000 } } }
    let t := after (exec (.trap 0x42) s)
    t.ctx.c.tbund = 0x10040 ∧ t.ctx.c.tnext = 0x1004C ∧ t.ctx.pc = 0x20000 ∧ t.ctx.c.tcause.extractLsb' 32 16 = 0x42#16 ∧
      t.ctx.c.tcause.getLsbD 31 = true ∧ (after (exec .eret t)).ctx.pc = 0x1004C ∧ (after (exec .eret t)).inh = false := by
  decide +kernel

/-- 09 R262: a trap in the handler stops the context; R264: ERET outside one traps. -/
theorem test_double_trap :
    let s : State := { st with ctx := { st.ctx with c := { st.ctx.c with tcause := 0x80000002 } } }
    (after (exec .bkpt s)).ctx.st = .retired ∧ (after (exec .eret st)).issue.trap = some (0x02, 3, 0) := by
  decide +kernel

/-- Lanes for the vector tests, 11 after R334: v1 lane l = 10 + l, v5 all −1, m2 = 0x00A6, m4 = 0xFF59; v3 as VCOMPRESS leaves
it. -/
def sv : State := { State.reset with env := { inV with pred := 2 }, ctx := { Context.reset with regs := { Regs.reset with
  v := (List.range 16).map (fun l => (vkey 0 1 l, BitVec.ofNat 32 (10 + l))) ++
    ([11, 12, 15, 17].zipIdx.map fun x => (vkey 0 3 x.2, x.1)) ++
    (List.range 16).map (fun l => (vkey 0 5 l, 0xFFFFFFFF#32))
  m := [(2, 0x00A6), (4, 0xFF59)] } } }

/-- 11 after R334: VCOMPRESS.ZERO under m2, and VEXPAND under m4 with what it leaves. -/
theorem test_compress_expand :
    ((after (exec (.vcompress 3 1 9 1) sv)).ctx.q.results.map fun r => r.val) =
      [ofLanes fun l => [11, 12, 15, 17].getD l 0, 4] ∧
    ((after (exec (.vexpand 5 3 10 0) { sv with env := { inV with pred := 4 } })).ctx.q.results.map fun r =>
      r.val) = [ofLanes fun l => [11, 0xFFFFFFFF, 0xFFFFFFFF, 12, 15, 0xFFFFFFFF, 17, 0xFFFFFFFF].getD l 0, 12] := by
  decide +kernel

/-- 11 after R340: VSPCOMP on BF16 rows in v32 to v35. -/
theorem test_sparsity :
    let s : State := { State.reset with env := inV, ctx := { Context.reset with regs := { Regs.reset with
      v := [(vkey 0 32 0, 0x3F800000), (vkey 0 32 1, 0x80000000), (vkey 0 33 0, 0xC0400000), (vkey 0 33 1, 0x00004000),
            (vkey 0 34 0, 0x40400000), (vkey 0 34 1, 0x3E800000), (vkey 0 35 0, 0x3F000000), (vkey 0 35 1, 0x3E800000)] } } }
    ((after (exec (.vspcomp 40 32 44 6 1) s)).ctx.q.results.map fun r => r.val.extractLsb' 0 128) =
      [0x3E803E80000040004040C04000000000, 0, 0x4444444444444444444444444444E194, 1] := by
  decide +kernel

/-- 11 after R341: the block of −13.0: SCALE for E2M1X, then CODE of −13.0 and of 5.0. -/
theorem test_block_scale :
    blockScale 5 (some (f32 0xC1500000)) = (0x81, 0xC5) ∧ blockCode 0x81 0xC5 (f32 0xC1500000) = 8 ∧
    blockCode 0x81 0xC5 (f32 0x40A00000) = 2 := by
  decide +kernel

/-- A state with the barrier word of 10 after R308 in the local window at `0x40`, and a CPARR of phase `p` in engine 0. -/
def arriving (w0 : Word) (p : Bool) : State :=
  let c : CopyCmd :=
    { ident := 0, cid := 0, lid := 0, vc := 0, tid := 0, num := 1, qid := 1, ahead := [], buf := [], stamp := 0
      op := .cparr 0x40 p 0, land := none, st := .running, cursor := 0, failed := false, tx := none, snp := 0
      bundle := 0x10040, handler := false }
  { (((State.reset.setBytes (localPa 0 0x40) (valBytes w0 8)).setBytes (localPa 0 0x48) (valBytes (5#64) 8)).setBytes
      (localPa 0 0x50) (valBytes (0x1100000000#64) 8)) with copies := [c] }

/-- 10 after R308: steps 1 and 2, the table's arrivals of A. -/
theorem test_barrier_counts :
    ((after (exec .cparrApply (arriving 0x0000020000200002 false))).granule (localPa 0 0x40)) = some 0x0000020000100002 ∧
    ((after (exec .cparrApply (arriving 0x0000020000100002 true))).granule (localPa 0 0x40)) = some 0x0000020000100001 := by
  decide +kernel

/-- Steps 3 and 4: both flips. -/
theorem test_barrier_flips :
    ((after (exec .cparrApply (arriving 0x0000020000100001 false))).granule (localPa 0 0x40)) = some 0x8000020000100002 ∧
    ((after (exec .cparrApply (arriving 0x8000020000100002 true))).granule (localPa 0 0x40)) = some 0x0000020000200002 := by
  decide +kernel

/-- Step 7: an overrun leaves the word and is pending in its context. -/
theorem test_barrier_overrun :
    let t := after (exec .cparrApply (arriving 0x0000020000200000 true))
    t.granule (localPa 0 0x40) = some 0x0000020000200000 ∧ t.ctx.pend = [⟨0x0C, 0, 0x10040, 0, false⟩] := by
  decide +kernel

/-- 01 R8: the cellar's end. -/
theorem test_cellar_end : paOk 0x18000000000 = false ∧ paOk 0x17FFFFFFFFF = true := by decide +kernel

/-- The step after reset with one instruction placed runs it: TRAP 0x42 is decoded and taken. -/
theorem test_first_step :
    let t := after (step (State.reset.withFetchWord 32 0x00084E00))
    t.ctx.c.tcause = 0x000000428000000F ∧ t.ctx.c.tbund = 0x10000 ∧ t.ctx.c.tnext = 0x10008 := by
  decide +kernel

/-! ### Every statement's hypotheses are met: registers and memory words

One theorem for each statement, named `witness_` and the statement, with a conjunct for each of its clauses. -/

/-- What holds of the lanes below 16 holds of every lane of a mask. -/
theorem lanes_below {P : Nat → Prop} (m : BitVec 16) (h : ∀ k, k < 16 → m.getLsbD k = true → P k) :
    ∀ k, m.getLsbD k = true → P k := fun k hk =>
  h k (by by_contra hn; rw [BitVec.getLsbD_of_ge m k (by omega)] at hk; exact Bool.false_ne_true hk) hk

theorem witness_ScalarArithmeticResults :
    clean st [1, 2] ∧ st.sreg 1 = 0x8000000000000000 ∧ st.sreg 2 = BitVec.allOnes 64 ∧ st.pred = true ∧
      st.spois 63 = false ∧ st.kreg 1 = true ∧ st.kreg 2 = false := by
  unfold clean; decide +kernel

theorem witness_DivisionResults :
    (clean st [1, 2] ∧ st.sreg 1 = 0x8000000000000000 ∧ st.sreg 2 = BitVec.allOnes 64) ∧
    (clean st [4, 6] ∧ st.sreg 6 = 0) ∧ (clean st [1, 4] ∧ st.sreg 4 ≠ 0) := by
  unfold clean; decide +kernel

theorem witness_IntegerCompareResults :
    clean st [1, 2] ∧ clean st [1] ∧ (9 : BitVec 4).toNat ≤ 9 ∧ 10 ≤ (10 : BitVec 4).toNat ∧ 10 ≤ (15 : BitVec 4).toNat := by
  unfold clean; decide +kernel

theorem witness_WritesToConstantRegisters : clean st [1, 2] ∧ (0 : BitVec 4).toNat ≤ 9 := by
  unfold clean; decide +kernel

theorem witness_FloatIteratorAndDrawResults :
    clean st [5, 4, 0] ∧ (7 : BitVec 4).toNat ≤ 7 ∧ clean st [5] ∧ (5 : BitVec 3).toNat ≤ 5 := by
  unfold clean; decide +kernel

theorem witness_MasksAndPredicateLogicResults :
    lanesClean sv [1, 3] ∧ sv.lanes.getLsbD 7 = true ∧ (5 : BitVec 3).toNat ≤ 5 ∧ etInt 10 = true ∧ st.pred = true := by
  refine ⟨?_, ?_⟩
  · unfold lanesClean; decide +kernel
  · decide +kernel

/-- Addresses for the memory tests: s6 and s7 the last granule and the last line of the window, s8 the first address above it,
s9 the last granule below 2^52, s10 an odd address; all lanes of m1. -/
def sm : State := { State.reset with ctx := { Context.reset with regs := { Regs.reset with
  s := [(6, 0xFFFFF8), (7, 0xFFFFC0), (8, 0x1000000), (9, 0xFFFFFFFFFFFF8), (10, 0x41), (11, 0x1000000000)]
  m := [(1, 0x8001), (17, 0x8001)] } } }

theorem witness_ScalarLoadsEnterTheirQueues :
    sm.pred = true ∧ sm.spois 6 = false ∧
    accessOk sm (address (sm.base6 6) (8 * immediate sm (0 : BitVec 7))) 8 8 true 1 ∧
    accessOk sm (address (sm.base6 50) (8 * immediate sm (63 : BitVec 7))) 8 8 true 1 ∧
    accessOk sm (address (sm.base7 6) ((7 : BitVec 26).toInt)) (2 ^ 0) (2 ^ 0) true 1 ∧
    accessOk sm (address (sm.base7 8) ((0 : BitVec 19).toInt)) (2 ^ 3) (2 ^ 3) false 1 ∧
    accessOk sm (address (sm.base7 9) ((0 : BitVec 19).toInt)) (2 ^ 3) (2 ^ 3) false 1 := by
  unfold accessOk; decide +kernel

theorem witness_VectorLoadsAndPrefetch :
    (sm.pred = true ∧ sm.spois 7 = false ∧ accessOk sm (address (sm.base6 7) (64 * immediate sm (0 : BitVec 7))) 64 64 true 1) ∧
    linesOk sm (lines (address (sm.base7 7) ((-448 : BitVec 26).toInt)) 5 0xFF) 1 ∧
    (((List.range 8).filter fun n => (0x80 : BitVec 8).getLsbD n) ≠ [] ∧
      accessOk sm (address (sm.base7 7) ((0 : BitVec 26).toInt)) 64 64 true 1) ∧
    accessOk sm (address (sm.base7 8) (64 * (0 : BitVec 14).toInt)) (64 * 8) 64 false 1 ∧
    linesOk sm (tile (sm.base7 0).toNat 5 32 1 0x03) 1 ∧
    ((∀ n ∈ [0, 1], ∀ l, (sm.mreg n 1).getLsbD l = true → sm.vpois n 4 l = false) ∧
      ∀ e ∈ gathered sm (sm.base7 0) 4 0x03 3 1, accessOk sm e.1 4 4 true 1) ∧
    (∀ y ∈ ((tileUnits (sm.base7 0).toNat 5 32 1 2 [0, 1]).flatMap fun u => u.1).eraseDups, accessOk sm y 64 64 true 1) := by
  refine ⟨?_, ?_, ?_, ?_, ?_, ⟨fun n hn => lanes_below _ ?_, ?_⟩, ?_⟩
  · unfold accessOk; decide +kernel
  · unfold linesOk accessOk; decide +kernel
  · unfold accessOk; decide +kernel
  · unfold accessOk; decide +kernel
  · unfold linesOk accessOk; decide +kernel
  · revert n; decide +kernel
  · unfold accessOk; decide +kernel
  · unfold accessOk; decide +kernel

/-- PREF: an address of the window; and one above it whose page is in the TLB, in this package's cellar and cacheable. -/
def pf : State := { sm with
  clu := { sm.clu with tlb := [⟨0, 0x1000000000, 0x10000, 0x100DF⟩] }
  tenants := [(0, { Tenant.reset with en := true })] }

theorem witness_VectorLoadsAndPrefetch_pref :
    sm.spois 7 = false ∧ address (sm.base6 7) (128 * immediate sm (0 : BitVec 7)) / 128 * 128 < 0x1000000 ∧
    pf.spois 11 = false ∧ 0x1000000 ≤ address (pf.base6 11) (128 * immediate pf (0 : BitVec 7)) / 128 * 128 ∧
    (pf.translateCtx 0x1000000000 .read).2 = .ok 0x10000 0x100DF ∧ 0x10000 < 2 ^ 48 ∧ leafPeer 0x100DF = 0 ∧
    (0x100DF : Word).getLsbD 8 = false := by
  decide +kernel

theorem witness_StoresEnterTheQueue :
    (sm.pred = true ∧ sm.spois 6 = false ∧
      accessOk sm (address (sm.base6 6) (8 * immediate sm (0 : BitVec 7))) 8 8 false 2) ∧
    accessOk sm (address (sm.base7 9) ((0 : BitVec 26).toInt)) (2 ^ 3) (2 ^ 3) false 2 ∧
    accessOk sm (address (sm.base6 7) (64 * immediate sm (0 : BitVec 7))) 64 64 true 2 ∧
    (address (sm.base6 7) (64 * immediate sm (0 : BitVec 7)) % 64 = 0 ∧ ∀ k, (sm.mreg 0 1).getLsbD k = true →
      accessOk sm (address (sm.base6 7) (64 * immediate sm (0 : BitVec 7)) + 4 * k) 4 4 true 2) ∧
    linesOk sm (lines (address (sm.base7 7) ((-64 : BitVec 26).toInt)) 5 0x81) 2 ∧
    ((7 : BitVec 4).toNat < 8 ∧ address (sm.base7 7) ((0 : BitVec 26).toInt) % 64 = 0 ∧
      ∀ k, (sm.mreg 1 1).getLsbD k = true → accessOk sm (address (sm.base7 7) ((0 : BitVec 26).toInt) + 4 * k) 4 4 true 2) ∧
    linesOk sm (tile (sm.base7 0).toNat 5 32 2 0x03) 2 ∧
    ((∀ n, n < 8 → (0x03 : BitVec 8).getLsbD n = true → ∀ k, (sm.mreg n 1).getLsbD k = true → sm.vpois n 4 k = false) ∧
      ∀ e ∈ gathered sm (sm.base7 0) 4 0x03 3 1, accessOk sm e.1 4 4 true 2) := by
  refine ⟨?_, ?_, ?_, ⟨?_, lanes_below _ ?_⟩, ?_, ⟨?_, ?_, lanes_below _ ?_⟩, ?_, fun n hn hg => lanes_below _ ?_, ?_⟩
  · unfold accessOk; decide +kernel
  · unfold accessOk; decide +kernel
  · unfold accessOk; decide +kernel
  · decide +kernel
  · unfold accessOk; decide +kernel
  · unfold linesOk accessOk; decide +kernel
  · decide +kernel
  · decide +kernel
  · unfold accessOk; decide +kernel
  · unfold linesOk accessOk; decide +kernel
  · revert hg; revert n; decide +kernel
  · unfold accessOk; decide +kernel

theorem witness_MisalignedAccessTakesAlign :
    (sm.pred = true ∧ sm.inh = false ∧ sm.spois 10 = false ∧
      address (sm.base6 10) (8 * immediate sm (0 : BitVec 7)) % 8 ≠ 0 ∧
      address (sm.base7 10) ((0 : BitVec 26).toInt) % 2 ^ (1 : BitVec 2).toNat ≠ 0 ∧
      address (sm.base7 10) ((0 : BitVec 19).toInt) % 2 ^ (3 : BitVec 2).toNat ≠ 0 ∧
      address (sm.base6 10) (64 * immediate sm (63 : BitVec 7)) % 64 ≠ 0 ∧
      ((0x80 : BitVec 8) ≠ 0 ∧ address (sm.base7 10) ((0 : BitVec 26).toInt) % 64 ≠ 0) ∧
      address (sm.base7 10) (64 * (1 : BitVec 14).toInt) % 64 ≠ 0 ∧ (sm.base7 10).toNat % 64 ≠ 0 ∧
      ∃ e ∈ gathered sm (sm.base7 10) 4 0x03 2 1, e.1 % 4 ≠ 0) ∧
    (∀ n, n < 8 → (0x03 : BitVec 8).getLsbD n = true → ∀ k, (sm.mreg n 1).getLsbD k = true → sm.vpois n 4 k = false) ∧
    ((∀ k ∈ [(10 : BitVec 6), 6, 4, 5, 3], sm.spois k.toNat = false) ∧ (∀ k, k < 5 → sm.spois (6 + k) = false) ∧
      (sm.sreg 10).toNat % etySize (1 : BitVec 2).toNat ≠ 0 ∧
      (sm.sreg 10 + (0 : BitVec 20).setWidth 64).toNat % 2 ^ 40 % etySize (3 : BitVec 2).toNat ≠ 0 ∧
      (sm.sreg 10).toNat % 4 ≠ 0 ∧ (sm.sreg (6 + 4)).toNat % 64 ≠ 0 ∧ (sm.sreg 10).toNat % 32 ≠ 0 ∧
      (sm.sreg 10).toNat % 64 ≠ 0 ∧ (sm.sreg 10).toNat % 8 ≠ 0) ∧
    (let s : State := { sm with ctx := { sm.ctx with regs := { sm.ctx.regs with s := [(47, 2)] } } }
     s.spois 47 = false ∧ (s.sreg 47).toNat % 4 ≠ 0 ∧ s.pred = true) := by
  refine ⟨?_, fun n hn hg => lanes_below _ ?_, ?_⟩
  · decide +kernel
  · revert hg; revert n; decide +kernel
  · decide +kernel

/-! ### Hypotheses of the control statements -/

theorem witness_BranchesAndCalls :
    sm.pred = true ∧ (sm.spois 8 = false ∧ (sm.sreg 8).toNat % 4 = 0) ∧ sm.spois 47 = false ∧ (sm.sreg 47).toNat % 4 = 0 := by
  decide +kernel

/-- A context that issues at 0x10000, a page of code where one-tick bundles follow. -/
def sl : State := { State.reset with
  issue := { Issue.reset with live := true, addr := 0x10000, next := 0x1000C }
  mem := [(0x1000C, 3), (0x10010, 3), (0x10014, 3), (0x10018, 3), (0x1001C, 3)]
  clu := { ClusterState.reset with tlb := [⟨0, 0x10000, 0x10000, 0x100DF⟩] }
  tenants := [(0, { Tenant.reset with en := true })]
  ctx := { Context.reset with st := .issuing, pc := 0x1000C } }

/-- A context that may issue the one-tick bundle at 0x1000C; `h` its holds. -/
def si (h : List Hold) (q : Option Seq) : State :=
  { sl with issue := .reset, ctx := { sl.ctx with holds := h, seq := q } }

/-- A loop going on, at iteration 2. -/
def sq : State := { sl with
  issue := { sl.issue with iter := some 2 }
  ctx := { sl.ctx with seq := some ⟨0x10000, 0x1001C, [], 2, 4, [4, 1, 1, 1], 0, 0, 0, 4, none, false⟩ } }

theorem witness_LoopsStartAndEnd :
    (clean sl [4, 0, 0, 0] ∧
      (match sl.loopBody sl.issue.next ((sl.issue.next - sl.issue.addr) / 4) 4 2 sl.ctx.holds with
        | .ok (body, after) => decide (after = 0x1001C) &&
            decide (sl.energyBad sl.issue.weight (some (heaviest 2 sl.ctx.holds body)) = none)
        | .error _ => false) = true) ∧
    sl.ctx.seq = none ∧ sq.ctx.seq.isSome = true ∧ sq.issue.iter = some 2 ∧ sq.pred = true := by
  unfold clean; decide +kernel

/-- A context of control registers. -/
def sc (c : CRegs) : State := { State.reset with ctx := { Context.reset with c := c } }

theorem witness_WaitingYieldingRetiring :
    (let s := sc { CRegs.reset with flg := 0x80000000 }
     s.pred = true ∧ s.ctx.c.flg.getLsbD (31 : BitVec 5).toNat = true ∧ s.ctx.c.flg.getLsbD (0 : BitVec 5).toNat = false ∧
      s.ctx.c.gid.getLsbD 9 = false ∧ s.ctx.txState ≠ 1) ∧
    (let s := sc { CRegs.reset with gid := 0x205, txs := 4 }
     s.pred = true ∧ s.ctx.c.gid.getLsbD 9 = true ∧ s.ctx.txState = 1) := by
  decide +kernel

/-- The operating points the statements tell apart. -/
def so (o : Oper) : State := { st with clu := { st.clu with oper := o } }

theorem witness_SettingsWaitAndTakeEffect :
    (let s := so st.clu.oper
     s.pred = true ∧ s.spois 4 = false ∧ fmtWordOk (0x5A0312 : Word) = true ∧ (0x3FF : BitVec 10) ≠ 1 ∧
      s.clu.oper.settling = false ∧ s.clu.oper.mgmt = none ∧ s.clu.oper.back = none ∧ 0 < s.clu.oper.cur ∧ s.clu.oper.cur < 7) ∧
    ((so { st.clu.oper with settling := true }).clu.oper.settling = true ∧
      (so { st.clu.oper with mgmt := some 3 }).clu.oper.mgmt.isSome = true ∧
      (so { st.clu.oper with back := some 3 }).clu.oper.back.isSome = true) ∧
    (let s : State := { st with ctx := { st.ctx with settings := [⟨2, 0x3FF, 0⟩] } }
     s.ctx.settings = [⟨2, 0x3FF, 0⟩]) := by
  decide +kernel

theorem witness_ControlRegistersReadAndWrite :
    (st.pred = true ∧ (0x22 : BitVec 10) ≠ 0x23 ∧ st.ctx.seq = none ∧ st.ctx.c.gid.getLsbD 9 = false) ∧
    (sc { CRegs.reset with gid := 0x205 }).ctx.c.gid.getLsbD 9 = true := by
  decide +kernel

theorem witness_GroupsJoinsFences :
    (st.pred = true ∧ st.ctx.c.gid.getLsbD 9 = false ∧ st.coreHasMember = false ∧ st.joined 5 = true ∧
      st.fenced 2 5 = true ∧ st.dieDrained 2 5 = true) ∧
    (sc { CRegs.reset with gid := 0x205 }).ctx.c.gid.getLsbD 9 = true ∧
    (let s : State := { st with ctxs := [(3, { Context.reset with c := { CRegs.reset with gid := 0x205 } })] }
     s.coreHasMember = true) ∧
    (let s := storing st (.store [⟨0x40, 0xFF, some 1⟩] none) true false
     s.joined 9 = false ∧ s.fenced 3 9 = false ∧ s.dieDrained 4 9 = false) := by
  decide +kernel

theorem witness_TransactionsAndSnapshotsAsk :
    (st.pred = true ∧ st.ctx.txState = 0 ∧ st.spois 4 = false) ∧ (sc { CRegs.reset with txs := 4 }).ctx.txState = 1 := by
  decide +kernel

theorem witness_TrapsAndDoubleTraps :
    (st.pred = true ∧ st.inh = false ∧ st.ctx.txState ≠ 1) ∧ (sc { CRegs.reset with txs := 4 }).ctx.txState ≠ 0 ∧
    (sc { CRegs.reset with tcause := 0x80000002 }).inh = true := by
  decide +kernel

/-- A context in its handler, with what the trap saved. -/
def sh : State := { sc { CRegs.reset with tcause := 0x80000002, tnext := 0x1004C } with
  ctx := { (sc { CRegs.reset with tcause := 0x80000002, tnext := 0x1004C }).ctx with
    saved := some ⟨[], none, 0x1004C, [], none⟩ } }

/-- The same with a landing of the handler outstanding, frozen at its ERET. -/
def shOwes : State := { sh with ctx := { sh.ctx with
  q := { sh.ctx.q with landing := [⟨0, .txBegin, 3, .waiting, 0x20000, true, false⟩] }, freezes := [.eret] } }

theorem witness_ReturnsFromTheHandler :
    (sh.pred = true ∧ sh.inh = true ∧ sh.ctx.saved = some ⟨[], none, 0x1004C, [], none⟩ ∧ sh.ctx.q.handlerOwes = false ∧
      sh.ctx.c.tnext = 0x1004C) ∧
    (shOwes.inh = true ∧ shOwes.ctx.q.handlerOwes = true ∧ Freeze.eret ∈ shOwes.ctx.freezes) ∧
    (Freeze.eret ∈ ({ sh with ctx := { sh.ctx with freezes := [.eret] } } : State).ctx.freezes) ∧
    (st.inh = false ∧ st.ctx.q.sysc = [] ∧ (NatMap.get Tenant.reset st.tenants (st.tidOf st.ctx)).fqbase = 0 ∧
      st.fqOver.length < 65536) := by
  decide +kernel

/-! ### Hypotheses of the array statements -/

/-- The context owns its array, which holds a live plane of kind `k`, linear or spline. -/
def sa (k : PlaneKind) (spline : Bool) : State := { State.reset with
  core := { CoreState.reset with array := { ArrayState.reset with
    owner := some 0, spline := spline, g := 4, live := ⟨k, [], [], 0, 511, 63⟩ } }
  ctx := { Context.reset with regs := { Regs.reset with s := [(6, 0x1000), (7, 0x400000)] } } }

theorem witness_ArraySettingsNeedTheArray :
    owner (sa .none false) [4] ∧ 1 ≤ 1 ∧
    (clean st [4] ∧ st.inh = false ∧ st.core.array.owner ≠ some st.cur ∧ st.core.array.pass = none ∧
      Instr.aswap ∈ [Instr.aswap, .arefine, .azero 5, .amode 1 1 1 0, .scx 4 0 0, .sckey 4, .aupd 4 1]) := by
  unfold owner clean; decide +kernel

theorem witness_PlaneLoads :
    (let s := sa .none false
     let w (k : Nat) (l : Nat) : Load := ⟨(s.base7 6).toNat, k, 0, false, l⟩
     owner s [] ∧ s.spois 6 = false ∧
     (aldFmtOk s.ctx.c.fmt 0 63 = true ∧ streamsOk s [((w 63 0).image, imageAlign 0 (fmtB s.ctx.c.fmt))]
       (s.loadReads (w 63 0) ⟨false⟩ s.ctx.c.fmt 0) [] []) ∧
     (aldFmtOk s.ctx.c.fmt 2 63 = true ∧ streamsOk s [((w 63 2).image, imageAlign 2 (fmtB s.ctx.c.fmt))]
       (s.loadReads (w 63 2) ⟨true⟩ s.ctx.c.fmt 0) [] []) ∧
     streamsOk s [(address (s.base6 6) (512 * (0 : BitVec 13).toInt), 64)]
       [(address (s.base6 6) (512 * (0 : BitVec 13).toInt), 512)] [] [] ∧
     s.winBad [(address (s.base6 6) (512 * (0 : BitVec 13).toInt), 512)] = false ∧ s.ctx.streamed = [] ∧
     s.winBad [(0xFFFFFF, 1)] = false) := by
  unfold owner clean streamsOk; decide +kernel

theorem witness_MatrixPasses :
    (let s := sa .dense false
     let base := (s.base7 6).toNat
     owner s [] ∧ s.spois 6 = false ∧ ammFmtOk s.ctx.c.fmt 0 = true ∧ s.core.array.spline = false ∧
      s.core.array.live.kind = .dense ∧ s.core.array.poison = [] ∧ s.core.array.accPoison = [] ∧
      s.winBad (elemReads (fmtA s.ctx.c.fmt) (base % 2 ^ 64) (List.range 64)) = false ∧
      s.residues = [] ∧ streamsOk s [(base, 64)] (elemReads (fmtA s.ctx.c.fmt) (base % 2 ^ 64) (List.range 64)) [] []) ∧
    (let s := sa .sparse false
     let base := (s.base7 6).toNat
     owner s [] ∧ s.core.array.live.kind = .sparse ∧ liveCount s.core.array.live.bitmap ≤ 64 ∧
      streamsOk s [(base, 64)] (elemReads (fmtA s.ctx.c.fmt) (base % 2 ^ 64) (liveElems s.core.array.live 511)) [] []) := by
  unfold owner clean streamsOk; decide +kernel

/-- `sa` in spline or linear mode with its pass at step `k` of the word `i`, which is held; `l` its operands. -/
def atStep (spline : Bool) (i : Instr) (l : List Nat) (k : Nat) : State :=
  let s := sa (if spline then .spline else .dense) spline
  let p : Pass := { pass0 s i l with k := k, ran := true, row := List.replicate 128 0x3F800000 }
  { s with issue := { s.issue with held := true }, core := { s.core with array := { s.core.array with pass := some p } } }

/-- The pass of `atStep`. -/
def passAt (spline : Bool) (i : Instr) (l : List Nat) (k : Nat) : Pass :=
  { pass0 (sa (if spline then .spline else .dense) spline) i l with k := k, ran := true, row := List.replicate 128 0x3F800000 }

theorem witness_TrainingPassesAndUpdates :
    (let s := sa .spline true
     let x := (s.base7 6).toNat
     let d := (s.base7 7).toNat
     stepOf s (.aeval 6 256 0 0 1) [x] (pass0 s (.aeval 6 256 0 0 1) [x]) ∧
       stepOf s (.abwd 6 256 7 256 0 1) [x, d] (pass0 s (.abwd 6 256 7 256 0 1) [x, d]) ∧
       stepOf s (.agrad 6 256 7 256 1) [x, d] (pass0 s (.agrad 6 256 7 256 1) [x, d]) ∧
       (∀ r ∈ [(6 : BitVec 7), 7], r.toNat < 64 → s.spois r.toNat = false) ∧ s.core.array.spline = true ∧
       s.core.array.live.kind = .spline ∧ s.core.array.poison = [] ∧ s.core.array.trainBad s.ctx.c.fmt = false ∧
       streamsOk s [(x, 64)] [(x, 256)] [] [] ∧ streamsOk s [(x, 64), (d, 64)] [(x, 256)] [(d, 256)] [] ∧
       s.winBad [(x, 256), (d, 256)] = false) ∧
    (let i : Instr := .aeval 6 256 0 0 0
     let s := atStep true i [0x1000, 0] 127
     stepOf s i [0] (passAt true i [0x1000, 0] 127) ∧ s.upsets = [] ∧ s.residues = [] ∧ s.core.array.accPoison = [] ∧
       s.core.array.raccPoison = [] ∧ s.core.array.live.kind = .spline ∧ s.core.array.poison = [] ∧ 127 % 2 = 1) ∧
    (let i : Instr := .abwd 6 256 7 256 0 0
     stepOf (atStep false i [0x1000, 0x400000] 127) i [0, 0] (passAt false i [0x1000, 0x400000] 127) ∧
       (passAt false i [0x1000, 0x400000] 127).ran = true) ∧
    (let i : Instr := .abwd 6 256 7 256 0 0
     let s := atStep false i [0x1000, 0x400000] 126
     stepOf s i [0, 0] (passAt false i [0x1000, 0x400000] 126) ∧
       streamsOk s [] [] [(strideAt 0x400000 256 63, 256)] [] ∧ s.winBad [(strideAt 0x400000 256 63, 256)] = false) ∧
    (let i : Instr := .agrad 6 256 7 256 0
     let s := atStep true i [0x1000, 0x400000] 1
     stepOf s i [0, 0] (passAt true i [0x1000, 0x400000] 1) ∧ 1 ≤ s.core.array.g ∧ s.core.array.g ≤ 16) ∧
    (let i : Instr := .aupd 6 5
     let s := atStep true i [0x3F800000] 63
     stepOf s i [0] (passAt true i [0x3F800000] 63) ∧ s.core.array.g ≤ 16 ∧ s.core.array.poison = []) ∧
    (let s := sa .dense false
     stepOf s (.aupd 6 1) [(s.sreg 6).toNat % 2 ^ 32] (pass0 s (.aupd 6 1) [(s.sreg 6).toNat % 2 ^ 32]) ∧
       s.spois 6 = false ∧ s.core.array.trainBad s.ctx.c.fmt = false ∧ s.upsets = [] ∧ s.residues = []) ∧
    (let s := sa .spline true
     owner s [] ∧ s.core.array.spline = true ∧ s.core.array.g ≠ 16 ∧ s.core.array.poison = [] ∧ s.upsets = [] ∧
      s.core.array.g + (2 : BitVec 4).toNat + (2 : BitVec 4).toNat ∈ [1, 2, 4, 8, 16]) := by
  and_intros <;> (try unfold stepOf) <;> (try unfold owner clean) <;> (try unfold streamsOk) <;> decide +kernel

theorem witness_ArrayReadout :
    (let s := sa .dense false
     let base := (s.base7 6).toNat
     owner s [0] ∧ s.spois 6 = false ∧ s.upsets = [] ∧ s.core.array.poison = [] ∧ outFmtOk s.ctx.c.fmt = true ∧ s.core.array.accPoison = [] ∧
      s.core.array.raccPoison = [] ∧ outFits s.ctx.c.fmt 6 = true ∧
      streamsOk s [(base, 64)] [] [] [(base, 8 * codeWidth (fmtO s.ctx.c.fmt))] ∧ (19 : BitVec 5).toNat < 20) := by
  unfold owner clean streamsOk; decide +kernel

/-! ### Hypotheses of the statements about queues, copies and contexts -/

/-- Copy operands: s6 and s7 the ends of the window, s8 the first address above it, s12 geometry 2 rows of 64 B, s13 its strides
(128 up, 128 down), s14 a message descriptor's registers from here. -/
def sp : State := { State.reset with ctx := { Context.reset with regs := { Regs.reset with
  s := [(6, 0xFFFFC0), (7, 0xFFFFF8), (8, 0x1000000), (12, 0x200000040), (13, 0xFFFFFF8000000080), (14, 0x0000000000000002),
        (15, 0x10000), (16, 0x100), (17, 0x800000040), (18, 0x40), (20, 0xFF80)] } } }

theorem witness_CopyWordsQueueCommands :
    (∀ x ∈ [(6 : BitVec 6), 8, 12, 4, 5], sp.spois x.toNat = false) ∧ sp.spois 13 = false ∧ sp.pred = true ∧
    (operandOk sp 0xFFFFC0 1 [(0xFFFFC0, 64)] 2 ∧ operandOk sp 0x1000000 1 [(0x1000000, 64)] 1) ∧
    (operandOk sp 0xFF80 1 (rowsOf 0xFF80 64 2 128) 2 ∧ operandOk sp 0xFFFFC0 1 (rowsOf 0xFFFFC0 64 2 (-128)) 1) ∧
    (64 % 8 = 0 ∧ operandOk sp 0xFFFFC0 8 [(0xFFFFC0, 64)] 2 ∧ operandOk sp 0x1000000 8 [(0x1000000, 64)] 1) ∧
    operandOk sp 0xFFFFF8 8 [(0xFFFFF8, 8)] 2 ∧
    (∀ k, k < 5 → sp.spois (14 + k) = false) ∧
    (operandOk sp (sp.sreg 16).toNat 1 [((sp.sreg 16).toNat, (sp.sreg 17).toNat / 2 ^ 32 % 2 ^ 24)] 1 ∧
      operandOk sp (sp.sreg 18).toNat 64 [((sp.sreg 18).toNat, 64)] 1) ∧
    operandOk sp 0xFFFFC0 32 [(0xFFFFC0, 32)] 2 ∧ operandOk sp 0xFFFFC0 64 [(0xFFFFC0, 64)] 1 ∧
    operandOk sp 0xFFFFF8 8 [(0xFFFFF8, 8)] 2 := by
  and_intros <;> (try unfold operandOk) <;> decide +kernel

/-- A copy command of the focused context in engine 0, and its state. -/
def cmd (op : CopyOp) (land : Option Nat) (cur : Nat) : CopyCmd :=
  { ident := 0, cid := 0, lid := 0, vc := 0, tid := 0, num := 1, qid := 1, ahead := [], buf := [], stamp := 0, op := op, land := land
    st := .running, cursor := cur, failed := false, tx := none, snp := 0, bundle := 0x10040, handler := false }

/-- See `cmd`. -/
def sy (c : CopyCmd) : State := { State.reset with copies := [c], arg := { EvArgs.reset with a := 0 } }

theorem witness_CopyEnginesActAtTheirHomes :
    (let s : State := { State.reset with ctx := { Context.reset with
       q := { Queues.reset with copyq := [{ cmd (.cpy 0 64 8) none 0 with st := .queued }] } } }
     s.ctx.q.copyq = [{ cmd (.cpy 0 64 8) none 0 with st := .queued }] ∧
      s.arg.a = 2 * (s.cur / 32) + s.cur / 4 % 8 / 4 ∧ s.arg.a < 256 ∧ s.ctxs = [] ∧ s.copies = []) ∧
    (let s := arriving 0x0000020000200002 false
     let c := cmd (.cparr 0x40 false 0) none 0
     s.copyOf s.arg.a = some c ∧ c.ident < 8192 ∧ c.stopped = false ∧ s.copyTurn c = true ∧
      s.engLocal c 0x40 = localPa 0 0x40 ∧ unhindered s c (localPa 0 0x40) ∧ s.granule (localPa 0 0x40) = some 0x0000020000200002 ∧ s.granule (localPa 0 0x48) = some 5 ∧
      s.granule (localPa 0 0x50) = some 0x1100000000 ∧ s.granule (localPa 0 0x58) = some 0 ∧
      (0x0000020000200002 : Word).getLsbD 63 = false ∧ 2 ≤ (0x0000020000200002 : Word).toNat / 2 ^ 20 % 2 ^ 20) ∧
    (let s := arriving 0x0000020000000002 false
     let c := cmd (.cparr 0x40 false 0) none 0
     s.copyOf s.arg.a = some c ∧ s.copyTurn c = true ∧ unhindered s c (localPa 0 0x40) ∧
      s.granule (localPa 0 0x40) = some 0x0000020000000002 ∧ s.granule (localPa 0 0x48) = some 5 ∧
      c.cid = s.cur ∧ (0x0000020000000002 : Word).toNat / 2 ^ 20 % 2 ^ 20 = 0) ∧
    (let s := arriving 0x0000020000100002 false
     let c := cmd (.cparr 0x40 false 0) none 0
     s.copyOf s.arg.a = some c ∧ s.copyTurn c = true ∧ unhindered s c (localPa 0 0x40) ∧
      s.granule (localPa 0 0x40) = some 0x0000020000100002 ∧ (0x0000020000100002 : Word).getLsbD 63 = false ∧
      (0x0000020000100002 : Word).toNat / 2 ^ 20 % 2 ^ 20 = 1 ∧ (0x0000020000100002 : Word).toNat % 2 ^ 20 ≠ 0) ∧
    (let s := arriving 0x8000020000000001 false
     let c := cmd (.cparr 0x40 false 0) none 0
     s.copyOf s.arg.a = some c ∧ s.copyTurn c = true ∧ (0x8000020000000001 : Word).getLsbD 63 = true ∧
      (0x8000020000000001 : Word).toNat / 2 ^ 20 % 2 ^ 20 = 0 ∧ 1 ≤ (0x8000020000000001 : Word).toNat % 2 ^ 20) ∧
    (let s := arriving 0x8000020000100001 false
     s.copyTurn (cmd (.cparr 0x40 false 0) none 0) = true ∧ 1 ≤ (0x8000020000100001 : Word).toNat % 2 ^ 20 ∧
      1 ≤ (0x8000020000100001 : Word).toNat / 2 ^ 20 % 2 ^ 20) ∧
    (let s : State := { State.reset with launches := [(1, fetchLaunch)] }
     s.findPlace 1 0 0 0 = some 0 ∧ (0x100000100 : Word).getLsbD (32 + 0) = true ∧ 0 ≤ (0x100000100 : Word).toNat / 2 ^ 8 % 2 ^ 8 ∧
      ∀ clr b, (s.getCtx 0).st ≠ .waiting 5 clr b) ∧
    (let c := cmd (.cprel 0xFFFFF8 7 4) none 0
     (sy c).copyOf 0 = some c ∧ c.stopped = false ∧ (sy c).copyTurn c = true ∧ c.cid = (sy c).cur ∧ (sy c).halted = false ∧
      (sy c).peerReqs = [] ∧ (sy c).engLocal c 0xFFFFF8 = localPa 0 0xFFFFF8 ∧ unhindered (sy c) c (localPa 0 0xFFFFF8)) ∧
    (let c := { cmd (.cpy 0 64 8) none 8 with st := .written }
     (sy c).copyOf 0 = some c ∧ (sy c).copyDone c = true ∧ (sy c).halted = false ∧ c.op ≠ .cpstat) ∧
    (let c := cmd (.cpswap 0xFFFFF8 7 true) (some 3) 0
     (sy c).copyOf 0 = some c ∧ c.stopped = false ∧ (sy c).rmwWaits c = false ∧
      (sy c).engLocal c 0xFFFFF8 = localPa 0 0xFFFFF8 ∧ unhindered (sy c) c (localPa 0 0xFFFFF8) ∧ (sy c).granule (localPa 0 0xFFFFF8) = some 0 ∧ c.land = some 3 ∧ c.cid = (sy c).cur) := by
  and_intros <;> (try unfold unhindered) <;> first | decide +kernel | (intro clr b h; exact absurd h (by simp [State.getCtx, State.reset, Context.reset]))

/-- A CPSEND to place (0, 0, 0) of its launch, whose payload is written and whose message is read. -/
def sendCmd : CopyCmd :=
  { cmd (.cpsend 0 0x10000 0x100 0x800000040 0x40) none 8 with
    lid := 1, buf := (List.range 72).map fun i => (i, some 0) }

/-- See `sendCmd`. -/
def sn : State := { sy sendCmd with launches := [(1, fetchLaunch)], ctx := { Context.reset with st := .dormant } }

theorem witness_CopyEnginesActAtTheirHomes_send :
    (let got := sn.fetch 0 ((List.range 64).map ((0x800000040 : Word).toNat / 2 ^ 32 % 2 ^ 24 + ·))
     sn.copyOf sn.arg.a = some sendCmd ∧ sendCmd.stopped = false ∧ sendReserved 0 0x800000040 = false ∧
      sn.sendTarget sendCmd 0 = some 0 ∧ (0x800000040 : Word).toNat / 2 ^ 32 % 2 ^ 24 ≤ sendCmd.cursor ∧
      got.2 = .done ∧ got.1.copyOf 0 = some sendCmd ∧ (got.1.getCore 0).arrivals.length < 8) := by
  decide +kernel

/-! ### Hypotheses of the statements about landings, freezes, faults and contexts -/

/-- A focused context with some queues. -/
def sQ (q : Queues) : State := { State.reset with ctx := { Context.reset with q := q } }

theorem witness_WhatIsInFlightLands :
    (let x : Result := ⟨.sreg 63, 7, 1, 0, 3, false⟩
     (sQ { Queues.reset with results := [x] }).ctx.q.results[State.reset.arg.a]? = some x ∧ x.exact = false ∧
      x.lanes &&& State.reset.arg.mask.extractLsb' 0 16 = 0) ∧
    (let x : Result := ⟨.vreg 7 1023, 7, 0x8001, 0, 3, false⟩
     let part : BitVec 16 := x.lanes &&& (0x8000 : BitVec 128).extractLsb' 0 16
     part ≠ 0 ∧ part ≠ x.lanes ∧ x.lanes &&& (0x8001 : BitVec 128).extractLsb' 0 16 = x.lanes ∧ x.exact = false) ∧
    (let x : Result := ⟨.vreg 7 1023, 7, 0xFFFF, 0, 0, false⟩
     (sQ { Queues.reset with capture := [x] }).ctx.q.capture[State.reset.arg.a]? = some x ∧ x.left = 0 ∧
      (sQ { Queues.reset with capture := [x] }).inh = false) ∧
    (let l : Landing := ⟨0, .load (.scalar 5 3 false 0x40), 0, .granules [(0x40, some 9)], 0, false, false⟩
     (sQ { Queues.reset with landing := [l] }).ctx.q.landing.find? (fun l => l.id == State.reset.arg.a) = some l ∧
      l.kind = .load (.scalar 5 3 false 0x40) ∧ l.answer = .granules [(0x40, some 9)] ∧ l.left = 0 ∧
      l.handler = (sQ { Queues.reset with landing := [l] }).inh) ∧
    (let l : Landing := ⟨0, .swap 5, 3, .value 9 true, 0, false, true⟩
     (sQ { Queues.reset with landing := [l] }).ctx.q.landing.find? (fun l => l.id == State.reset.arg.a) = some l ∧
      l.kind = .swap 5 ∧ l.answer = .value 9 true ∧ l.eager = true) ∧
    ((sQ { Queues.reset with results := [⟨.sreg 5, 7, 1, 0, 0, false⟩] }).ctx.q.landing = [] ∧
      (sQ { Queues.reset with results := [⟨.sreg 5, 7, 1, 0, 0, false⟩] }).ctx.q.lq = []) := by
  decide +kernel

theorem witness_ResultsChangeTheirDestinationOnly :
    (63 : Nat) ≠ 0 ∧ 15 < 16 ∧ 1023 < 1024 ∧ (14 : Nat) ≠ 15 ∧ Dst.iter 15 4 ≠ .iter 15 5 ∧ Dst.kreg 7 ≠ .kreg 8 := by decide

/-- A focused context with some freezes. -/
def sF (f : List Freeze) (q : Queues) : State := { State.reset with ctx := { Context.reset with freezes := f, q := q } }

theorem witness_FreezesEnd :
    ((sF [.vjoin 3] .reset).ctx.freezes = [.vjoin 3] ∧ (sF [.vjoin 3] .reset).joined 3 = true) ∧
    ((sF [.fence 5 3] .reset).ctx.freezes = [.fence 5 3] ∧ (sF [.fence 5 3] .reset).fenced 5 3 = true) ∧
    ((sF [.fencep 7 3, .icm] .reset).fenced 4 3 = true ∧ (sF [.fencep 7 3, .icm] .reset).flights = [] ∧
      ∀ f ∈ [Freeze.icm], ∀ m n, f ≠ .fencep m n) ∧
    (let q := (storing st (.store [⟨0x40, 0xFF, some 1⟩] none) true false).ctx.q
     (sF [.vjoin 9] q).joined 9 = false ∧ (sF [.fence 3 9] q).fenced 3 9 = false) ∧
    ((sF [.fence 5 3] .reset).flights = [] ∧ (∀ f ∈ ([] : List Freeze), ∀ m n, f ≠ .fence m n)) ∧
    (let s : State := { si [] none with ctx := { (si [] none).ctx with
       freezes := [.icm], icms := [⟨.sreg 63, 0, 2, false⟩, ⟨.sreg 8, 0, 1, false⟩] } }
     Freeze.icm ∈ s.ctx.freezes ∧ (match s.boundary.planNext with
       | .ok p => !(s.boundary.planRegs p).contains (.sreg 63)
       | .error _ => false) = true) ∧
    (let e : StoreEntry := ⟨4, .mark 3, false, false, none, 0, false, .no⟩
     let s := sQ { Queues.reset with sq := [e] }
     s.ctx.q.sq = [e] ∧ e.kind = .mark 3 ∧ s.inFlight s.cur 3 = false ∧ s.commitOpen e.id e.handler = false ∧
      ∀ x ∈ s.ctx.q.lq, e.id ≤ x.id) ∧
    ((sF [.trapDrain] .reset).ctx.q.sq = [] ∧ Freeze.icm ∈ (sF [.icm] .reset).ctx.freezes) ∧
    (let s : State := { sl with ctx := { sl.ctx with freezes := [.ceiling] } }
     Freeze.ceiling ∈ s.ctx.freezes ∧ s.tickOver s.clusterId = true) ∧
    (let s : State := { sl with issue := .reset, ctx := { sl.ctx with freezes := [.slew] }, ctxs := [(4, sl.ctx)] }
     Freeze.slew ∈ s.ctx.freezes ∧ s.tickOver s.clusterId = false) := by
  and_intros
  all_goals first | decide +kernel | (intro f hf m n; simp at hf; simp [hf]) | (intro f hf m n; simp at hf)

theorem witness_SettingsPermutationsAndReleasesComplete :
    (owner (sa .none false) [6] ∧ (sa .none false).upsets = []) ∧ etPerm 14 = true ∧ lanesClean sv [1] ∧
    (State.reset.flights = [] ∧ (NatMap.get Tenant.reset State.reset.tenants (State.reset.tidOf State.reset.ctx)).fqbase = 0) := by
  refine ⟨⟨?_, ?_⟩, ?_, ?_, ?_, ?_⟩
  · unfold owner clean; decide +kernel
  · decide +kernel
  · decide +kernel
  · unfold lanesClean; decide +kernel
  · decide +kernel
  · decide +kernel

theorem witness_LateCausesTrap :
    (let l : Landing := ⟨0, .load (.scalar 5 3 false 0x40), 0, .fault 0x09 4 0x1000040, 0x10040, false, false⟩
     let s : State := { State.reset with ctx := { Context.reset with st := .issuing, q := { Queues.reset with landing := [l] } } }
     s.inh = false ∧ s.ctx.st = .issuing ∧ (NatMap.get Tenant.reset s.tenants (s.tidOf s.ctx)).fqbase = 0 ∧ s.ctx.q.landing = [l] ∧
      l.answer = .fault 0x09 4 0x1000040 ∧ l.handler = false ∧ l.left = 0) ∧
    (let x : Pending := ⟨0x09, 5, 0x10040, 0x1000040, false⟩
     ({ sl with ctx := { sl.ctx with pend := [x] } } : State).ctx.pend = [x] ∧ x.cause ≠ 0x0C ∧
      x.handler = false ∧ sl.ctx.q.landing = [] ∧ sl.inh = false) ∧
    (let l : Landing := ⟨0, .load (.scalar 5 3 false 0x40), 0, .fault 0x0A 0 0xFFFFFF, 0x10040, false, false⟩
     l.answer = .fault 0x0A 0 0xFFFFFF ∧ l.left = 0) ∧
    (∀ y ∈ [(⟨0x0C, 0, 0x10044, 0, false⟩ : Pending)], y.cause = 0x0C) ∧
    (let x : Pending := ⟨0x0C, 0, 0x10040, 0, false⟩
     ({ sl with ctx := { sl.ctx with pend := [x] } } : State).ctx.pend = [x] ∧ sl.ctx.st = .issuing ∧ x.cause = 0x0C) := by
  decide +kernel

theorem witness_LocalStoresPerform :
    (let g : Granule := ⟨0xFFFFF8, 0x81, some 0x0807060504030201⟩
     let e : StoreEntry := ⟨0, .store [g] none, true, true, none, 0, false, .no⟩
     let s := sQ { Queues.reset with sq := [e] }
     s.ctx.q.sq.find? (fun x => x.id == s.arg.a) = some e ∧ e.kind = .store [g] none ∧ e.local_ = true ∧
      s.storeReady e = true ∧ g.addr % 8 = 0 ∧ g.addr < 0x1000000 ∧ s.arg.b = 0 ∧ s.cur < 4096 ∧ s.core.ecc = false ∧
      s.clu.denied = [] ∧ s.upsets = [] ∧ s.flights = [] ∧
      g.data = some 0x0807060504030201) ∧
    (let g : Granule := ⟨0x40, 0xFF, none⟩
     let e : StoreEntry := ⟨0, .store [g] (some 5), true, false, none, 0, false, .no⟩
     let s := sQ { Queues.reset with sq := [e] }
     s.ctx.q.sq.find? (fun x => x.id == s.arg.a) = some e ∧ s.storeReady e = true ∧ g.data = none) := by
  decide +kernel

/-- The page tables of 01 before R30, as canonical memory: the level-3 table at page 1, level 2 at page 2, level 1 at page 3. -/
def walked (l1 : List Host.Cell) : State := { State.reset with
  mem := [(0x10000, 0x01), (0x10001, 0x00), (0x10002, 0x02)].filter (fun c => c.2 != 0) ++
    [(0x20148, 0x01), (0x2014A, 0x03)] ++ l1
  tenants := [(0, { Tenant.reset with en := true, troot := 0x10000 })]
  arg := { EvArgs.reset with a := 127, b := 0, w := 0xA4C217F40, flag := true } }

/-- The leaf of the worked translation: V, RD, W, LEAF, frame 0x3E600000. -/
def leafCells : List Host.Cell := [(0x30308, 0x17), (0x3030A, 0x60), (0x3030B, 0x3E)]

theorem witness_WalksAndTranslations :
    (let s := walked leafCells
     s.arg.a < 128 ∧ (NatMap.get Tenant.reset s.tenants s.arg.b).en = true ∧ s.arg.w.toNat < 2 ^ 52 ∧
      s.walkVia (some s.arg.a) s.arg.b s.arg.w.toNat = .leaf 0x30308 0x200000 0x3E600017 ∧ s.arg.flag = true ∧
      (0x3E600017 : Word).getLsbD 2 = true) ∧
    (let s := walked []
     s.walkVia (some s.arg.a) s.arg.b s.arg.w.toNat = .fault 1 ∧ s.walk s.arg.b s.arg.w.toNat = .fault 1) ∧
    (let s := State.reset
     s.arg.a = s.clusterId ∧ s.clusterId < 128 ∧ s.clu.denied = []) ∧
    (let s : State := { State.reset with arg := { EvArgs.reset with mask := 1#128 <<< 7 ||| 1#128 <<< 2 }
                                         clu := { ClusterState.reset with tick := 14 } }
     s.arg.a = s.clusterId ∧ s.arg.mask = 1#128 <<< 7 ||| 1#128 <<< 2 ∧ s.clu.denied = [] ∧
       (7 + 11 - s.clu.tick % 11) % 11 < (2 + 11 - s.clu.tick % 11) % 11) ∧
    (let s : State := { State.reset with arg := { EvArgs.reset with b := 1023, mask := 1#128 <<< 7 }
                                         clu := { ClusterState.reset with denied := [(23, 63)] } }
     s.arg.a = s.clusterId ∧ s.arg.b % 64 = 63 ∧ s.clu.denied = [(7 + 16, 63)]) ∧
    (State.reset.window none (2 ^ 52 - 1) .read = none ∧ (NatMap.get Tenant.reset State.reset.tenants 255).en = false) ∧
    ((NatMap.get Tenant.reset pf.tenants 0).en = true ∧
      (pf.getClu 0).tlb.find? (fun e => e.hits 0 0x1000000000 && (!(Access.write).wr || e.leaf.getLsbD 7 || !e.leaf.getLsbD 2)) = some ⟨0, 0x1000000000, 0x10000, 0x100DF⟩ ∧
      leafPeer 0x100DF = 0 ∧ (0x100DF : Word).getLsbD 7 = true) ∧
    (let s := walked [(0x30308, 0x01), (0x3030A, 0x04), (0x40008, 0x17), (0x4000B, 0x3E)]
     points s (s.word64 (0x10000 + 8 * slice 0xA4C217F40 39 13)) 0x20 ∧
      points s (s.word64 (0x20000 + 8 * slice 0xA4C217F40 30 9)) 0x30 ∧
      points s (s.word64 (0x30000 + 8 * slice 0xA4C217F40 21 9)) 0x40 ∧
      (s.word64 (0x40000 + 8 * slice 0xA4C217F40 16 5)).getLsbD 0 = true ∧
      (s.word64 (0x40000 + 8 * slice 0xA4C217F40 16 5)).getLsbD 4 = true) ∧
    (State.reset.word64 0).getLsbD 0 = false := by
  and_intros <;> (try unfold points) <;> decide +kernel

theorem witness_ContextsWakeAndEnd :
    (let s : State := { State.reset with ctxs := [(4095, { Context.reset with
       st := .waiting 31 true 0, c := { CRegs.reset with flg := 0x80000000 } })], arg := { EvArgs.reset with a := 4095 } }
     s.cur < 4096 ∧ s.arg.a < 4096 ∧ (s.getCtx s.arg.a).st = .waiting 31 true 0 ∧
      (s.getCtx s.arg.a).c.flg.getLsbD 31 = true) ∧
    (let s : State := { sl with ctx := { sl.ctx with st := .blocked } }
     (s.getCtx s.arg.a).st = .blocked ∧ s.hasRoom s.arg.a = true) ∧
    (let x : Arrival := ⟨0, 0x10000, 0x100, 0x40, 8, 0x80, 7⟩
     let s : State := { State.reset with ctx := { Context.reset with st := .dormant }
                                         core := { CoreState.reset with arrivals := [x] } }
     s.arg.a = s.cur ∧ s.ctx.st = .dormant ∧ s.core.arrivals.find? (fun y => y.ctx == s.cur) = some x) ∧
    ((sF [.dormancy] .reset).idle = true ∧ Freeze.dormancy ∈ (sF [.dormancy] .reset).ctx.freezes) ∧
    ((sF [.retire] .reset).idle = true ∧ Freeze.retire ∈ (sF [.retire] .reset).ctx.freezes ∧
      (sF [.retire] .reset).ctx.txState = 0) := by
  and_intros <;> decide +kernel

/-! ### Hypotheses of the vector statements -/

theorem witness_VectorFloatResults :
    lanesClean sv [1, 3, 5] ∧ sv.lanes.getLsbD 1 = true ∧ sv.lanes.getLsbD 0 = false := by
  refine ⟨?_, by decide +kernel, by decide +kernel⟩
  unfold lanesClean; decide +kernel

theorem witness_SpecialFunctionResults : lanesClean sv [1] ∧ f32 0x7FC00000 = .nan ∧ f32 0xFF800001 = .nan := by
  refine ⟨?_, by decide +kernel, by decide +kernel⟩
  unfold lanesClean; decide +kernel

theorem witness_VectorIntegerAndLogicResults : lanesClean sv [1, 3] ∧ etInt 10 = true ∧ etInt 14 = true := by
  refine ⟨?_, by decide +kernel, by decide +kernel⟩
  unfold lanesClean; decide +kernel

theorem witness_VectorMovesAndPoisonedLanes :
    ((2 : BitVec 2) ≠ 3 ∧ sv.spois 9 = false) ∧
    (let s : State := { sv with ctx := { sv.ctx with regs := { sv.ctx.regs with vpoison := [(vkey 0 1 7, true)] } } }
     s.inh = false ∧ s.lanes.getLsbD 7 = true ∧ s.vpois s.group 1 7 = true) := by
  decide +kernel

theorem witness_ReductionsAndPermutations : etPerm 0 = true ∧ etPerm 14 = true ∧ lanesClean sv [1] := by
  refine ⟨by decide +kernel, by decide +kernel, ?_⟩
  unfold lanesClean; decide +kernel

theorem witness_VectorConversionAndSparsityResults :
    (sv.spois 0 = false ∧ vcvtOk 0 3 3 = true ∧ vcvtOk 1 0 1 = true ∧ vrndOk 0 1 = true ∧ vpackOk 10 = true ∧
      vunpkOk 9 10 1 = true ∧ vspcompOk 1 44 32 40 = true) ∧
    (lanesClean sv [1, 3] ∧ lanesClean sv []) ∧
    (∀ l k, l < 16 → k < 4 → sv.vpois sv.group (32 + k) l = false) ∧
    ({ sv with env := { inV with pred := 6 }, ctx := { sv.ctx with regs := { sv.ctx.regs with m := [(6, 1)] } } } :
      State).lanes = 1 := by
  refine ⟨by decide +kernel, ⟨?_, ?_⟩, ?_, by decide +kernel⟩
  · unfold lanesClean; decide +kernel
  · unfold lanesClean; decide +kernel
  · have h : ∀ l, l < 16 → ∀ k, k < 4 → sv.vpois sv.group (32 + k) l = false := by decide +kernel
    exact fun l k hl hk => h l hl k hk

/-! ### Hypotheses of the statements about issue, groups and operating points -/

/-- Whether a state's bundle due has a plan with a property. -/
def planned (s : State) (p : Plan → Bool) : Bool := match s.prep.2 with
  | some x => p x
  | none => false

/-- A loop of one body bundle with an ADD, at tick 1 of 4. -/
def loopSeq : Seq := ⟨0x10000, 0x10010, [(0x1000C, 4, false, [⟨inS, .add 1 2 3⟩])], 1, 4, [4, 1, 1, 1], 0, 0, 0, 1, none, false⟩

/-- A word held from the bundle before. -/
def heldAdd : Hold := ⟨⟨{ inV with hold := true }, .vadd 4 6 5 0⟩, false⟩

/-- A member of group 5 of tenant 0, stopped at the bundle at `pc`; `l` says whether lock-step is in force. -/
def inGroup (pc n : Nat) (l : Bool) : Context := { sl.ctx with
  pc := pc, members := n, freezes := [.lockstep], c := { CRegs.reset with gid := if l then 0x305 else 0x205 } }

/-- Group 5 of tenant 0, whose members are contexts 0 and 4; a G bundle stands at 0x1000C and bundles without G after it. -/
def grouped (pc0 pc4 : Nat) (l : Bool) : State := { sl with
  issue := .reset, mem := [(0x1000C, 3), (0x1000E, 0x10), (0x10010, 3), (0x10014, 3)]
  ctx := inGroup pc0 2 l, ctxs := [(4, inGroup pc4 2 l)], arg := { EvArgs.reset with b := 5 } }

/-- The state once no member of group 5 waits for the others. -/
def freed (s : State) : State := (s.memberIds s.arg.a s.arg.b).foldl
  (fun s id => s.modCtx id fun c => { c with freezes := c.freezes.filter fun f => f != .lockstep }) s

/-- Every member of group 5 is frozen at its bundle, in lock-step, and may issue it. -/
def goes (s : State) : Prop := ∀ id ∈ s.memberIds s.arg.a s.arg.b, id < 4096 ∧ (s.getCtx id).c.gid.getLsbD 8 = true ∧
  ((freed s).focus id).mayIssue = true ∧ s.hasRoom id = true ∧ Freeze.lockstep ∈ (s.getCtx id).freezes ∧
  s.launchOf (s.getCtx id) = none

theorem witness_BundlesIssueGroupsTick :
    (planned (si [] none) (fun p => p.words.all fun x => x.2.2) = true ∧ (si [] none).prep.1.ctx.seq = none) ∧
    planned { si [heldAdd] none with mem := [(0x1000C, 3), (0x1000F, 6), (0x10010, 3)] } (fun p => p.words.any fun x => x.2.2) = true ∧
    planned (si [] (some loopSeq)) (fun p => p.words.any fun x => !x.2.2) = true ∧
    (si [] (some loopSeq)).prep.1.ctx.seq.isSome = true ∧
    State.reset.mayIssue = false ∧
    (let s := grouped 0x1000C 0x1000C false
     s.memberIds s.arg.a s.arg.b = [0, 4] ∧ ∀ id ∈ s.memberIds s.arg.a s.arg.b, id < 4096 ∧
       (s.getCtx id).members = (s.memberIds s.arg.a s.arg.b).length ∧ (s.getCtx id).c.gid.getLsbD 8 = false ∧
       Freeze.lockstep ∈ (s.getCtx id).freezes ∧ s.nextG id = true) ∧
    (let s := grouped 0x10010 0x10014 true
     goes s ∧ (∀ id ∈ s.memberIds s.arg.a s.arg.b, ((freed s).memberTry id).2 = true) ∧
       ∀ id ∈ s.memberIds s.arg.a s.arg.b, s.nextG id = false) ∧
    (let s := grouped 0x1000C 0x1000C true
     goes s ∧ ∀ id ∈ s.memberIds s.arg.a s.arg.b, ((freed s).memberTry id).2 = true ∧ s.nextG id = true) ∧
    (let s := grouped 0x1000C 0x10010 true
     goes s ∧ s.memberIds s.arg.a s.arg.b = [0, 4] ∧ ((freed s).memberTry 0).2 = true ∧ ((freed s).memberTry 4).2 = true ∧
       s.nextG 0 = true ∧ s.nextG 4 = false) ∧
    (let s : State := { grouped 0x1000C 0x1000C true with
       mem := [(0x1000C, 0x13), (0x1000E, 0x10), (0x1000F, 1), (0x10011, 0xE0), (0x10012, 0x30), (0x10013, 0x10), (0x10014, 3)]
       clu := { sl.clu with slew := ⟨9000, 0⟩ } }
     goes s ∧ s.memberIds s.arg.a s.arg.b = [0, 4] ∧ ((freed s).memberTry 0).2 = false) ∧
    (let s : State := { State.reset with clus := [(127, { ClusterState.reset with tick := 3 })],
                                         arg := { EvArgs.reset with a := 127 } }
     s.arg.a < 128 ∧ (∀ n, n < 4 - (s.getClu s.arg.a).tick % 4 →
         State.tickOver ((List.range n).foldl (fun s _ => s.nextTick s.arg.a) s) s.arg.a = true) ∧
       (s.getClu s.arg.a).oper.settling = false) ∧
    (si [] none).tickOver 0 = false := by
  and_intros <;> (try unfold goes) <;> decide +kernel

/-! ### Hypotheses of the statements about power, versioned memory and the queues -/

/-- Cluster 127 with an operating point, the event's arguments `127, b`. -/
def opSt (o : Oper) (b : Nat) : State := { State.reset with
  clus := [(127, { ClusterState.reset with oper := o, tick := 100 })], arg := { EvArgs.reset with a := 127, b := b } }

theorem witness_OperatingPointsFollowPowerAndHeat :
    (let s := opSt ⟨5, 5, true, false, none, none, 5, 100, none⟩ 0
     s.arg.a < 128 ∧ (s.getClu 127).oper.settling = true ∧ s.settleDue 127 = true ∧ (s.getClu 127).oper.mgmt = none ∧
       (s.getClu 127).oper.step = (s.getClu 127).oper.tgt ∧ (s.getClu 127).oper.queued = none) ∧
    (let s := opSt ⟨4, 7, true, false, none, none, 5, 100, none⟩ 7
     s.settleDue 127 = true ∧ (s.getClu 127).oper.step < (s.getClu 127).oper.tgt ∧ s.arg.b < 8 ∧
       (s.getClu 127).oper.back = none ∧ (s.getClu 127).oper.settling = true) ∧
    (let s := opSt ⟨5, 1, true, false, none, none, 5, 100, none⟩ 0
     s.settleDue 127 = true ∧ (s.getClu 127).oper.tgt < (s.getClu 127).oper.step) ∧
    (let s := opSt ⟨6, 6, false, false, none, none, 6, 0, none⟩ 7
     s.arg.b < 8 ∧ (s.getClu 127).oper.settling = false ∧ (s.getClu 127).oper.cur < s.arg.b) ∧
    (let s := opSt ⟨0, 0, false, true, none, none, 0, 0, some 5⟩ 7
     s.arg.b < 8 ∧ (s.getClu 127).oper.back = some 5) ∧
    State.reset.mgmt.power ≠ .off ∧ (∀ x ∈ State.reset.launches, x.2.st ≠ .running) ∧
    (∃ x ∈ ({ State.reset with launches := [(1, launchOf .reset 0 ⟨[], false, false, 0, 0, 0, none⟩ [0])] } : State).launches,
      x.2.st = .running) ∧ State.reset.holders 127 [] = [] ∧
    (let s : State := { State.reset with arg := { EvArgs.reset with a := 7, temp := 420 } }
     s.arg.a < 8 ∧ s.arg.flag = false ∧ NatMap.get false s.mgmt.tripped 7 = false ∧ 420 ≤ s.arg.temp ∧ 360 ≤ s.arg.temp ∧
       (s.getClu 127).oper.back = none ∧ (s.getClu 127).oper.mgmt = none ∧ (s.getClu 127).oper.settling = false) ∧
    (let s : State := { State.reset with arg := { EvArgs.reset with a := 7, temp := 240 } }
     s.arg.temp ≤ 240 ∧ s.arg.temp ≤ 348 ∧ s.arg.temp < 420) := by
  and_intros <;> decide +kernel

/-- A transaction of context 4095 that works at line 33, whose home is hub 1. -/
def txIn (st : TxSt) (e : LineEntry) : State := { State.reset with
  cclk := 9, pclk := 9, turn := true, txs := [(3, ⟨4095, 0, 5, none, st⟩)], dir := [(33, e)]
  arg := { EvArgs.reset with a := 3, b := 1 } }

/-- A granule with two bytes of data, at the top of line 33. -/
def autoG : Granule := ⟨0x10F8, 0x81, some 0x1122334455667788⟩

/-- The tentative version a transaction holds at line 33. -/
def tent (n : Nat) : NatMap TRec := [(n, .tentative 7 0)]

theorem witness_StampsPreparesPublishes :
    (State.reset.txs.all (fun x => !State.reset.voted x.1) = true ∧ State.reset.autoQ = [] ∧ State.reset.halted = false ∧
      State.reset.upsets = [] ∧ unwatched State.reset) ∧
    (let w : AutoWrite := ⟨33, .write [autoG], .store 4095 7, 0, true, false⟩
     let s : State := { State.reset with autoQ := [w], dir := [(33, ⟨0, [], [], none, []⟩)] }
     s.txs = [] ∧ s.autoQ = [w] ∧ s.lineFree 33 = true ∧ s.groupRoom [] 33 = true ∧ s.cclk + 1 < 0xFFFFFF00000001 ∧
       autoG.addr % 8 = 0 ∧ autoG.addr / 128 = 33 ∧ autoG.data = some 0x1122334455667788 ∧
       (s.lineEntry 33).stamp ≤ s.cclk ∧ s.unpublished = []) ∧
    (let w : AutoWrite := ⟨33, .write [autoG], .store 4095 7, 0, true, false⟩
     let s : State := { State.reset with autoQ := [w], cclk := 0xFFFFFFFFFFFFFF }
     s.txs = [] ∧ s.autoQ = [w] ∧ w.src = .store 4095 7 ∧ s.cclk = 0xFFFFFFFFFFFFFF) ∧
    (let x : StoreEntry := ⟨0, .store [⟨0x1000000000, 0xFF, some 1⟩] none, false, false, none, 0x10040, false, .no⟩
     let s : State := { sQ { Queues.reset with sq := [x] } with
       cclk := 0xFFFFFFFFFFFFFF, clu := { ClusterState.reset with tlb := [⟨0, 0x1000000000, 0x10000, 0x102DF⟩] }
       tenants := [(0, { Tenant.reset with en := true })] }
     s.ctx.q.sq = [x] ∧ s.arg.a = x.id ∧ s.arg.b = 0 ∧ s.core.ecc = false ∧ s.storeReady x = true ∧
       s.translateCtx 0x1000000000 .write = (s, .ok 0x10000 0x102DF) ∧ leafPeer 0x102DF = 0 ∧ leafVer 0x102DF = true) ∧
    (let c := cmd (.cpacc 0x1000000000 0x40 8 0 3) none 8
     let w : AutoWrite := ⟨33, .update 3 0 8 [(0x1080, 1)], .copy 0 0 0, 0, true, false⟩
     let s : State := { State.reset with copies := [c], autoQ := [w], cclk := 0xFFFFFFFFFFFFFF }
     s.txs = [] ∧ s.autoQ = [w] ∧ w.src = .copy 0 0 0 ∧ s.copyOf 0 = some c ∧ c.st = .running ∧ s.colls = []) ∧
    (let s := txIn (.committing 0 [1] []) ⟨4, [], tent 3, some 3, []⟩
     s.txs = [(3, ⟨4095, 0, 5, none, .committing 0 [1] []⟩)] ∧ s.voted 3 = true ∧ s.autoQ = [] ∧ s.cclk + 1 < 0xFFFFFF00000001) ∧
    (let s := txIn (.committing 0 [] []) ⟨5, [], tent 3, none, []⟩
     hubOf (128 * 33) = s.arg.b ∧ NatMap.find? s.txs 3 = some ⟨4095, 0, 5, none, .committing 0 [] []⟩ ∧ s.txLines 3 1 = [33] ∧
       NatMap.find? (s.lineEntry 33).recs 3 = some (.tentative 7 0) ∧ s.recordOkReserve 1 144 = true ∧
       (s.lineEntry 33).lock = none ∧ (s.lineEntry 33).merge = [] ∧ max (s.lineEntry 33).stamp 0 ≤ 5) ∧
    (let s := txIn (.committing 0 [] []) ⟨6, [], tent 3, none, []⟩
     s.txLines 3 1 = [33] ∧ s.recordOkReserve 1 144 = true ∧ 5 < (s.lineEntry 33).stamp) ∧
    (let s : State := { txIn (.committing 0 [] []) ⟨5, [], tent 3, some 4, []⟩ with
       txs := [(3, ⟨4095, 0, 5, none, .committing 0 [] []⟩), (4, ⟨0, 0, 5, none, .committing 0 [1] []⟩)] }
     s.txLines 3 1 = [33] ∧ (s.lineEntry 33).lock = some 4 ∧ s.older 3 4 = true) ∧
    (NatMap.find? (txIn (.committing 0 [] [1]) ⟨5, [], tent 3, none, []⟩).txs 3 =
      some ⟨4095, 0, 5, none, .committing 0 [] [1]⟩) ∧
    (let s : State := { txIn (.stamped 0 9 []) ⟨5, [], tent 3, some 3, []⟩ with unpublished := [9] }
     s.writeSet 3 = [33] ∧ s.txs = [(3, ⟨4095, 0, 5, none, .stamped 0 9 []⟩)] ∧ s.unpublished = [9] ∧ 9 ≤ s.cclk ∧
       (s.lineEntry 33).recs = tent 3 ∧ (s.lineEntry 33).stamp < 9) := by
  refine ⟨⟨?_, ?_, ?_, ?_, fun i => ?_⟩, ?_⟩
  case refine_5 => show (NatMap.get (0x0C000000#64) [] i).getLsbD 0 = false; simp [NatMap.get, NatMap.find?]
  all_goals and_intros <;> decide +kernel

theorem witness_CollectorKeepsWhatIsVisible :
    (let s := { txIn .active ⟨8, [⟨4, 1, 0⟩, ⟨2, 1, 0⟩], [], none, []⟩ with arg := { EvArgs.reset with a := 3 } }
     s.arg.a < 4 ∧ (s.dir.map Prod.fst).Nodup ∧ s.lowWater = 5) ∧
    (let s := txIn .active ⟨8, [⟨4, 1, 0⟩], [], some 3, []⟩
     (s.lineEntry 33).lock.isSome = true ∧ hubOf (128 * 33) ≠ 0) ∧ State.reset.arg.b = 0 := by
  decide +kernel

/-! ### Hypotheses of the statements about queues, launches and firmware -/

/-- A line of the cellar in its cache, dirty or not. -/
def lineIn (pa : Nat) (d : Bool) : Nat × List (Nat × Bool) := (cacheSet pa, [(pa / 128, d)])

/-- Page tables of tenant 0 that map the first 2 MiB to those of the cellar from 0x200000, and more memory. -/
def paged (m : List Host.Cell) : State := { State.reset with
  cached := [lineIn 0x10000 false, lineIn 0x20000 false, lineIn 0x30000 true]
  mem := [(0x10000, 0x01), (0x10002, 0x02), (0x20000, 0x01), (0x20002, 0x03), (0x30000, 0xD7), (0x30002, 0x20)] ++ m
  tenants := [(0, { Tenant.reset with en := true, troot := 0x10000 })] }

theorem paged_reaches : reaches (paged []) 0 0x1FFFF8 0x3FFFF8 .write := by
  refine ⟨0x2000D7, ?_⟩; decide +kernel

/-- Queue 8191 of tenant 0, some memory behind the tables, the event's argument `8191, b, c` and its word. -/
def qd (w : WQueue) (m : List Host.Cell) (b : Nat) (v : Word) : State := { paged m with
  queues := [(8191, w)], arg := { EvArgs.reset with a := 8191, b := b, w := v } }

/-- A queue that is on, its tail word at 0x40. -/
def qOn : WQueue := { WQueue.reset with en := true, poll := true, qtail := 0x40 }

/-- A command of a queue: its record's words and how far it has come. -/
def qCmd (ws : List Word) (st dn : Bool) (prog : Nat) : Command := ⟨ws, st, dn, 0, prog, 0, none⟩

/-- Queue 8191 with one command. -/
def qWith (c : Command) (m : List Host.Cell) : State := qd { qOn with cmds := [c] } m 0 0

theorem unwatched_of (s : State) (h : s.hwpc = []) : unwatched s := by
  intro i; rw [h]; simp [NatMap.get, NatMap.find?]

/-- Queue 8191 with one record new, whose first word is 0x1002, its ring at 0x80. -/
def recordIn : State := qd { qOn with qbase := 0x80 } [(0x200040, 1), (0x200080, 2), (0x200081, 0x10)] 0 0

/-- The words of that record. -/
def recordWord (i : Nat) : Word := if i = 0 then 0x1002 else 0

theorem record_reaches : ∀ i, i < 16 → reaches recordIn 0 (0x80 + 8 * i) (0x200080 + 8 * i) .read ∧
    recordIn.granule (0x200080 + 8 * i) = some (recordWord i) := by
  have h : ∀ i, i < 16 → (recordIn.translate none 0 none (0x80 + 8 * i) .read = (recordIn, .ok (0x200080 + 8 * i) 0x2000D7) ∧
      leafPeer 0x2000D7 = 0 ∧ leafVer 0x2000D7 = false ∧ (0x80 + 8 * i) % 8 = 0 ∧ (0x200080 + 8 * i) % 8 = 0 ∧
      (0x200080 + 8 * i) / spaceSize = 0) ∧ recordIn.granule (0x200080 + 8 * i) = some (recordWord i) := by decide +kernel
  exact fun i hi => ⟨⟨0x2000D7, (h i hi).1⟩, (h i hi).2⟩

theorem witness_QueuesRunTheirCommands :
    ((qd qOn [] 0 0).queue 8191).en = true ∧ (State.reset.queue 8191).en = false ∧
    ((qd qOn [] 0 0).fwRuns = true ∧ (State.reset.tenant 0).vsaved = false ∧ (qd qOn [] 0 0).queue 8191 = qOn) ∧
    qOn.cmds.any Command.holdsHead = false ∧ noWaitv [] ∧
    (let s : State := { qd qOn [] 0 0 with tenants := [] }
     s.ringOk 0 0x40 = false) ∧
    (reaches (qd qOn [] 0 0) 0 0x40 0x200040 .read ∧ (qd qOn [] 0 0).upsets = [] ∧ unwatched (qd qOn [] 0 0)) ∧
    (qd qOn [] 0 0).granule 0x200040 = some 0 ∧ (qd qOn [(0x200040, 17)] 0 0).granule 0x200040 = some 17 ∧
    ((qd { qOn with qbase := 0x40000000 } [(0x200040, 1)] 0 0).granule 0x200040 = some 1 ∧
      (qd { qOn with qbase := 0x40000000 } [(0x200040, 1)] 0 0).ringOk 0 0x40000000 = false) ∧
    (∀ i, i < 16 → reaches recordIn 0 (0x80 + 8 * i) (0x200080 + 8 * i) .read ∧
      recordIn.granule (0x200080 + 8 * i) = some (recordWord i)) ∧
    (0 < 256 ∧ (0xFFFFFFFFFF00FFFF : Word).getLsbD 0 = true ∧
      reaches (qd { qOn with en := false } [] 0 0xFFFFFFFFFF00FFFF) 0 0x40 0x200040 .read ∧
      (qd { qOn with en := false } [] 0 0xFFFFFFFFFFFFFFFF).ringOk 255 0x40 = false) ∧
    ((qWith (qCmd [10] false false 0) []).mgmt.recov = false ∧
      (qWith (qCmd [10] false false 0) []).candidates.head? = some (.cmd 8191 0) ∧ (qCmd [10] false false 0).op = 10 ∧
      (qWith (qCmd [11] false false 0) []).candidates.head? = some (.cmd 8191 0) ∧ 10 < (qCmd [11] false false 0).op) ∧
    State.reset.candidates = [] ∧
    ((qCmd [2, 0] true true 0).launch = none ∧ (qCmd [2, 0] true true 0).word 1 = 0 ∧
      (qWith (qCmd [2, 0] true true 0) []).quiet 8191 = true) ∧
    (let c : Command := { qCmd [2, 0x40] true true 0 with phase := 2 }
     (qWith c []).cpOut 8191 = false ∧ ({ qWith c [] with pclk := 0, queues := [(8191, { qOn with cmds := [c], outStamp := 1 })] } :
       State).cpOut 8191 = true ∧ c.phase = 2 ∧ (qWith c []).fwRuns = true) ∧
    (let s := qWith (qCmd [2, 0x1FFFF8] true true 0) []
     (qCmd [2, 0x1FFFF8] true true 0).word 1 ≠ 0 ∧ reaches s 0 0x1FFFF8 0x3FFFF8 .write ∧ unwatched s) := by
  refine ⟨?_, ?_, ?_, ?_, ?_, ?_, ⟨⟨0x2000D7, ?_⟩, ?_, unwatched_of _ rfl⟩, ?_, ?_, ?_, record_reaches, ⟨?_, ?_, ⟨0x2000D7, ?_⟩, ?_⟩, ?_, ?_, ?_, ?_,
    ?_, ⟨0x2000D7, ?_⟩, unwatched_of _ rfl⟩ <;> decide +kernel

/-- A one-cluster launch's record: OP, and the argument block at 0x9000. -/
def launchRec (op : Word) : List Word := [op, 0, 7, 0x10000, 0x9000, 0, 0, 0, 0x1000]

/-- A launch of queue 8191 on cluster 0, one core with one context, in a state. -/
def lrun (st : LaunchSt) : Launch :=
  { launchOf (qWith (qCmd (launchRec 1) false false 0) []) 8191 (qCmd (launchRec 1) false false 0) [0] with st := st }

theorem witness_LaunchesArePlaced :
    (let c := qCmd (launchRec 1) false false 1
     let s := qWith c []
     s.arg.a = 8191 ∧ s.fwRuns = true ∧ (s.queue 8191).cmds = [c] ∧ s.tenantWaits 0 = false ∧ noWaitv [] ∧
       c.prog ≠ 0 ∧ s.reserveTests.freeLid = some 1 ∧ s.reserveTests.mapping 0 (c.word 8) [] = some [0] ∧ c.op = 1 ∧
       s.candidates.head? = some (.cmd 8191 0) ∧ (launchOf s 8191 c [0]).contexts = [((0, 0, 0), 0)]) ∧
    (let c := qCmd (launchRec 7) false false 1
     let s := qWith c []
     (s.queue 8191).cmds = [c] ∧ s.reserveTests.freeLid = some 1 ∧ s.reserveTests.mapping 0 (c.word 8) [] = some [0] ∧
       c.op = 7 ∧ s.candidates.head? = some (.cmd 8191 0) ∧ (s.reserveTests.cursorNow 8191 c).2 = some 0) ∧
    (let c := qCmd [7, 0, 7, 0x40000000, 0, 0, 0, 0, 0x1000] false false 1
     let s := qWith c []
     s.reserveTests.mapping 0 (c.word 8) [] = some [0] ∧ s.candidates.head? = some (.cmd 8191 0) ∧
       (s.reserveTests.cursorNow 8191 c).2 = none) ∧
    (let s := { qWith (qCmd (launchRec 1) false false 0) [] with mgmt := { Mgmt.reset with recov := true } }
     s.fwRuns = true ∧ s.mgmt.recov = true ∧ (s.queue 8191).cmds = [qCmd (launchRec 1) false false 0]) ∧
    (let c := qCmd [1, 0, 0, 0, 0, 0, 0, 0, 0x80] false false 0
     (qWith c []).mgmt.recov = false ∧ (c.word 8).toNat / 2 ^ 7 % 2 = 1) ∧
    (let c := qCmd [1, 0, 0, 0xFFFFFFFFFFFFF, 0, 0x80000000, 0, 0, 0, 0x1FFFFFFFFFFFFFF] false false 0
     c.op = 1 ∧ c.word 8 = 0 ∧ (c.word 3).toNat < 2 ^ 52 ∧ (c.word 5).toNat % 2 ^ 31 = 0 ∧ (c.word 6).toNat % 2 ^ 16 = 0 ∧ (c.word 9).toNat < 2 ^ 57 ∧
       fieldsClear c false [3, 4, 5, 6, 7, 8, 9]) := by
  and_intros <;> (try unfold fieldsClear) <;> decide +kernel

/-- Launch 1, running with PRE in context 0. -/
def lPre (st : LaunchSt) : Launch := { lrun st with words := [1, 0, 7, 0x10000, 0x9000, 0, 0, 0, 0x801000] }

/-- An update job of one record of one element, MOUT to WOUT apart from PIN, POUT at 0x80. -/
def lJob : Launch := { lrun .running with words := [7, 0, 7, 0x100, 0, 0, 0, 0, 0x80F700] ++ List.replicate 7 0 ++
  [0, 1, 0, 0, 0, 0, 0, 0, 0x80, 0x84, 0x88, 0x8C, 0, 0, 0, 0] }

/-- Queue 8191 with a command, and a launch 1. -/
def withL (c : Command) (l : Launch) : State := { qWith c [] with launches := [(1, l)] }

/-- The same, where the first 2 MiB are a peer's. -/
def jobBlocked : State := { withL { qCmd [7, 0, 7, 0x100] true false 1 with launch := some 1 } lJob with
  mem := [(0x10000, 0x01), (0x10002, 0x02), (0x20000, 0x01), (0x20002, 0x03), (0x30000, 0xD7), (0x30002, 0x20), (0x30007, 1)]
  tenants := [(0, { Tenant.reset with en := true, troot := 0x10000, peert := [(1, 0x8000)] })]
  route := [(0, 0x8000), (4096, 0x8000), (8192, 0x8000), (12288, 0x8000)] }

/-- Whether the processors' reads wait, or have bytes. -/
def gotIs (g : CpGot) (wait : Bool) : Bool := match g with
  | .wait => wait
  | .bytes _ => !wait
  | .fail => false

theorem withL_reserves (s : State) (w : WQueue) (c : Command) (h : s.queues = [(8191, w)]) (hc : w.cmds = [c])
    (ht : ∀ t, c.testing t = false) : s.reserveTests = s := by
  unfold State.reserveTests; rw [h]; simp [hc, ht]

theorem testing_of (c : Command) (h : c.op ≠ 8) (t : Nat) : c.testing t = false := by simp [Command.testing, h]

theorem witness_LaunchesAreSavedAndResumed :
    (let s := { withL (qCmd [1, 0, 8, 0x10000, 0, 0, 0, 0, 0x107F] false false 1) (lPre .running) with
       queues := [(8191, { qOn with pri := 1, cmds := [qCmd [1, 0, 8, 0x10000, 0, 0, 0, 0, 0x107F] false false 1] })] }
     s.fwRuns = true ∧ s.arg.flag = false ∧ NatMap.find? s.launches 1 = some (lPre .running) ∧ saves s 1 (lPre .running) false ∧
       s.reserveTests = s ∧ s.firstLaunch.bind s.candShape = some (1, 0, 0x107F) ∧ s.mapping 0 0x107F [] = none ∧
       s.victims 1 0 0x107F = [1] ∧ ∀ x ∈ s.launches, x.2.halt = none) ∧
    (let s := { withL (qCmd (launchRec 1) false false 1) (lPre .running) with cur := 28 }
     s.reserveTests = s ∧ s.firstLaunch.bind s.candShape = some (0, 0, 0x1000) ∧ (s.mapping 0 0x1000 []).isSome = true ∧
       ∀ x ∈ s.launches, x.2.halt = none) ∧
    (let s := { withL (qCmd [10] true false 1) (lPre (.saved false)) with arg := { EvArgs.reset with a := 1 } }
     s.arg.a = 1 ∧ s.candidates.head? = some (.saved 1) ∧ (lPre (.saved false)).st = .saved false ∧
       s.reserveTests.mapping (lPre (.saved false)).tid (lPre (.saved false)).shape [] = some [0] ∧
       restorable s.reserveTests (lPre (.saved false)) [0]) ∧
    (let c := qCmd [9, 0, 0, 8191, 7] true false 0
     let s := withL c (lPre .running)
     runs s 8191 c [] ∧ c.op = 9 ∧ fieldsClear c false [3, 4, 5, 6] ∧ (s.tenant 0).vsaved = false ∧ c.word 3 ≠ 0 ∧
       (lPre .running).shape.getLsbD 23 = true ∧ saves s 1 (lPre .running) true ∧
       s.namedLaunch 0 8191 7 .running = some (1, lPre .running)) ∧
    (let c := qCmd [9, 0, 0, 0, 0, 8191, 7] true false 1
     let s := withL c (lPre (.saved true))
     runs s 8191 c [] ∧ fieldsClear c false [3, 4, 5, 6] ∧ c.word 5 ≠ 0 ∧
       s.namedLaunch 0 8191 7 (.saved true) = some (1, lPre (.saved true)) ∧
       s.reserveTests.mapping 0 (lPre (.saved true)).shape [] = some [0] ∧ restorable s.reserveTests (lPre (.saved true)) [0]) ∧
    (let c : Command := { qCmd [7, 0, 7, 0x100] true false 1 with launch := some 1 }
     let s := withL c lJob
     let x := s.jobInputs 8191 0 lJob.words 0
     let w := s.cpWrite 8191 0 0x110 (valBytes (1#64) 8)
     runs s 8191 c [] ∧ c.phase = 0 ∧ s.quiet 8191 = true ∧ lJob.st = .running ∧ gotIs x.2.1 false = true ∧
       ((x.1.cpDrop 8191).jobOutputs 8191 0 lJob.words 0 x.2.2).2 = .done ∧
       s.cpOut 8191 = false ∧ (s.queue 8191).refused = false ∧ w.2 = .done ∧ w.1.cpOut 8191 = false ∧
       gotIs (jobBlocked.jobInputs 8191 0 lJob.words 0).2.1 true = true ∧ jobBlocked.quiet 8191 = true) ∧
    Memory.wf State.reset.mem = true := by
  refine ⟨⟨?_, ?_, ?_, ?_, withL_reserves _ _ _ rfl rfl (testing_of _ (by decide)), ?_, ?_, ?_, ?_⟩,
    ⟨withL_reserves _ _ _ rfl rfl (testing_of _ (by decide)), ?_⟩, ?_, ?_, ?_, ?_, ?_⟩
  all_goals and_intros
  all_goals (try unfold runs); (try unfold fieldsClear); (try unfold saves)
  all_goals decide +kernel

theorem witness_FirmwareCommandsRun :
    (let s : State := { State.reset with arg := { EvArgs.reset with a := 255 } }
     s.arg.a ≠ 0 ∧ s.arg.a < 256 ∧ (∀ x ∈ s.queues, x.2.tid = s.arg.a → ∀ d ∈ x.2.cmds, d.op ≠ 9) ∧
       ∀ x ∈ s.launches, x.2.halt = none) ∧
    (let c := qCmd [0x3002, 0, 0, 0x1FFFF8, 4, 0xFF] true false 0
     let s := qWith c [(0x3FFFF8, 5)]
     runs s 8191 c [] ∧ c.op = 2 ∧ fieldsClear c true [3, 4, 5] ∧ (c.word 0).toNat / 4096 ≤ 3 ∧
       reaches s 0 0x1FFFF8 0x3FFFF8 .read ∧ s.upsets = [] ∧ unwatched s ∧
       (s.granule 0x3FFFF8 = some 5 ∧ s.flights = [] ∧ ∀ d ∈ s.copies, d.ident ≠ 16384 + 8191)) ∧
    (fieldsClear (qCmd [2, 0, 0, 0x41] true false 0) true [3, 4, 5] ∧ (qCmd [2, 0, 0, 0x41] true false 0).word 3 % 8 ≠ 0) ∧
    (let c := qCmd [3, 0, 0, 0x40, 9] true false 0
     runs (qWith c []) 8191 c [] ∧ c.op = 3 ∧ c.word 5 = 0 ∧ fieldsClear c false [3, 4]) ∧
    (let c := qCmd [3, 0, 0, 0x40, 9, 1] true false 0
     c.word 5 = 1 ∧ fieldsClear c false [3, 4, 5] ∧ (c.word 3).toNat % 8 = 0) ∧
    (let c := qCmd [3, 0, 0, 0x47, 9, 1] true false 0
     fieldsClear c false [3, 4, 5] ∧ (c.word 3).toNat % 8 ≠ 0) ∧
    (let c := qCmd [4, 0, 0, 0x40, 0x80, 0xFFFFFFFFFF] true false 0
     c.op = 4 ∧ fieldsClear c false [3, 4, 5] ∧ (c.word 5).toNat < 2 ^ 40) ∧
    (let c := qCmd [5, 0, 0, 0x40, 0x80, 0x10000000000] true false 0
     c.op = 5 ∧ fieldsClear c false [3, 4, 5] ∧ (c.word 5).toNat / 2 ^ 40 ≠ 0) ∧
    (let c := qCmd [6, 0, 0, 0, 0, 0x40] true false 0
     let s := qWith c []
     runs s 8191 c [] ∧ fieldsClear c false [3, 4, 5] ∧ reaches s 0 0x40 0x200040 .write ∧ unwatched s ∧ s.snaps = [] ∧
       (0 < (s.tenant 0).snq ∧ s.quiet 8191 = true ∧ s.clockSettled = true)) ∧
    (let c : Command := { qCmd [6, 0, 0, 0, 0, 0x40] true false 0 with phase := 1 }
     let s : State := { qWith c [] with peerReqs := [⟨0, 0, .ack (cpTag 8191) 0 8⟩] }
     runs s 8191 c [] ∧ fieldsClear c false [3, 4, 5] ∧ s.cpOut 8191 = true ∧ (qWith c []).cpOut 8191 = false ∧
       ({ qWith (qCmd [6, 0, 0, 0, 0, 0x40] true false 0) [] with dir := [(9, ⟨1, [], [], none, []⟩)] } : State).clockSettled = false) ∧
    (let c := qCmd [6, 0, 0, 1, 0x10000] true false 0
     let s : State := { qWith c [] with snaps := [(0, ⟨.live, 1, 0, 0, 0⟩)] }
     fieldsClear c false [3, 4, 5] ∧ s.liveSnap 0 0x10000 = some (0, ⟨.live, 1, 0, 0, 0⟩) ∧
       (qWith c []).liveSnap 0 0x10000 = none) ∧
    fieldsClear (qCmd [10] true false 0) false [] ∧
    (let c := qCmd [8, 0, 0, 0, 0, 0x40] true false 0
     fieldsClear c false [3, 4, 5] ∧ (qWith c []).queue 8191 = { qOn with cmds := [c] } ∧ (c.untested = [] ∧ (qWith c []).quiet 8191 = true) ∧
       ((qd { qOn with tid := 255, cmds := [c] } [] 0 0).queue 8191).tid ≠ 0) ∧
    (let c := qCmd [8, 0, 0, 1, 0, 0x40] true false 0
     let s : State := { qWith c [] with
       clu := { ClusterState.reset with reserved := true }, arg := { EvArgs.reset with a := 8191, c := 2 } }
     (c.untested ≠ [] ∧ s.quiet 8191 = true) ∧ fieldsClear c false [3, 4, 5] ∧ c.word 3 = 1 ∧ c.word 4 = 0 ∧ (s.getClu 0).reserved = true ∧
       s.arg.c < 3 ∧ reaches s 0 0x40 0x200040 .write ∧ unwatched s) ∧
    (let c := qCmd [9] true false 1
     c.op = 9 ∧ fieldsClear c false [3, 4, 5, 6] ∧ ((qWith c []).tenant 0).vsaved = false ∧ c.word 3 = 0 ∧
       (c.word 4 = 0 ∧ c.word 5 = 0 ∧ c.word 6 = 0 ∧ c.prog = 1)) ∧
    ((qCmd [9] true false 0).prog = 0 ∧ (qCmd [6, 0, 0, 0, 0, 0x40] true false 0).phase = 0) := by
  refine ⟨?_, ⟨?_, ?_, ?_, ?_, ⟨0x2000D7, ?_⟩, ?_, unwatched_of _ rfl, ?_⟩, ⟨?_, ?_⟩, ⟨?_, ?_, ?_, ?_⟩, ⟨?_, ?_, ?_⟩, ⟨?_, ?_⟩,
    ⟨?_, ?_, ?_⟩, ⟨?_, ?_, ?_⟩, ⟨?_, ?_, ⟨0x2000D7, ?_⟩, unwatched_of _ rfl, ?_, ?_⟩, ?_, ⟨?_, ?_, ?_⟩, ?_, ⟨?_, ?_, ?_, ?_⟩,
    ⟨?_, ?_, ?_, ?_, ?_, ?_, ⟨0x2000D7, ?_⟩, unwatched_of _ rfl⟩, ⟨?_, ?_, ?_, ?_, ?_⟩, ?_⟩
  all_goals (try unfold runs); (try unfold fieldsClear); decide +kernel

/-! ### Hypotheses of the statements about registers, the host, starts and power -/

/-- Tenant 0 with its registers, an event's arguments. -/
def rg (n : Tenant) (a b : Nat) (w : Word) (f : Bool) : State := { State.reset with
  tenants := [(0, n)], arg := { EvArgs.reset with a := a, b := b, w := w, flag := f } }

/-- A copy command of tenant 0 that stands at a fault under identifier 8191. -/
def faultedCopy : CopyCmd := ⟨8191, 0, 1, 0, 0, 0, 0, [], [], 0, .cpy 0 0 8, none, .faulted 8 1 0x40, 0, false, none, 0, 0, false⟩

theorem witness_RegistersActByFunction :
    (let w : Word := 0x20000001
     let s := rg .reset 0 0 w false
     s.arg.a < 256 ∧ w.getLsbD 0 = true ∧ w.getLsbD 30 = false ∧ (NatMap.get Tenant.reset s.tenants 0).tinvBusy = false ∧
       w.extractLsb' 28 2 = 2 ∧ (0xF0000001 : Word).extractLsb' 28 2 = 3) ∧
    ((0x1 : Word).extractLsb' 28 2 = 0 ∧ (0xFF00001 : Word).extractLsb' 28 2 = 0 ∧ (0x1FF00001 : Word).extractLsb' 28 2 = 1) ∧
    (let s := rg { Tenant.reset with tinvBusy := true, tinvKind := 0, tinva := 0x1FFFFF } 0 0 0 false
     (NatMap.get Tenant.reset s.tenants 0).tinvBusy = true ∧ s.flights = [] ∧ s.translatedOut (fun x => x == 0) = false ∧
       (NatMap.get Tenant.reset (rg .reset 0 0 0 false).tenants 0).tinvBusy = false) ∧
    ((1 : Word).getLsbD 0 = true ∧ (1 : Word).getLsbD 1 = false) ∧
    (let s := rg { Tenant.reset with cmsel := 0x80000000 } 0 0 0x0FFF1000 true
     s.arg.flag = true ∧ (NatMap.get Tenant.reset s.tenants 0).cmsel.getLsbD 31 = true ∧ s.arg.w.toNat % 8192 ≠ 1 ∧
       s.arg.w.toNat % 8192 ≤ 4096) ∧
    (let s := rg { Tenant.reset with cmsel := 0x00010000, comm := [(4096, 2)] } 0 0 0xFFF true
     (NatMap.get Tenant.reset s.tenants 0).cmsel.getLsbD 31 = false ∧
       (NatMap.get Tenant.reset s.tenants 0).cmsel.toNat / 65536 % 4096 <
         (NatMap.get 0 (NatMap.get Tenant.reset s.tenants 0).comm 4096).toNat % 8192) ∧
    ((rg .reset 0 3 0x40 false).fqOver = [] ∧
      ∀ id ∈ (rg .reset 0 3 0x40 false).cur :: (rg .reset 0 3 0x40 false).ctxs.map Prod.fst,
        ((rg .reset 0 3 0x40 false).getCtx id).q.sysc = []) ∧
    (let s : State := { rg .reset 0 0 0x8000000000001FFF false with copies := [faultedCopy] }
     s.copies = [faultedCopy] ∧ faultedCopy.ident = s.arg.w.toNat % 8192 ∧ faultedCopy.tid = s.arg.a ∧
       faultedCopy.st = .faulted 8 1 0x40 ∧ s.colls = [] ∧ s.autoQ = [] ∧ s.arg.w.extractLsb' 62 2 = 2 ∧
       (0x4000000000001FFF : Word).extractLsb' 62 2 = 1) ∧
    (let s : State := { rg .reset 0 0 0x1001F0000 false with launches := [(1, lrun .running)] }
     NatMap.find? s.launches (s.arg.w.toNat / 2 ^ 32 % 65536) = some (lrun .running) ∧ (lrun .running).tid = s.arg.a ∧
       s.findPlace 1 0 0 0 = some 0 ∧ (lrun .running).tid ≠ 1) ∧
    (let m : Mca := { Mca.reset with fcls := 0x1234_0000, wcls := 0x1234_0000 }
     (0x8000000012340000 : Word).getLsbD 63 = true ∧
       (0x8000000012340000 : Word).extractLsb' 16 16 = m.fcls.extractLsb' 16 16 ∧ 63 < 64 ∧ 3 < 4) ∧
    ((0x60003 : Word).toNat = 1 + 2 * 1 + 65536 * 6 ∧ (0x20005 : Word).toNat = 1 + 2 * 2 + 65536 * 2 ∧
      State.reset.mgmt.starting = false) ∧
    (let s : State := { rg .reset 4095 0 1 false with mgmt := { Mgmt.reset with debug := .invasive } }
     s.arg.a < 4096 ∧ s.mgmt.debug = .invasive ∧ s.mgmt.power ≠ .off ∧ s.mgmt.power ≠ .gated) ∧
    (let s : State := { rg .reset 4095 0 1 false with
       mgmt := { Mgmt.reset with debug := .invasive, power := .gated }, clus := [(127, { ClusterState.reset with gated := true })] }
     s.mgmt.power = .gated ∧ (s.getClu (s.arg.a / 32)).gated = true ∧ (s.getClu 126).gated = false) ∧
    (let s : State := { rg .reset 0 0x60F3F 0 false with mgmt := { Mgmt.reset with power := .off } }
     s.mgmt.power = .off ∧ s.arg.b ≠ 0x50018 ∧ s.arg.b < 0x60F40) ∧
    (State.reset.mgmt.power ≠ .off ∧ (0x1000010 : Nat) ≠ 0x40) ∧
    State.reset.mgmt.debug ≠ .invasive ∧
    ((rg .reset 255 0x50000 0 false).arg.a ≠ 0 ∧ 0x50000 ≤ (rg .reset 255 0x50000 0 false).arg.b) ∧
    ((rg .reset 1 0x4FFFF 0 false).queue 8191).tid ≠ 1 ∧ 0x10000 + 32 * 8191 ≤ 0x4FFFF ∧ 0x4FFFF < 0x10000 + 32 * 8191 + 32 ∧
    0x1000000 + 0x10000 * 255 = 0x1FF0000 := by
  and_intros <;> decide +kernel

/-- A request of debug level `a` with a token for level `c` that names this package and its nonce; `f` says that it is signed. -/
def asksDebug (a c : Nat) (f : Bool) (x : Security) : State := { State.reset with
  mgmt := { Mgmt.reset with security := x }
  arg := { EvArgs.reset with a := a, c := c, flag := f, w := Config.serial, x := Config.nonce 0 } }

/-- The token at hand is valid (21 R467). -/
def tokenGood (s : State) : Bool :=
  s.arg.flag && s.arg.w == Config.serial && s.arg.x == Config.nonce s.mgmt.nonce && s.arg.c % 3 == s.arg.a

theorem witness_HostsDebugErrorsAttestation :
    State.reset.mgmt.debug ≠ .invasive ∧
    (let s : State := { rg .reset (localPa 127 0xFFFFFF) 1 0 false with mgmt := { Mgmt.reset with debug := .invasive } }
     s.mgmt.debug = .invasive ∧ s.mgmt.power ≠ .off ∧ s.mgmt.power ≠ .gated ∧ s.arg.flag = false ∧
       ∀ i, i < s.arg.b → paOk (s.arg.a + i) = true) ∧
    (let s : State := { rg .reset (localPa 127 0) 1 0 false with
       mgmt := { Mgmt.reset with debug := .invasive, power := .gated }, clus := [(127, { ClusterState.reset with gated := true })] }
     s.mgmt.debug = .invasive ∧ s.mgmt.power = .gated ∧ s.arg.flag = false ∧ (∀ i, i < s.arg.b → paOk (s.arg.a + i) = true) ∧
       ∃ i, i < s.arg.b ∧ (s.arg.a + i) / spaceSize = 2 ∧ (s.getClu ((s.arg.a + i) % spaceSize / 0x1000000)).gated = true) ∧
    (let s := asksDebug 2 2 true .sealed
     tokenGood s = true ∧ s.arg.a = 2 ∧ s.mgmt.security = .sealed ∧ s.mgmt.power ≠ .off) ∧
    (let s := asksDebug 2 2 true .provisioned
     tokenGood s = true ∧ s.mgmt.security = .provisioned) ∧
    (let s := asksDebug 1 1 false .sealed
     tokenGood s = false ∧ s.arg.a = 1 ∧ s.mgmt.security = .sealed) ∧
    (let s : State := { State.reset with recalled := [(1, true)], arg := { EvArgs.reset with a := 0x40, flag := true } }
     NatMap.get false s.recalled (s.arg.a / 64) = true ∧ NatMap.get false s.recalled (s.arg.a / 64 + 1) = false) ∧
    (let s : State := { State.reset with recalled := [((4 * spaceSize + 0x40) / 64, true)], arg := { EvArgs.reset with a := 0x40 } }
     NatMap.get false s.recalled ((4 * spaceSize + s.arg.a) / 64) = true ∧ s.arg.flag = false) ∧
    paOk (localPa 128 0) = false ∧ paOk (3 * spaceSize) = false ∧
    (let s : State := { rg .reset 0x40 0 0 false with upsets := [⟨.mem 0x47, true⟩] }
     s.upsets = [⟨.mem 0x47, true⟩] ∧ paOk s.arg.a = true ∧ s.arg.flag = false ∧ s.arg.a / spaceSize = 0 ∧ 0x47 / 64 = s.arg.a / 64) ∧
    (0x47 / 8 = 0x40 / 8 ∧ (spaceSize + 0x47) / spaceSize = 1) ∧
    (State.reset.mgmt.security = .open_ ∧ ({ Mgmt.reset with security := .sealed }).security = .sealed ∧
      ({ Mgmt.reset with security := .failed }).security ≠ .sealed) ∧
    (State.reset.mgmt.ready = true ∧ State.reset.lumberBase % 64 = 0 ∧ State.reset.lumberBase < spaceSize ∧
      State.reset.lumberBase - 64 < State.reset.lumberBase ∧ unwatched State.reset ∧ State.reset.memPoison = []) ∧
    (255 < 256 ∧ (spaceSize - 64) % 64 = 0 ∧ spaceSize - 64 < spaceSize ∧
      ((0xFF00 : BitVec 128).extractLsb' (8 * (15 / 8)) 8 ≠ 0#8) ∧ ∀ k, k < 8 → State.reset.arg.mask.extractLsb' (8 * k) 8 = 0#8) ∧
    (63 < 64 ∧ State.reset.mgmt.power ≠ .off ∧ State.reset.mgmt.starting = false) ∧
    (0x300 % 256 = 0 ∧ 0x3FF % 256 ≠ 0 ∧ ({ Mgmt.reset with spdm := 1 }).spdm = 1 ∧ State.reset.mgmt.spdm ≠ 1) := by
  refine ⟨?_, ?_, ⟨?_, ?_, ?_, ?_, 0, ?_⟩, ⟨?_, ?_⟩, ⟨?_, ?_⟩, ?_, ?_, ?_, ?_, ?_, ?_, ?_, ?_,
    ⟨?_, ?_, ?_, ?_, unwatched_of _ rfl, ?_⟩, ?_, ?_, ?_⟩
  case refine_8 => simp [tokenGood, asksDebug, State.reset, Mgmt.reset]
  case refine_10 => simp [tokenGood, asksDebug, State.reset, Mgmt.reset]
  all_goals decide +kernel

theorem witness_StartsAndPower :
    (let s : State := { State.reset with mgmt := { Mgmt.reset with starting := true } }
     s.mgmt.starting = true ∧ s.mgmt.power ≠ .off ∧ s.mgmt.goWarm = false ∧ s.arg.c = 0 ∧ s.arg.mask = 0 ∧ s.arg.data = 0 ∧
       s.mgmt.fails < 2 ∧ s.mgmt.recov = false ∧ 1 ≤ (9 : Nat)) ∧
    (let s : State := { State.reset with mgmt := { Mgmt.reset with starting := true, goWarm := true } }
     s.mgmt.starting = true ∧ s.mgmt.goWarm = true ∧ s.arg.flag = false ∧ s.arg.c = 0 ∧ s.txs = [] ∧ s.upsets = []) ∧
    ({ Mgmt.reset with power := .off }).power = .off ∧
    (let s : State := { State.reset with arg := { EvArgs.reset with mask := 1#128 <<< 127 } }
     s.powered = true ∧ 127 < 128 ∧ s.arg.mask.getLsbD 127 = true ∧ (s.getClu 127).gated = false) ∧
    (let s : State := { qWith (qCmd (launchRec 1) false false 1) [] with mgmt := { Mgmt.reset with power := .idle } }
     s.powered = true ∧ s.mgmt.power = .idle ∧ s.launchWaits = true) ∧
    (let s : State := { State.reset with arg := { EvArgs.reset with mask := BitVec.allOnes 128 },
                                         mgmt := { Mgmt.reset with power := .gated } }
     s.powered = true ∧ s.mgmt.power = .gated ∧ s.arg.mask = BitVec.allOnes 128) ∧
    (State.reset.mgmt.starting = false ∧ State.reset.mgmt.power ≠ .off ∧ 255 < 256) := by
  and_intros <;> decide +kernel

/-! ### Hypotheses of the statements about links, collectives and rack power -/

/-- A flit of kind `k` on lane `vl` at port 47: header, address `pa`, payload, arguments `b` and `c`. -/
def fx (k vl len seq : Nat) (pa : Word) (data : BitVec 1920) (b c : Nat) : EvArgs := { EvArgs.reset with
  a := 47, b := b, c := c, w := pa, hdr := flitHdr 0xFFFE len seq 0 4095 0 0 k vl, data := data }

/-- This device, tenant 0 enabled, device 4095 reached from hub 3 by port 46, and a flit at hand. -/
def rx (x : EvArgs) : State := { State.reset with
  tenants := [(0, { Tenant.reset with en := true })], route := [(3 * 4096 + 4095, 0x802E)], arg := x }

/-- The flit of an event with the CRC `c`. -/
def withCrc (x : EvArgs) (c : BitVec 32) : EvArgs := { x with
  hdr := (x.hdr.extractLsb' 0 96).setWidth 128 ||| c.setWidth 128 <<< 96 }

/-- The CRC that the flit of an event has (21 R451). -/
def crcOf (x : EvArgs) : BitVec 32 := Config.flitCrc (x.hdr.extractLsb' 0 96).toNat
  (x.w.toNat :: x.b :: x.c :: (List.range 30).map fun i => ((x.val i).map BitVec.toNat).getD 0)

/-- The state with the flit at hand as its sender sealed it. -/
def sealedS (s : State) : State := { s with arg := withCrc s.arg (crcOf s.arg) }

theorem withCrc_low (x : EvArgs) (c : BitVec 32) (i w : Nat) (h : i + w ≤ 96) :
    (withCrc x c).hdr.extractLsb' i w = x.hdr.extractLsb' i w := by
  apply BitVec.eq_of_getLsbD_eq
  intro j hj
  have h2 : i + j < 96 := by omega
  have h3 : i + j < 128 := by omega
  simp [withCrc, h2, h3, hj]

theorem withCrc_crcOk (x : EvArgs) (c : BitVec 32) : (withCrc x c).crcOk = (c == crcOf x) := by
  have h : (withCrc x c).hdr.extractLsb' 96 32 = c := by
    apply BitVec.eq_of_getLsbD_eq
    intro j hj
    have h3 : 96 + j < 128 := by omega
    simp [withCrc, h3, hj]
  rw [EvArgs.crcOk, h, withCrc_low x c 0 96 (by decide)]; rfl

theorem received_port (s : State) (m : Nat) : (received (sealedS s)).port m = (received s).port m := by
  simp [received, sealedS, State.port, withCrc_low]; rfl

theorem inOrder_sealed (s : State) (h : (s.port (s.arg.a % 48)).up = true ∧ s.mgmt.power ≠ .off ∧
    (s.port (s.arg.a % 48)).held = [] ∧ (s.port (s.arg.a % 48)).full = 0 ∧ (s.port (s.arg.a % 48)).vl0 = [] ∧
    s.arg.hdr.extractLsb' 60 12 = (s.port (s.arg.a % 48)).rxSeq) : inOrder (sealedS s) := by
  obtain ⟨a, b, c, d, e, g⟩ := h
  exact ⟨a, b, c, d, e, (withCrc_crcOk _ _).trans (by simp), (withCrc_low _ _ _ _ (by decide)).trans g⟩

theorem kindIs_sealed (s : State) (k : Nat) (h : kindIs s k) : kindIs (sealedS s) k := by
  unfold kindIs sealedS at *
  simpa only [withCrc_low _ _ _ _ (by decide : 16 + 4 ≤ 96), withCrc_low _ _ _ _ (by decide : 0 + 8 ≤ 96),
    withCrc_low _ _ _ _ (by decide : 11 + 5 ≤ 96)] using h

theorem forUs_sealed (s : State) (h : forUs s) : forUs (sealedS s) := by
  unfold forUs at *
  rw [show (sealedS s).arg.hdr.extractLsb' 28 12 = s.arg.hdr.extractLsb' 28 12 from withCrc_low _ _ _ _ (by decide),
    show (sealedS s).arg.hdr.extractLsb' 20 8 = s.arg.hdr.extractLsb' 20 8 from withCrc_low _ _ _ _ (by decide)]
  exact h

theorem servable_sealed (s : State) (n m : Nat) (h : servable s n m) : servable (sealedS s) n m := by
  unfold servable at *
  rw [received_port,
    show (sealedS s).arg.hdr.extractLsb' 20 8 = s.arg.hdr.extractLsb' 20 8 from withCrc_low _ _ _ _ (by decide),
    show (sealedS s).arg.hdr.extractLsb' 40 12 = s.arg.hdr.extractLsb' 40 12 from withCrc_low _ _ _ _ (by decide)]
  exact h

/-- Field `w` wide from bit `i` of the header at hand. -/
theorem sealed_field (s : State) (i w : Nat) (v : BitVec w) (h : i + w ≤ 96) (hv : s.arg.hdr.extractLsb' i w = v) :
    (sealedS s).arg.hdr.extractLsb' i w = v := (withCrc_low _ _ _ _ h).trans hv

theorem sealed_len (s : State) (n : Nat) (h : (s.arg.hdr.extractLsb' 72 8).toNat = n) :
    ((sealedS s).arg.hdr.extractLsb' 72 8).toNat = n := by
  rw [sealed_field s 72 8 _ (by decide) rfl]; exact h

/-- A member of a sum over three, whose next rank is device 2; its own element 0 is 1.0. -/
def coll3 (bad : Bool) : Coll := ⟨5, 0, 2, true, bad, 0x700000000, 4, 0, 0, 0, 3, 1, 2, [], 4, 0⟩

/-- Its command. -/
def collCopy : CopyCmd := ⟨5, 0, 1, 0, 0, 0, 0, [], [(0, some 0), (1, some 0), (2, some 0x80), (3, some 0x3F)], 0, .cpcoll 0, none,
  .collective, 0, false, none, 0, 0, false⟩

/-- The hop with the partial value 2.0 at `h` for element 0, of a descriptor with COUNT `n`. -/
def hopAt (h n : Nat) : EvArgs :=
  fx 5 4 40 0 0 (BitVec.ofNat 1920 (0x700000000 + n * 2 ^ 64 + h * 2 ^ 192 + 0x40000000 * 2 ^ 256)) 0 0

/-- The descriptor of COUNT `n` of another member, passed on `h` times. -/
def descAt (h n : Nat) : EvArgs :=
  fx 5 4 40 0 0 (BitVec.ofNat 1920 (0x700000000 + n * 2 ^ 64 + (h + 2 * 2 ^ 32) * 2 ^ 192)) 0 0

/-- The collective and the flit. -/
def cx (bad : Bool) (x : EvArgs) : State := { rx x with
  colls := [coll3 bad], copies := [collCopy], route := [(2, 0x8000)] }

/-- Port 47 with a read request sent, whose SEQ is 7. -/
def sent7 : List (BitVec 128 × Nat × (Nat × Nat) × List Granule) := [(flitHdr 0 0 7 0 0 1 0 1 1, 0x40, (0, 0), [])]

theorem witness_LinksReceive :
    ((let s : State := { rx (fx 1 1 8 1 0x40 0 0 0) with ports := [(47, { Port.reset with rxSeq := 4095 })] }
      (s.port 47).up = true ∧ s.mgmt.power ≠ .off ∧ (s.port 47).held = [] ∧ s.arg.hdr.extractLsb' 60 12 ≠ (s.port 47).rxSeq) ∧
     (withCrc (fx 1 1 8 0 0x40 0 0 0) (crcOf (fx 1 1 8 0 0x40 0 0 0) + 1)).crcOk = false) ∧
    (inOrder (sealedS (rx (fx 0 0 0 0 0 0 0 0))) ∧ kindIs (sealedS (rx (fx 0 0 0 0 0 0 0 0))) 0) ∧
    (inOrder (sealedS (rx (fx 8 0 0 0 0 0 0 0))) ∧
      8 ≤ ((sealedS (rx (fx 8 0 0 0 0 0 0 0))).arg.hdr.extractLsb' 11 5).toNat) ∧
    (inOrder (sealedS (rx (fx 7 0 0 0 0 0 0 0))) ∧ kindIs (sealedS (rx (fx 7 0 0 0 0 0 0 0))) 7) ∧
    (let s := sealedS (rx (fx 1 1 8 0 0x40 0 0 0))
     inOrder s ∧ kindIs s 1 ∧ forUs s ∧ unwatched s ∧ servable s 8 46 ∧ (s.arg.hdr.extractLsb' 72 8).toNat = 8 ∧
       s.arg.w.toNat % 8 = 0 ∧ s.arg.mask = 0) ∧
    (let s := sealedS (rx (fx 2 2 240 0 0x40 0 0 0))
     inOrder s ∧ kindIs s 2 ∧ forUs s ∧ unwatched s ∧ servable s 240 46 ∧ (s.arg.hdr.extractLsb' 72 8).toNat = 240 ∧
       s.arg.c / 4 % 2 = 0 ∧ s.arg.mask = 0) ∧
    (let s := sealedS (rx (fx 3 1 8 0 0x40 5 7 3))
     inOrder s ∧ kindIs s 3 ∧ forUs s ∧ unwatched s ∧ servable s 8 46 ∧ (s.arg.hdr.extractLsb' 72 8).toNat = 8 ∧ s.arg.c = 3 ∧
       s.arg.b < 8 ∧ s.granule s.arg.w.toNat = some 0 ∧ s.arg.mask = 0 ∧ s.arg.flag = false) ∧
    (let s := sealedS (rx (fx 4 3 0 0 0 0 0 0))
     inOrder s ∧ kindIs s 4 ∧ forUs s ∧ s.arg.hdr.extractLsb' 80 16 = 0xFFFE#16 ∧ s.peerReqs = [] ∧ s.arg.b = 0) ∧
    (let s : State := { rx (fx 4 3 0 0 0 0 0 0) with peerReqs := [⟨0xFFFE, 46, .store 4095 1⟩] }
     inOrder (sealedS s) ∧ kindIs (sealedS s) 4 ∧ forUs (sealedS s) ∧ (sealedS s).arg.hdr.extractLsb' 80 16 = 0xFFFE#16) ∧
    (let s := sealedS (cx true (hopAt 1 4))
     inOrder s ∧ kindIs s 5 ∧ forUs s ∧ s.arg.hdr.extractLsb' 20 8 = 0#8 ∧ (NatMap.get Tenant.reset s.tenants 0).en = true ∧
       (coll3 true).tid = 0 ∧ s.colls = [coll3 true] ∧
       (coll3 true).w0.extractLsb' 16 8 = s.arg.data.extractLsb' 16 8 ∧
       (coll3 true).w0.extractLsb' 32 32 = s.arg.data.extractLsb' 32 32) ∧
    (let s : State := { rx { EvArgs.reset with a := 47, b := 7 } with ports := [(47, { Port.reset with sent := sent7 })] }
     (s.port 47).up = true ∧ s.arg.flag = false ∧ (s.port 47).sent = sent7 ∧
       s.arg.b = (hdrSeq (flitHdr 0 0 7 0 0 1 0 1 1)).toNat ∧ (s.port 47).nak ≠ s.arg.b) ∧
    (let s : State := { rx { EvArgs.reset with a := 47, b := 7 } with ports := [(47, { Port.reset with
       nak := 7, replays := 8, sent := sent7 })] }
     (s.port 47).up = true ∧ (s.port 47).sent ≠ [] ∧ (s.port 47).nak = s.arg.b ∧ 8 ≤ (s.port 47).replays ∧ s.peerReqs = [] ∧
       s.colls = [] ∧ (s.port 47).sent.head?.map (fun f => (hdrSeq f.1).toNat) = some s.arg.b) ∧
    (let s : State := { rx { EvArgs.reset with a := 47 } with
       ports := [(47, Port.reset.holding (List.replicate 64 (fx 1 1 8 0 0x40 0 0 0)))] }
     (s.port 47).up = true ∧ (s.port 47).full = 2 ∧ (s.port 47).mask = 0 ∧ s.device < 4096) := by
  refine ⟨⟨?_, ?_⟩, ⟨inOrder_sealed _ ?_, kindIs_sealed _ _ ?_⟩, ⟨inOrder_sealed _ ?_, ?_⟩,
    ⟨inOrder_sealed _ ?_, kindIs_sealed _ _ ?_⟩,
    ⟨inOrder_sealed _ ?_, kindIs_sealed _ _ ?_, forUs_sealed _ ?_, unwatched_of _ rfl, servable_sealed _ _ _ ?_,
      sealed_len _ _ ?_, ?_, ?_⟩,
    ⟨inOrder_sealed _ ?_, kindIs_sealed _ _ ?_, forUs_sealed _ ?_, unwatched_of _ rfl, servable_sealed _ _ _ ?_,
      sealed_len _ _ ?_, ?_, ?_⟩,
    ⟨inOrder_sealed _ ?_, kindIs_sealed _ _ ?_, forUs_sealed _ ?_, unwatched_of _ rfl, servable_sealed _ _ _ ?_,
      sealed_len _ _ ?_, ?_, ?_, ?_, ?_, ?_⟩,
    ⟨inOrder_sealed _ ?_, kindIs_sealed _ _ ?_, forUs_sealed _ ?_, sealed_field _ _ _ _ (by decide) ?_, ?_, ?_⟩,
    ⟨inOrder_sealed _ ?_, kindIs_sealed _ _ ?_, forUs_sealed _ ?_, sealed_field _ _ _ _ (by decide) ?_⟩,
    ⟨inOrder_sealed _ ?_, kindIs_sealed _ _ ?_, forUs_sealed _ ?_, sealed_field _ _ _ _ (by decide) ?_, ?_, ?_, ?_, ?_, ?_⟩,
    ?_, ?_, ?_⟩
  case refine_2 => rw [withCrc_crcOk]; simp
  case refine_6 => rw [sealed_field _ 11 5 8#5 (by decide) (by decide +kernel)]; decide
  all_goals (try unfold kindIs); (try unfold forUs); (try unfold servable)
  all_goals decide +kernel

/-- Whether a message was sent. -/
def isSent : Sent → Bool
  | .sent _ => true
  | _ => false

/-- `s` once its collective flit is received and held. -/
def heldFlit (s : State) : State := (received s).hold { s.arg with temp := 0 }

/-- A collective flit of tenant 0 arrives for this device, and finds a collective that runs. -/
theorem arrives (s : State) (h : (s.port (s.arg.a % 48)).up = true ∧ s.mgmt.power ≠ .off ∧
    (s.port (s.arg.a % 48)).held = [] ∧ (s.port (s.arg.a % 48)).full = 0 ∧ (s.port (s.arg.a % 48)).vl0 = [] ∧
    s.arg.hdr.extractLsb' 60 12 = (s.port (s.arg.a % 48)).rxSeq) (k : kindIs s 5) (u : forUs s)
    (t : s.arg.hdr.extractLsb' 20 8 = 0#8) :
    inOrder (sealedS s) ∧ kindIs (sealedS s) 5 ∧ forUs (sealedS s) ∧ (sealedS s).arg.hdr.extractLsb' 20 8 = 0#8 :=
  ⟨inOrder_sealed _ h, kindIs_sealed _ _ k, forUs_sealed _ u, sealed_field _ _ _ _ (by decide) t⟩

theorem witness_CollectivesHop :
    ((inOrder (sealedS (cx false (hopAt 1 5))) ∧ kindIs (sealedS (cx false (hopAt 1 5))) 5 ∧
        forUs (sealedS (cx false (hopAt 1 5))) ∧ (sealedS (cx false (hopAt 1 5))).arg.hdr.extractLsb' 20 8 = 0#8) ∧
     (let s := cx false (hopAt 1 5)
      (NatMap.get Tenant.reset s.tenants (coll3 false).tid).en = true ∧ (coll3 false).tid = 0 ∧ (coll3 false).bad = false ∧
       (coll3 false).differs s.arg = true ∧ s.routeTo collCopy.collHub 2 = some 0 ∧
       ((received s).port 0).xoff.getLsbD 5 = false ∧ s.colls = [coll3 false] ∧ (coll3 false).ident = collCopy.ident ∧
       s.copyOf 5 = some collCopy ∧ collCopy.failed = false ∧ collCopy.st = .collective)) ∧
    ((inOrder (sealedS (cx false (descAt 2 4))) ∧ kindIs (sealedS (cx false (descAt 2 4))) 5 ∧
        forUs (sealedS (cx false (descAt 2 4))) ∧ (sealedS (cx false (descAt 2 4))).arg.hdr.extractLsb' 20 8 = 0#8) ∧
     (let s := cx false (descAt 2 4)
      (coll3 false).differs s.arg = false ∧ (s.arg.data.extractLsb' 192 64).getLsbD 32 = false ∧
       (s.arg.data.extractLsb' 192 64).getLsbD 33 = true ∧
       (coll3 false).members ≤ (s.arg.data.extractLsb' 192 64).toNat % 65536 + 1)) ∧
    ((inOrder (sealedS (cx false (descAt 1 4))) ∧ kindIs (sealedS (cx false (descAt 1 4))) 5 ∧
        forUs (sealedS (cx false (descAt 1 4))) ∧ (sealedS (cx false (descAt 1 4))).arg.hdr.extractLsb' 20 8 = 0#8) ∧
     (let s := cx false (descAt 1 4)
      (coll3 false).differs s.arg = false ∧ (s.arg.data.extractLsb' 192 64).getLsbD 33 = true ∧
       (s.arg.data.extractLsb' 192 64).toNat % 65536 + 1 < (coll3 false).members ∧
       isSent ((heldFlit (sealedS s)).collSend (coll3 false) collCopy.collHub 4 0 2 0 2 0) = true)) ∧
    ((inOrder (sealedS (cx false (hopAt 1 4))) ∧ kindIs (sealedS (cx false (hopAt 1 4))) 5 ∧
        forUs (sealedS (cx false (hopAt 1 4))) ∧ (sealedS (cx false (hopAt 1 4))).arg.hdr.extractLsb' 20 8 = 0#8) ∧
     (sealedS (cx false (hopAt 1 4))).arg.hdr.extractLsb' 8 3 = 4#3 ∧
     (let s := cx false (hopAt 1 4)
      (coll3 false).w0.extractLsb' 32 32 = s.arg.data.extractLsb' 32 32 ∧
       (coll3 false).differs s.arg = false ∧ (s.arg.data.extractLsb' 192 64).getLsbD 32 = false ∧
       (s.arg.data.extractLsb' 192 64).getLsbD 33 = false ∧ ({ coll3 false with met := 1 } : Coll).agreed = false ∧
       (coll3 false).agreed = true ∧ (s.arg.data.extractLsb' 192 64).toNat % 65536 + 1 < (coll3 false).members ∧
       ((heldFlit (sealedS s)).collElem (coll3 false) collCopy 0).2 = some (0x3F800000, false) ∧
       isSent (((heldFlit (sealedS s)).collElem (coll3 false) collCopy 0).1.collSend (coll3 false) collCopy.collHub 4 0 2 0 0
         ((coll3 false).hop 1 0 0x40000000 0x3F800000)) = true)) := by
  refine ⟨⟨arrives _ ?_ ?_ ?_ ?_, ?_⟩, ⟨arrives _ ?_ ?_ ?_ ?_, ?_⟩, ⟨arrives _ ?_ ?_ ?_ ?_, ?_⟩,
    ⟨arrives _ ?_ ?_ ?_ ?_, sealed_field _ _ _ _ (by decide) ?_, ?_⟩⟩ <;>
    (try unfold kindIs) <;> (try unfold forUs) <;> decide +kernel

/-- Port `k` may be sent on lane 0. -/
def laneOpen (s : State) (k : Nat) : Prop :=
  (s.port k).up = true ∧ (s.port k).xoff.getLsbD 0 = false ∧ (s.port k).vl0 = []

/-- A budget flit at hand with `b` and `c`, and `x`'s high bit where another take comes in the same tick. -/
def power (b c : Nat) (x : Word) : State := rx { fx 6 0 0 0 0 0 b c with x := x }

theorem budget_arrives (s : State) (h : (s.port (s.arg.a % 48)).up = true ∧ s.mgmt.power ≠ .off ∧
    (s.port (s.arg.a % 48)).held = [] ∧ (s.port (s.arg.a % 48)).full = 0 ∧ (s.port (s.arg.a % 48)).vl0 = [] ∧
    s.arg.hdr.extractLsb' 60 12 = (s.port (s.arg.a % 48)).rxSeq) (k : kindIs s 6)
    (x : ((received s).port (s.arg.a % 48)).xoff.getLsbD 0 = false) :
    inOrder (sealedS s) ∧ kindIs (sealedS s) 6 ∧ ((received (sealedS s)).port (s.arg.a % 48)).xoff.getLsbD 0 = false :=
  ⟨inOrder_sealed _ h, kindIs_sealed _ _ k, by rw [received_port]; exact x⟩

theorem witness_RackPowerMoves :
    (let s : State := { State.reset with mgmt := { Mgmt.reset with dem := 3200, budget := 1600 }, ports := [(47, { Port.reset with offer := 9 })] }
     s.mgmt.power ≠ .off ∧ laneOpen s 47 ∧ (s.port 47).offer ≠ 0 ∧
       (∀ j, j < 48 → j ≠ 47 → (s.port j).up = true → (s.port j).offer < (s.port 47).offer) ∧
       min s.mgmt.dem 3200 - s.mgmt.budget ≠ 0) ∧
    ((inOrder (sealedS (power 1600 0 0)) ∧ kindIs (sealedS (power 1600 0 0)) 6 ∧
       ((received (sealedS (power 1600 0 0))).port 47).xoff.getLsbD 0 = false) ∧
     (power 1600 0 0).arg.b ≤ (power 1600 0 0).mgmt.budget - max (power 1600 0 0).mgmt.dem (power 1600 0 0).mgmt.floor ∧
       (power 1600 0 0).relays = [] ∧ (power 1600 0 0).arg.x.getLsbD 63 = false ∧ (power 1600 0 0).mgmt.takes = []) ∧
    (power 1600 0 0x8000000000000000).arg.x.getLsbD 63 = true ∧
    (let s := power 1601 0 0
     s.mgmt.budget - max s.mgmt.dem s.mgmt.floor < s.arg.b ∧ ∀ j, j < 48 → j ≠ 47 → (s.port j).offer = 0) ∧
    (let s : State := { power 1601 0 0 with ports := [(46, { Port.reset with offer := 9 })] }
     (inOrder (sealedS s) ∧ kindIs (sealedS s) 6 ∧ ((received (sealedS s)).port 47).xoff.getLsbD 0 = false) ∧
       s.mgmt.budget - max s.mgmt.dem s.mgmt.floor < s.arg.b ∧ laneOpen s 46 ∧ (s.port 46).offer ≠ 0 ∧
       ∀ j, j < 48 → j ≠ 47 → j ≠ 46 → (s.port j).up = true → (s.port j).offer < (s.port 46).offer) ∧
    (let s : State := { power 100 50 0 with relays := [(0xFFFE * 64 + 47, 5 * 64 + 46, 150)] }
     (inOrder (sealedS s) ∧ kindIs (sealedS s) 6 ∧ ((received (sealedS s)).port 47).xoff.getLsbD 0 = false) ∧
       (sealedS s).arg.hdr.extractLsb' 80 16 = 0xFFFE#16 ∧ laneOpen s 46 ∧
       s.relays = [(0xFFFE * 64 + 47, 5 * 64 + 46, s.arg.b + s.arg.c)]) := by
  refine ⟨?_, ⟨budget_arrives _ ?_ ?_ ?_, ?_⟩, ?_, ?_, ⟨budget_arrives _ ?_ ?_ ?_, ?_⟩,
    ⟨budget_arrives _ ?_ ?_ ?_, sealed_field _ _ _ _ (by decide) ?_, ?_⟩⟩ <;>
    (try unfold kindIs) <;> (try unfold laneOpen) <;> decide +kernel

/-! ### Hypotheses of the statements about decoding, the step and the whole machine -/

theorem witness_EncodeThenDecode :
    Instr.isWord (.vfma 1023 1023 1023 1023 0) = true ∧ Instr.wf (at_ 12) (.vfma 1023 1023 1023 1023 0) = true ∧
    Instr.wf { at_ 1 with pfx := { Pfx.empty with imx := some 0xFFFFFF } } (.addi 63 63 0x3F) = true := by
  decide +kernel

/-- Whether an outcome is a next state. -/
def went (o : Host.Outcome State Fault Refusal) : Bool := match o with
  | .next _ => true
  | _ => false

/-- A state whose agenda issues the ADD at 0x1000C. -/
def s1add : State := { si [] none with
  agenda := [.issue]
  mem := [(0x1000C, 0x13), (0x1000F, 1), (0x10011, 0xE0), (0x10012, 0x30), (0x10013, 0x10), (0x10014, 3)] }

theorem witness_StepRunsTheDecodedBundle :
    s1add.agenda = [.issue] ∧ planned { s1add with agenda := [] } (fun p => p.todo.map (fun x => x.1.op) == [.add 7 6 8]) = true ∧
    s1add.ctx.seq = none ∧ s1add.openRmws = [] ∧ s1add.upsets = [] ∧ s1add.ctx.regs.dead = [] ∧ went (step s1add) = true ∧
    planned { s1add with agenda := [] } (fun p => p.todo.all fun x => !(({ s1add with agenda := [] }.prep.1.commit p).enter x).deadRead x) = true ∧
    (let s : State := { State.reset with ctx := { Context.reset with regs := { Regs.reset with dead := [.kreg 7] } } }
     (s.enter (⟨{ inS with pred := 7 }, .add 1 2 3⟩, none, false)).deadRead (⟨{ inS with pred := 7 }, .add 1 2 3⟩, none, false) = true ∧
       s.inh = false) ∧
    ({ State.reset with agenda := [.event .thermalUpdate .reset] } : State).agenda = [.event .thermalUpdate .reset] ∧
    Instr.isWord .thermalUpdate = false ∧
    went (step { State.reset with agenda := [.event .thermalUpdate .reset] }) = true := by
  decide +kernel

theorem witness_StepsKeepTheStateSound : State.reset.sound = true ∧ went (step State.reset) = true := by
  decide +kernel

theorem witness_PredicatesAndResultsGate :
    (let s : State := { State.reset with env := { inS with pred := 7 } }
     s.pred = false ∧ Instr.isWord (.add 1 2 3) = true ∧ (Instr.slots (.add 1 2 3)).1 < 9 ∧
       (Instr.slots (.add 1 2 3)).1 ≠ 0 ∧ ((Instr.slots (.add 1 2 3)).1 ≠ 5 ∨ s.core.array.owner ≠ some s.cur)) ∧
    (let s : State := { sa .none false with env := { inA with pred := 7 } }
     s.pred = false ∧ (Instr.slots .aswap).1 = 5 ∧ s.core.array.owner = some s.cur) := by
  decide +kernel

/-! ### Rack power by the example of 21 after R458 -/

/-- Device X with budget `b` once it has served a TAKE(200) on port `p`. -/
def taken (p b : Nat) : State := State.serveTake { State.reset with
  mgmt := { Mgmt.reset with floor := 1600, dem := 2500, budget := b } } p 0 200

/-- 21 after R458: X serves port 3, then port 7. -/
theorem test_takes_in_port_order :
    (taken 3 2800).mgmt.budget = 2600 ∧ (taken 3 2800).outbox.getLast? = some (.grant 3 200 0) ∧
    (taken 7 2600).mgmt.budget = 2500 ∧ (taken 7 2600).outbox.getLast? = some (.grant 7 100 100) := by
  decide +kernel

/-- 21 after R458: Z's ceiling at OP5 with B = 2,100 W. -/
theorem test_ceiling_of_budget :
    ((after (exec .ceilUpdate { State.reset with mgmt := { Mgmt.reset with budget := 2100 } })).getClu 127).ceilNew = some 2832 := by
  decide +kernel

end Sys2Proof.Tests
end

section
/-! ## Late causes (01 R40, R41, 10 R308, 18 R411) -/

namespace Sys2Proof.Machine

open Sys2Proof Sys2Proof.Claims

/-! ### Records that no ring takes -/

/-- A record for a tenant without a fault queue waits in the overflow store, or is dropped where that is full (18 R418). -/
theorem State.postRec_noRing (s : State) (r : FqRec) (informs : Bool)
    (h : (NatMap.get Tenant.reset s.tenants r.tid).fqbase = 0) :
    ∃ held tenants, s.postRec r informs = { s with fqOver := held, tenants := tenants } := by
  have hw : (if (s.fqOver.any fun x => x.tid == r.tid) then none else s.ringWrite r) = none := by
    split
    · rfl
    · simp [State.ringWrite, h]
  unfold State.postRec
  dsimp only
  rw [hw]
  dsimp only
  split <;> exact ⟨_, _, rfl⟩

/-- The same for a record about a tenant. -/
theorem State.post_noRing (s : State) (tid type cause code addr src aux : Nat) (svc : List Word)
    (h : (NatMap.get Tenant.reset s.tenants tid).fqbase = 0) :
    ∃ held tenants, s.post tid type cause code addr src aux svc = { s with fqOver := held, tenants := tenants } :=
  s.postRec_noRing _ _ h

/-- Leaving a loop changes neither a pending cause nor whose records the context's are. -/
theorem State.boundary_keeps (s : State) :
    s.boundary.ctx.pend = s.ctx.pend ∧ s.boundary.tenants = s.tenants ∧ s.boundary.tidOf s.boundary.ctx = s.tidOf s.ctx :=
      by
  unfold State.boundary
  split
  · exact ⟨rfl, rfl, rfl⟩
  · split <;> exact ⟨rfl, rfl, rfl⟩

/-! ### A late cause -/

/-- A trap of any cause, taken outside the handler by a context whose tenant has no fault queue (09 R261, 18 R418). -/
theorem State.takeTrap_trapped (s : State) (cause : BitVec 8) (detail : BitVec 16) (tbund tnext va : Nat)
    (hi : s.inh = false) (hq : (NatMap.get Tenant.reset s.tenants (s.tidOf s.ctx)).fqbase = 0) :
    let t := s.takeTrap cause detail tbund tnext va
    trapped s t cause detail tbund tnext ∧ t.ctx.pend = s.ctx.pend ∧ t.mem = s.mem := by
  obtain ⟨kpend, kten, ktid⟩ := s.boundary_keeps
  have hb := s.boundary_frame
  dsimp only at hb
  obtain ⟨hregs, hqs, hst, hset, hmem, hclu, hctxs, -, -, -, htvec⟩ := hb
  obtain ⟨held, tenants, hpost⟩ := s.boundary.post_noRing (s.boundary.tidOf s.boundary.ctx) 1 cause.toNat detail.toNat va
    s.boundary.ctx.src (bits s.boundary.ctx.c.lid 0 16) [] (by rw [kten, ktid]; exact hq)
  unfold State.takeTrap trapped
  dsimp only
  rw [if_neg (by simp [hi]), hpost]
  split <;>
    exact ⟨⟨rfl, by rw [htvec], rfl, rfl, rfl, by rw [hqs], hregs, hst, hset, hclu, hctxs⟩, kpend, hmem⟩

/-- A late cause taken by a context that issues leaves what taking the trap leaves: the context stays on its core. -/
theorem State.lateTrap_trapped (s : State) (cause : BitVec 8) (detail : BitVec 16) (bundle va : Nat) (hi : s.inh = false)
    (hs : s.ctx.st = .issuing) (hq : (NatMap.get Tenant.reset s.tenants (s.tidOf s.ctx)).fqbase = 0) :
    let t := s.lateTrap cause detail bundle va
    trapped s t cause detail bundle s.dueAddr ∧ t.ctx.pend = s.ctx.pend ∧ t.mem = s.mem := by
  have h := s.takeTrap_trapped cause detail bundle s.dueAddr va hi hq
  dsimp only at h ⊢
  have hst : (s.takeTrap cause detail bundle s.dueAddr va).ctx.st = .issuing := by
    obtain ⟨⟨-, -, -, -, -, -, -, hst, -⟩, -⟩ := h
    rw [hst, hs]
  have hl : s.lateTrap cause detail bundle va = s.takeTrap cause detail bundle s.dueAddr va := by
    simp [State.lateTrap, State.leave, hst, hs]
  rw [hl]
  exact h

/-- With no load outstanding no load fault is due. -/
theorem State.firstFault_none (s : State) (h : s.ctx.q.landing = []) : s.firstFault = none := by
  simp [State.firstFault, h]

/-- The only load outstanding, faulted and at its arrival tick, is the one whose fault is due. -/
theorem State.firstFault_single (s : State) (l : Landing) (cause : BitVec 8) (code : BitVec 16) (va : Nat)
    (hl : s.ctx.q.landing = [l]) (ha : l.answer = .fault cause code va) (hm : l.handler = s.inh) (h0 : l.left = 0) :
    s.firstFault = some l := by
  simp [State.firstFault, hl, ha, State.faultDue, State.sameMode, hm, h0]

/-- The first late cause pending, of the kind asked for and of this mode, is the one that may be taken. -/
theorem State.pendOf_head (s : State) (p : Pending → Bool) (x : Pending) (rest : List Pending) (h : s.ctx.pend = x :: rest)
    (hp : p x = true) (hm : x.handler = s.inh) : s.pendOf p = some x := by
  simp [State.pendOf, h, hp, State.sameMode, hm]

/-- With nothing but overruns pending no store fault may be taken. -/
theorem State.storePend_none (s : State) (h : ∀ x ∈ s.ctx.pend, x.cause = 0x0C) : s.storePend = none := by
  refine List.find?_eq_none.mpr fun x hx => ?_
  simp [h x hx, barrierOverrunCause]

/-- Taking the first pending cause leaves the others pending. -/
theorem State.takePend_trapped (s : State) (x : Pending) (rest : List Pending) (h : s.ctx.pend = x :: rest)
    (hi : s.inh = false) (hs : s.ctx.st = .issuing) (hq : (NatMap.get Tenant.reset s.tenants (s.tidOf s.ctx)).fqbase = 0) :
    let without : State := { s with ctx := { s.ctx with pend := rest } }
    let t := s.takePend x
    trapped without t x.cause x.detail x.bundle s.dueAddr ∧ t.ctx.pend = rest ∧ t.mem = s.mem := by
  have he : s.takePend x = State.lateTrap { s with ctx := { s.ctx with pend := rest } } x.cause x.detail x.bundle x.va := by
    simp [State.takePend, h]
  dsimp only
  rw [he]
  exact State.lateTrap_trapped _ _ _ _ _ hi hs hq

/-- Settles O31: each late cause that is due is the one its event finds, and taking it is taking a trap at the boundary of a
context that stays on its core. -/
theorem lateCausesTrap : Obligations.LateCausesTrap := by
  unfold Obligations.LateCausesTrap
  intro s hi hs hq
  refine ⟨fun l cause code va hl ha hh h0 => ?_, fun x rest hp hh hl => ⟨fun hc => ?_, fun hc hr => ?_⟩⟩
  · have hf := s.firstFault_single l cause code va hl ha (hh.trans hi.symm) h0
    have he : exec .longLoadFault s = .next
        ((withQ s { s.ctx.q with landing := [{ l with answer := .waiting }] }).lateTrap cause code l.bundle va) := by
      change execLongLoadFault s = _
      simp only [execLongLoadFault, hf, ha, State.modQ, withQ, hl, List.map_cons, List.map_nil, if_true]
    obtain ⟨ht, -, hm⟩ := State.lateTrap_trapped (withQ s { s.ctx.q with landing := [{ l with answer := .waiting }] })
      cause code l.bundle va hi hs hq
    exact ⟨_, he, ht, hm⟩
  · have he : exec .storeFault s = .next (s.takePend x) := by
      change execStoreFault s = _
      have hst : s.storePend = some x :=
        s.pendOf_head _ x rest hp (by simpa [barrierOverrunCause] using hc) (hh.trans hi.symm)
      simp only [execStoreFault, s.firstFault_none hl, hst]
    exact ⟨_, he, s.takePend_trapped x rest hp hi hs hq⟩
  · have he : exec .barrierOverrun s = .next (s.takePend x) := by
      change execBarrierOverrun s = _
      have hst : s.storePend = none := s.storePend_none (by rw [hp]; exact List.forall_mem_cons.mpr ⟨hc, hr⟩)
      have hov : s.pendOf (fun x => x.cause == barrierOverrunCause) = some x :=
        s.pendOf_head _ x rest hp (by simp [barrierOverrunCause, hc]) (hh.trans hi.symm)
      simp only [execBarrierOverrun, s.firstFault_none hl, hst, hov]
    have h := s.takePend_trapped x rest hp hi hs hq
    rw [hc] at h
    exact ⟨_, he, h⟩

end Sys2Proof.Machine
end

section
/-! ## Translation, page walks, TLB installation and bank grants (01 R20 to R38, 02 R53, R54) -/

namespace Sys2Proof.Machine

open Sys2Proof Sys2Proof.Claims

/-! ### Fields of words -/

theorem bits_eq {w : Nat} (v : BitVec w) (lo n : Nat) : bits v lo n = v.toNat / 2 ^ lo % 2 ^ n := by
  rw [bits, Nat.shiftRight_eq_div_pow]

theorem nbits_eq (v lo n : Nat) : nbits v lo n = slice v lo n := by
  rw [nbits, slice, Nat.shiftRight_eq_div_pow]

/-! ### Translation (01 R20 to R38) -/

/-- A leaf of this package gives the address, or the fault of the permission that is missing (01 R38). -/
theorem State.leafCheck_own (s : State) (tid : Nat) (l : Word) (pa : Nat) (acc : Access) (h : leafPeer l = 0) :
    s.leafCheck tid l pa acc = match acc with
      | .read => if l.getLsbD 1 then .ok (hostPa tid pa) l else .fault 0x09 4
      | .write => if l.getLsbD 2 then .ok (hostPa tid pa) l else .fault 0x09 5
      | .rmw => if !l.getLsbD 2 then .fault 0x09 5 else if !l.getLsbD 1 then .fault 0x09 4 else .ok (hostPa tid pa) l
      | .exec => if l.getLsbD 3 then .ok (hostPa tid pa) l else .fault 0x09 6 := by
  simp only [State.leafCheck, h, bne_self_eq_false, Bool.false_and, Bool.false_eq_true, if_false, if_true]
  rfl

/-- An entry that points to the next table sends the walk there (01 R25). -/
theorem State.walkFrom_points (s : State) (va sh n table next : Nat) (ok : Bool) (more : List (Nat × Nat × Bool))
    (hm : more ≠ []) (h : points s (s.word64 (table + 8 * slice va sh n)) next) :
    s.walkFrom va ((sh, n, ok) :: more) table = s.walkFrom va more (next * 4096) := by
  obtain ⟨he, hn, hl⟩ := h
  rw [← nbits_eq] at he
  have h0 : (s.word64 (table + 8 * nbits va sh n)).getLsbD 0 = true := by
    rw [BitVec.getLsbD, he, Nat.testBit_zero]; simp; omega
  have h4 : (s.word64 (table + 8 * nbits va sh n)).getLsbD 4 = false := by
    rw [BitVec.getLsbD, he, Nat.testBit_eq_decide_div_mod_eq]; simp; omega
  have hb : bits (s.word64 (table + 8 * nbits va sh n)) 12 40 = next := by rw [bits_eq, he]; omega
  have h52 : bits (s.word64 (table + 8 * nbits va sh n)) 52 12 = 0 := by rw [bits_eq, he]; omega
  have h1 : bits (s.word64 (table + 8 * nbits va sh n)) 1 11 = 0 := by rw [bits_eq, he]; omega
  have hmore : more.isEmpty = false := by cases more with
    | nil => exact absurd rfl hm
    | cons x xs => rfl
  simp only [State.walkFrom, h0, h4, hb, h52, h1, hmore, hl, Bool.not_true, Bool.false_eq_true, if_false, beq_self_eq_true,
    decide_true, Bool.and_true, if_true]

/-- Where an entry has no V the walk faults (01 R25). -/
theorem State.walkFrom_invalid (s : State) (va sh n table : Nat) (ok : Bool) (more : List (Nat × Nat × Bool))
    (h : (s.word64 (table + 8 * slice va sh n)).getLsbD 0 = false) : s.walkFrom va ((sh, n,
      ok) :: more) table = .fault 1 := by
  rw [← nbits_eq] at h
  simp only [State.walkFrom, h, Bool.not_false, if_true]

/-- An entry that is a leaf where one may stand ends the walk (01 R24, R25). -/
theorem State.walkFrom_leaf (s : State) (va sh n table : Nat) (more : List (Nat × Nat × Bool))
    (h0 : (s.word64 (table + 8 * slice va sh n)).getLsbD 0 = true)
    (h4 : (s.word64 (table + 8 * slice va sh n)).getLsbD 4 = true) :
    s.walkFrom va ((sh, n, true) :: more) table =
      if s.leafOk (s.word64 (table + 8 * slice va sh n)) (2 ^ sh) then
        .leaf (table + 8 * slice va sh n) (2 ^ sh) (s.word64 (table + 8 * slice va sh n)) else .fault 2 := by
  rw [← nbits_eq] at *
  simp only [State.walkFrom, h0, h4, Bool.not_true, Bool.false_eq_true, if_false, if_true, Bool.true_and]

/-! ### What passing through the cellar cache changes where no error waits (02 R64, R76) -/

theorem State.findAt_none (s : State) (p : Site → Bool) (h : s.upsets = []) : s.findAt p = (s, false) := by
  have hs : ({ s with upsets := [] } : State) = s := by rw [← h]
  simp [State.findAt, h, hs]

theorem State.fillLine_cached (s : State) (pa : Nat) (dirty : Bool) (h : s.upsets = []) :
    ∃ c, s.fillLine pa dirty = { s with cached := c } := by
  have hs : ({ s with upsets := [] } : State) = s := by rw [← h]
  unfold State.fillLine
  dsimp only
  split
  · exact ⟨_, rfl⟩
  · split
    · rw [s.findAt_none _ h]; exact ⟨_, rfl⟩
    · simp only [h, List.filter_nil]; exact ⟨_, rfl⟩

theorem State.visit_cached (s : State) (pa : Nat) (wr alloc : Bool) (h : s.upsets = []) :
    ∃ c, (s.visit pa wr alloc).1 = { s with cached := c } := by
  unfold State.visit State.findUpset
  simp only [s.findAt_none _ h]
  split
  · exact ⟨_, rfl⟩
  · split
    · exact ⟨_, rfl⟩
    · split
      · exact s.fillLine_cached pa wr h
      · exact ⟨_, rfl⟩

/-- A walk leaves lines in the cellar caches, tables in its hub's walk cache, and watchpoint records to post (01 R36). -/
theorem State.walked_traces (s : State) (clu : Option Nat) (tid va : Nat) (h : s.upsets = []) :
    ∃ c w q, s.walked clu tid va = { s with cached := c, walkCache := w, watchQ := q } := by
  unfold State.walked
  refine List.foldlRecOn (motive := fun t : State => ∃ c w q, t = { s with cached := c, walkCache := w, watchQ := q }) _ _
    ⟨s.cached, s.walkCache, s.watchQ, rfl⟩ ?_
  rintro t ⟨c, w, q, rfl⟩ x -
  obtain ⟨c', hv⟩ := State.visit_cached { s with cached := c, walkCache := w, watchQ := q } x.1 false true h
  dsimp only
  rw [hv]
  split <;> exact ⟨_, _, _, rfl⟩

/-- Marking a page-table entry writes one byte and leaves traces besides (01 R36). -/
theorem State.markEntry_traces (s : State) (tid entry : Nat) (wr : Bool) (h : s.upsets = []) :
    ∃ c q w, s.markEntry tid entry wr = { s.setByte entry (s.byte entry ||| 0x40#8 ||| (if wr then 0x80#8 else 0)) with
      cached := c, queues := q, watchQ := w } := by
  obtain ⟨c, hv⟩ := s.visit_cached entry true true h
  unfold State.markEntry
  dsimp only
  rw [hv]
  exact ⟨_, _, _, rfl⟩

/-! ### Clusters by number -/

theorem State.setClu_clusterId (s : State) (i : Nat) (c : ClusterState) : (s.setClu i c).clusterId = s.clusterId := by
  unfold State.setClu; split <;> rfl

/-- A cluster reads as it was set, and every other one as before. -/
theorem State.getClu_setClu (s : State) (a b : Nat) (c : ClusterState) :
    (s.setClu a c).getClu b = if b = a then c else s.getClu b := by
  unfold State.getClu
  rw [s.setClu_clusterId]
  unfold State.setClu
  by_cases ha : a = s.clusterId
  · subst ha; by_cases hb : b = s.clusterId <;> simp [hb]
  · by_cases hb : b = s.clusterId
    · subst hb; simp [ha, Ne.symm ha]
    · simp [ha, hb]

theorem State.setClu_own (s : State) (c : ClusterState) : s.setClu s.clusterId c = { s with clu := c } := if_pos rfl

theorem State.getClu_own (s : State) : s.getClu s.clusterId = s.clu := if_pos rfl

theorem State.setClu_ctx (s : State) (i : Nat) (c : ClusterState) : (s.setClu i c).ctx = s.ctx := by
  unfold State.setClu; split <;> rfl

/-- `t` has the focused cluster, the focus, the event's arguments and the memory of `s`. -/
def keepsClu (s t : State) : Prop := t.clu = s.clu ∧ t.cur = s.cur ∧ t.arg = s.arg ∧ t.mem = s.mem

theorem keepsClu_refl (s : State) : keepsClu s s := ⟨rfl, rfl, rfl, rfl⟩

theorem State.modCtx_keepsClu (s : State) (i : Nat) (f : Context → Context) : keepsClu s (s.modCtx i f) := by
  unfold State.modCtx State.setCtx
  split
  · exact ⟨rfl, rfl, rfl, rfl⟩
  · split
    · split <;> exact ⟨rfl, rfl, rfl, rfl⟩
    · exact ⟨rfl, rfl, rfl, rfl⟩

theorem foldl_keepsClu {β : Type} (l : List β) (f : State → β → State) (hf : ∀ s x, keepsClu s (f s x)) (s : State) :
    keepsClu s (l.foldl f s) := by
  refine List.foldlRecOn (motive := keepsClu s) _ _ (keepsClu_refl s) ?_
  rintro t ⟨hclu, hcur, harg, hmem⟩ x -
  obtain ⟨kclu, kcur, karg, kmem⟩ := hf t x
  exact ⟨kclu.trans hclu, kcur.trans hcur, karg.trans harg, kmem.trans hmem⟩

theorem ite_keepsClu {s t : State} {p : Prop} [Decidable p] (h : keepsClu s t) : keepsClu s (if p then t else s) := by
  split
  · exact h
  · exact keepsClu_refl s

theorem keepsClu_shows {s t : State} {c : ClusterState} {m : List Host.Cell} (h : keepsClu s t) (hc : s.clu = c)
    (hm : s.mem = m) : t.clu = c ∧ t.mem = m :=
  have ⟨kclu, _, _, kmem⟩ := h
  ⟨kclu.trans hc, kmem.trans hm⟩

/-! ### Ticks and bank arbitration (02 R53, R54) -/

/-- A tick that passes leaves no request waiting (02 R53), and is one tick. -/
theorem ClusterState.pass_frame (c : ClusterState) : c.pass.denied = [] ∧ c.pass.tick = c.tick + 1 := by
  have he : (if c.tick % 4 = 3 then c.endStep else c).tick = c.tick := by split <;> rfl
  unfold ClusterState.pass
  generalize (if c.tick % 4 = 3 then c.endStep else c) = d at he ⊢
  dsimp only
  split <;> exact ⟨rfl, congrArg (· + 1) he⟩

theorem State.nextTick_own (s : State) : keepsClu { s with clu := s.clu.pass } (s.nextTick s.clusterId) := by
  unfold State.nextTick
  rw [s.getClu_own, s.setClu_own]
  exact foldl_keepsClu _ _ (fun t i => t.modCtx_keepsClu _ _) _

/-- The tick number counts modulo 11 in the order in which a bank looks at its requesters (02 R53). -/
theorem order_mod (tick : Nat) :
    ((List.range 11).map fun i => (tick + i) % 11) = (List.range 11).map fun i => (tick % 11 + i) % 11 :=
  List.map_congr_left fun i _ => (Nat.mod_add_mod tick 11 i).symm

/-- What a requester asks for that asks alone: a core with no stream and no store its load queue's request (02 R53). -/
theorem requestsOf_alone : ∀ k, k < 11 →
    (List.range 11).flatMap (requestsOf (1#128 <<< k)) = [if 8 ≤ k then k else k + 16] := by
  decide +kernel

theorem first_alone (k tick : Nat) (hk : k < 11) :
    ((List.range 11).map fun i => (tick + i) % 11).findSome? (fun r => (requestsOf (1#128 <<< k) r).head?) =
      some (if 8 ≤ k then k else k + 16) := by
  have h : ∀ k, k < 11 → ∀ r, r < 11 →
      ((List.range 11).map fun i => (r + i) % 11).findSome? (fun r => (requestsOf (1#128 <<< k) r).head?) =
        some (if 8 ≤ k then k else k + 16) := by decide +kernel
  rw [order_mod]
  exact h k hk _ (Nat.mod_lt _ (by decide))

/-- What two cores' load queues ask for, in the order of their numbers. -/
theorem requestsOf_loads : ∀ j, j < 8 → ∀ k, k < 8 → j ≠ k →
    (List.range 11).flatMap (requestsOf (1#128 <<< j ||| 1#128 <<< k)) = [min j k + 16, max j k + 16] := by
  decide +kernel

/-- The first of two cores from the tick number on is the nearer one. -/
theorem first_of_loads (j k tick : Nat) (hj : j < 8) (hk : k < 8) (h : (j + 11 - tick % 11) % 11 < (k + 11 - tick % 11) % 11) :
    ((List.range 11).map fun i => (tick + i) % 11).findSome?
      (fun r => (requestsOf (1#128 <<< j ||| 1#128 <<< k) r).head?) = some (j + 16) := by
  have hr : ∀ j, j < 8 → ∀ k, k < 8 → ∀ r, r < 11 → (j + 11 - r) % 11 < (k + 11 - r) % 11 →
      ((List.range 11).map fun i => (r + i) % 11).findSome?
        (fun r => (requestsOf (1#128 <<< j ||| 1#128 <<< k) r).head?) = some (j + 16) := by decide +kernel
  rw [order_mod]
  exact hr j hj k hk _ (Nat.mod_lt _ (by decide)) h

/-- A request that meets no other is granted and leaves nothing behind. -/
theorem State.arbitrationGrant_alone (s : State) (k : Nat) (hk : k < 11) (hm : s.arg.mask = 1#128 <<< k)
    (hp : s.arg.a = s.clusterId) (hc : s.clusterId < 128) (hd : s.clu.denied = []) : execArbitrationGrant s = .next s := by
  have hp' : s.arg.a % 128 = s.clusterId := by omega
  have hs : ({ s with clu := { s.clu with denied := [] } } : State) = s := by rw [← hd]
  unfold execArbitrationGrant
  simp only [hp', hm, requestsOf_alone k hk, s.getClu_own, hd, first_alone k _ hk, s.setClu_own, List.filter_nil,
    List.map_nil,
    List.any_cons, List.any_nil, List.contains_nil, Bool.or_self, Bool.false_and, Bool.false_eq_true, if_false,
      List.nil_append,
    List.filter_cons, bne_self_eq_false, List.foldl_nil, hs]

/-- Of two cores' loads the nearer one is granted, and the other asks again. -/
theorem State.arbitrationGrant_loads (s : State) (j k : Nat) (hj : j < 8) (hk : k < 8)
    (hm : s.arg.mask = 1#128 <<< j ||| 1#128 <<< k) (hp : s.arg.a = s.clusterId) (hc : s.clusterId < 128)
    (hd : s.clu.denied = []) (h : (j + 11 - s.clu.tick % 11) % 11 < (k + 11 - s.clu.tick % 11) % 11) :
    ∃ t, execArbitrationGrant s = .next t ∧ t.clu = { s.clu with denied := [(k + 16, s.arg.b % 64)] } ∧ t.mem = s.mem := by
  have hp' : s.arg.a % 128 = s.clusterId := by omega
  have hne : j ≠ k := by rintro rfl; omega
  have hlost : [min j k + 16, max j k + 16].filter (fun r => some (j + 16) != some r) = [k + 16] := by
    rcases Nat.lt_or_gt_of_ne hne with hl | hl
    · simp [Nat.min_eq_left hl.le, Nat.max_eq_right hl.le, hne]
    · simp [Nat.min_eq_right hl.le, Nat.max_eq_left hl.le, hne]
  refine ⟨_, rfl, ?_⟩
  simp only [hp', hm, requestsOf_loads j hj k hk hne, s.getClu_own, hd, first_of_loads j k _ hj hk h, List.filter_nil,
    List.any_cons, List.any_nil, List.contains_nil, Bool.or_self, Bool.false_and, Bool.false_eq_true, if_false,
    List.nil_append, hlost, List.map_cons, List.map_nil]
  refine keepsClu_shows (foldl_keepsClu _ _ (fun u r => ?_) _) (by rw [s.setClu_own]) (s.setClu_mem _ _)
  split
  · exact keepsClu_refl u
  · exact foldl_keepsClu _ _ (fun v id => ite_keepsClu (v.modCtx_keepsClu _ _)) u

/-- A load that lost in this tick asks again in the next one, and is granted where it then asks alone. -/
theorem State.arbitrationGrant_again (s : State) (k : Nat) (hk : k < 8) (hm : s.arg.mask = 1#128 <<< k)
    (hp : s.arg.a = s.clusterId) (hc : s.clusterId < 128) (hd : s.clu.denied = [(k + 16, s.arg.b % 64)]) :
    execArbitrationGrant s = .next (if s.tickOver s.clusterId then s.nextTick s.clusterId else s) := by
  have hp' : s.arg.a % 128 = s.clusterId := by omega
  have hk11 : k < 11 := by omega
  have hk8 : ¬ 8 ≤ k := by omega
  by_cases ho : s.tickOver s.clusterId = true
  · obtain ⟨hclu, hcur, harg, -⟩ := s.nextTick_own
    generalize hu : s.nextTick s.clusterId = u at hclu hcur harg
    have hmask : u.arg.mask = 1#128 <<< k := by rw [harg]; exact hm
    have hid : u.clusterId = s.clusterId := congrArg (· / 32) hcur
    have hden : u.clu.denied = [] := by rw [hclu]; exact s.clu.pass_frame.1
    have hs : ({ u with clu := { u.clu with denied := [] } } : State) = u := by rw [← hden]
    unfold execArbitrationGrant
    simp only [hp', hm, requestsOf_alone k hk11, s.getClu_own, hd, if_neg hk8, List.any_cons, List.any_nil,
      List.contains_cons, beq_self_eq_true, Bool.true_or, Bool.or_false, ho, Bool.not_true, Bool.and_false,
      Bool.false_eq_true, if_false, if_true, hu]
    simp only [← hid, hmask, u.getClu_own, u.setClu_own, first_alone k _ hk11, if_neg hk8, hden,
      List.filter_nil, List.nil_append, List.filter_cons, bne_self_eq_false, Bool.false_eq_true, if_false, List.map_nil,
      List.foldl_nil, hs]
  · unfold execArbitrationGrant
    simp only [hp', hm, requestsOf_alone k hk11, s.getClu_own, hd, if_neg hk8, List.any_cons, List.any_nil,
      List.contains_cons,
      beq_self_eq_true, Bool.true_or, Bool.or_false, ho, Bool.not_false, Bool.and_self, if_true, Bool.false_eq_true,
        if_false]

/-! ### Page walks (01 R36) -/

/-- Where a walk starts that no walk cache shortens: at the root that TROOT names (01 R23). -/
theorem State.walk_root (s : State) (tid va : Nat) : s.walk tid va =
    s.walkFrom va walkLevels ((NatMap.get Tenant.reset s.tenants tid).troot.toNat / 65536 % 2 ^ 36 * 65536) := by
  rw [State.walk, bits_eq]
  rfl

/-- A walk that finds a pointer at each of the upper levels ends at the entry of the lowest (01 R22 to R26). -/
theorem State.walk_four_levels (s : State) (tid va t1 t2 t3 : Nat)
    (h1 : points s (s.word64 ((NatMap.get Tenant.reset s.tenants tid).troot.toNat / 65536 % 2 ^ 36 * 65536 +
      8 * slice va 39 13)) t1)
    (h2 : points s (s.word64 (t1 * 4096 + 8 * slice va 30 9)) t2) (h3 : points s (s.word64 (t2 * 4096 + 8 * slice va 21 9)) t3)
    (h0 : (s.word64 (t3 * 4096 + 8 * slice va 16 5)).getLsbD 0 = true)
    (h4 : (s.word64 (t3 * 4096 + 8 * slice va 16 5)).getLsbD 4 = true) :
    s.walk tid va = if s.leafOk (s.word64 (t3 * 4096 + 8 * slice va 16 5)) 65536 then
      .leaf (t3 * 4096 + 8 * slice va 16 5) 65536 (s.word64 (t3 * 4096 + 8 * slice va 16 5)) else .fault 2 := by
  rw [s.walk_root, walkLevels, s.walkFrom_points _ _ _ _ t1 _ _ (by simp) h1, s.walkFrom_points _ _ _ _ t2 _ _ (by simp) h2,
    s.walkFrom_points _ _ _ _ t3 _ _ (by simp) h3, s.walkFrom_leaf _ _ _ _ _ h0 h4]
  rfl

/-- An enabled tenant's address outside the launch window, that a TLB entry answers (01 R34): as the entry's leaf says. -/
theorem State.translate_hit (s : State) (p tid va : Nat) (l : Option Launch) (acc : Access) (e : TlbEntry) (h : va < 2 ^ 52)
    (hen : (NatMap.get Tenant.reset s.tenants tid).en = true) (hw : s.window l va acc = none)
    (he : (s.getClu p).tlb.find? (fun e => e.hits tid va && (!acc.wr || e.leaf.getLsbD 7 || !e.leaf.getLsbD 2)) = some e) :
    s.translate (some p) tid l va acc = (s, s.leafCheck tid e.leaf (leafPa e.leaf e.size va) acc) := by
  simp only [State.translate, Nat.not_le.mpr h, hen, hw, he, Bool.not_true, Bool.false_eq_true, if_false]

/-! ### Page walks (01 R36) -/

/-- A walk that ends in a leaf installs it, marked, in the cluster's TLB, marks the entry it read,
  and changes no other byte. -/
theorem State.walkInstall_leaf (s : State) (p tid va entry size : Nat) (l : Word) (h : s.upsets = [])
    (hw : s.walkVia (some p) tid va = .leaf entry size l) :
    let t := (s.walkInstall (some p) tid va true).1
    (t.getClu p).tlb.head? = some ⟨tid, va / size * size, size, l ||| 0xC0⟩ ∧
      t.byte entry = s.byte entry ||| 0xC0 ∧ (∀ a, a ≠ entry → t.byte a = s.byte a) ∧ t.ctx = s.ctx := by
  obtain ⟨c, w, q, hs⟩ := s.walked_traces (some p) tid va h
  obtain ⟨c', q', w', hm⟩ := State.markEntry_traces { s with cached := c, walkCache := w, watchQ := q } tid entry true h
  unfold State.walkInstall
  simp only [hw, hs, hm, if_true]
  refine ⟨?_, ?_, ?_, ?_⟩
  · rw [State.getClu_setClu, if_pos rfl]
    simp [tlbInstall, BitVec.or_assoc]
  · simp only [State.byte, State.setClu_mem]
    simp [State.setByte, BitVec.or_assoc]
  · intro a ha
    simp only [State.byte, State.setClu_mem]
    simp [State.setByte, ha]
  · rw [State.setClu_ctx]; rfl

/-- A walk that faults leaves traces only. -/
theorem State.walkInstall_fault (s : State) (p tid va code : Nat) (wr : Bool) (h : s.upsets = [])
    (hw : s.walkVia (some p) tid va = .fault code) :
    ∃ c w q, (s.walkInstall (some p) tid va wr).1 = { s with cached := c, walkCache := w, watchQ := q } := by
  unfold State.walkInstall
  rw [hw]
  exact s.walked_traces (some p) tid va h

/-- A leaf of this package with W set lets D be set (01 R36). -/
theorem State.mayWrite_leaf (s : State) (p tid va entry size : Nat) (l : Word)
    (hw : s.walkVia (some p) tid va = .leaf entry size l) (hp : leafPeer l = 0) (h : l.getLsbD 2 = true) :
    s.mayWrite (some p) tid va .write = true := by
  simp only [State.mayWrite, hw, s.leafCheck_own _ _ _ _ hp, h, if_true]

theorem State.pageWalkComplete_leaf (s : State) (entry size : Nat) (l : Word) (ha : s.arg.a < 128)
    (hen : (NatMap.get Tenant.reset s.tenants s.arg.b).en = true) (hva : s.arg.w.toNat < 2 ^ 52)
    (hw : s.walkVia (some s.arg.a) s.arg.b s.arg.w.toNat = .leaf entry size l) (hf : s.arg.flag = true) (hp : leafPeer l = 0)
    (h2 : l.getLsbD 2 = true) :
    execPageWalkComplete s = .next (s.walkInstall (some s.arg.a) s.arg.b s.arg.w.toNat true).1 := by
  rw [execPageWalkComplete, if_pos ⟨ha, hen, hva⟩, hf, s.mayWrite_leaf _ _ _ _ _ l hw hp h2, Bool.and_self]

theorem State.pageWalkComplete_fault (s : State) (code : Nat) (hu : s.upsets = [])
    (hw : s.walkVia (some s.arg.a) s.arg.b s.arg.w.toNat = .fault code) :
    ∃ c w q, execPageWalkComplete s = .next { s with cached := c, walkCache := w, watchQ := q } := by
  unfold execPageWalkComplete
  split
  · obtain ⟨c, w, q, h⟩ := s.walkInstall_fault _ _ _ code
      (s.arg.flag && s.mayWrite (some s.arg.a) s.arg.b s.arg.w.toNat .write) hu hw
    exact ⟨c, w, q, by rw [h]⟩
  · exact ⟨s.cached, s.walkCache, s.watchQ, rfl⟩

/-- Settles O33: translation by cases of its order of checks, walks level by level,
  installation by what a walk leaves behind,
and arbitration by the order of the requesters from the tick number on. -/
theorem walksAndTranslations : Obligations.WalksAndTranslations := by
  unfold Obligations.WalksAndTranslations
  refine ⟨fun s clu tid va l acc => ⟨fun h => ?_, fun h => ⟨fun hen => ?_, fun hen => ⟨fun t ht => ?_, ?_⟩⟩, ?_,
    fun h => ?_⟩,
    fun s hu => ⟨?_, ?_, ?_⟩⟩
  · exact if_pos h
  · simp only [State.translate, Nat.not_le.mpr h, hen, Bool.not_false, if_true, if_false]
    rfl
  · simp only [State.translate, Nat.not_le.mpr h, hen, ht, Bool.not_true, Bool.false_eq_true, if_false]
  · rintro p e rfl hw he hp
    rw [s.translate_hit p tid va l acc e h hen hw he, s.leafCheck_own _ _ _ _ hp, leafPa, bits_eq]
    rfl
  · intro t1 t2 t3
    exact s.walk_four_levels tid va t1 t2 t3
  · rw [s.walk_root]
    exact s.walkFrom_invalid _ _ _ _ _ _ h
  · intro entry size l ha hen hva hw hf hp h2
    exact ⟨_, s.pageWalkComplete_leaf entry size l ha hen hva hw hf hp h2, s.walkInstall_leaf _ _ _ entry size l hu hw⟩
  · intro code hw
    obtain ⟨c, w, q, h⟩ := s.pageWalkComplete_fault code hu hw
    exact ⟨_, h, rfl, rfl, rfl, rfl⟩
  · intro hp hc
    obtain ⟨hclu, -⟩ := s.nextTick_own
    exact ⟨fun k hk hm hd => s.arbitrationGrant_alone k hk hm hp hc hd,
      fun j k hj hk hm hd h => s.arbitrationGrant_loads j k hj hk hm hp hc hd h,
      fun k hk hm hd => s.arbitrationGrant_again k hk hm hp hc hd, hclu, s.clu.pass_frame⟩

end Sys2Proof.Machine
end

section
/-! ## The device register space (01 R23, R37, R470 to R472, 03 R99, 18 R417 to R426, 21 R464) -/

namespace Sys2Proof.Machine

open Sys2Proof Sys2Proof.Claims

/-! ### The arguments of a register write -/

theorem bits_extract {w : Nat} (v : BitVec w) (lo n : Nat) : bits v lo n = (v.extractLsb' lo n).toNat :=
  (BitVec.extractLsb'_toNat ..).symm

theorem State.tenantArg_lt (s : State) (h : s.arg.a < 256) : s.tenantArg = s.arg.a := Nat.mod_eq_of_lt h

/-! ### Invalidation (01 R37) -/

/-- A GO of a KIND at a pair that is not busy starts the invalidation, or sets ERR where its KIND is reserved or not its
function's. -/
theorem State.tinv_go (s : State) (kind : Nat) (ha : s.arg.a < 256) (h0 : s.arg.w.getLsbD 0 = true)
    (h30 : s.arg.w.getLsbD 30 = false) (hb : (NatMap.get Tenant.reset s.tenants s.arg.a).tinvBusy = false)
    (hk : bits s.arg.w 28 2 = kind) :
    let n := NatMap.get Tenant.reset s.tenants s.arg.a
    let who := if s.arg.a = 0 then s.arg.w.toNat / 2 ^ 20 % 256 else s.arg.a
    s.tinv kind = withT s s.arg.a (if kind = 3 ∨ (kind = 2 ∧ s.arg.a ≠ 0) then
      { n with tinvKind := kind, tinvTid := who, tinvErr := true }
      else { n with tinvKind := kind, tinvTid := who, tinvBusy := true }) := by
  simp only [State.tinv, State.writeTinvc, State.tenant, s.tenantArg_lt ha, h0, h30, hb, hk, bits_eq, Bool.false_eq_true,
    if_false, if_true, and_self]
  split <;> rfl

theorem State.flush_none (s : State) (p : Flight → Bool) (h : s.flights = []) : s.flush p = s := by
  have hs : ({ s with flights := [] } : State) = s := by rw [← h]
  simp only [State.flush, h, List.filter_nil, List.foldl_nil, hs]

/-- Changing the first `n` clusters one after another changes clusters only. -/
theorem foldl_setClu_frame (f : ClusterState → ClusterState) (l : List Nat) (s : State) :
    ∃ u us, l.foldl (fun t c => t.setClu c (f (t.getClu c))) s = { s with clu := u, clus := us } := by
  refine List.foldlRecOn (motive := fun t : State => ∃ u us, t = { s with clu := u, clus := us }) _ _
    ⟨s.clu, s.clus, rfl⟩ ?_
  rintro t ⟨u, us, rfl⟩ c -
  unfold State.setClu
  split <;> exact ⟨_, _, rfl⟩

theorem foldl_setClu_getClu (f : ClusterState → ClusterState) (n c : Nat) (s : State) :
    ((List.range n).foldl (fun t c => t.setClu c (f (t.getClu c))) s).getClu c =
      if c < n then f (s.getClu c) else s.getClu c := by
  induction n generalizing c with
  | zero => rfl
  | succ n ih =>
    rw [List.range_succ, List.foldl_append, List.foldl_cons, List.foldl_nil, State.getClu_setClu, ih, ih]
    rcases Nat.lt_trichotomy c n with hc | rfl | hc
    · simp [hc, hc.ne, Nat.lt_succ_of_lt hc]
    · simp
    · simp [hc.ne', Nat.not_lt.mpr hc.le, Nat.not_lt.mpr (Nat.succ_le_of_lt hc)]

/-- What an invalidation leaves where no store is on its way: TLBs and walk caches without the entries that go. -/
theorem State.dropTlb_frame (s : State) (tids : Nat → Bool) (p : Nat → Nat → Nat → Bool) (h : s.flights = []) :
    ∃ u us k, s.dropTlb tids p = { s with clu := u, clus := us, walkCache := k } ∧
      (∀ x ∈ k, ∀ e ∈ x.2, p e.tid e.va e.size = false) ∧
      ∀ c, c < 128 → ((s.dropTlb tids p).getClu c).tlb = (s.getClu c).tlb.filter fun e => !p e.tid e.va e.size := by
  have hf := fun u : State => foldl_setClu_frame
    (fun u => { u with tlb := u.tlb.filter fun e => !p e.tid e.va e.size }) (List.range 128) u
  have hg := fun (c : Nat) (u : State) => foldl_setClu_getClu
    (fun u => { u with tlb := u.tlb.filter fun e => !p e.tid e.va e.size }) 128 c u
  unfold State.dropTlb
  rw [s.flush_none _ h]
  dsimp only at hf hg ⊢
  obtain ⟨u, us, he⟩ := hf { s with walkCache := (s.walkCache.map fun x =>
    (x.1, x.2.filter fun e => !p e.tid e.va e.size)).filter fun x => !x.2.isEmpty }
  refine ⟨u, us, _, he, ?_, fun c hc => ?_⟩
  · intro x hx e hxe
    obtain ⟨y, -, rfl⟩ := List.mem_map.mp (List.mem_filter.mp hx).1
    simpa using (List.mem_filter.mp hxe).2
  · rw [hg, if_pos hc]
    rfl

/-- The tenants whose entries the invalidation of pair `t` drops (01 R37). -/
def Tenant.names (n : Tenant) (t x : Nat) : Bool := n.tinvKind == 2 || x == (if t = 0 then n.tinvTid else t)

/-- The entries that the invalidation of pair `t` drops: of a tenant it names, for KIND 0 those that hold TINVA. -/
def Tenant.drops (n : Tenant) (t tid va size : Nat) : Bool :=
  n.names t tid && (n.tinvKind != 0 || (decide (va ≤ n.tinva.toNat % 2 ^ 52 / 65536 * 65536) &&
    decide (n.tinva.toNat % 2 ^ 52 / 65536 * 65536 < va + size)))

theorem State.tinvComplete_idle (s : State) (ha : s.arg.a < 256)
    (hb : (NatMap.get Tenant.reset s.tenants s.arg.a).tinvBusy = false) : execTinvComplete s = .next s := by
  simp only [execTinvComplete, State.tenant, s.tenantArg_lt ha, hb, Bool.not_false, if_true]

/-- TINV_COMPLETE of a busy pair, no store being on its way: the entries it names go, and BUSY stands while what was
translated before has not performed. -/
theorem State.tinvComplete_busy (s : State) (n : Tenant) (ha : s.arg.a < 256) (hn : s.tenant s.arg.a = n)
    (hb : n.tinvBusy = true) (hf : s.flights = []) :
    ∃ t, execTinvComplete s = .next t ∧ t.ctx = s.ctx ∧ t.mem = s.mem ∧
      (t.tenant s.arg.a).tinvBusy = s.translatedOut (n.names s.arg.a) ∧
      (∀ c, c < 128 → (t.getClu c).tlb = (s.getClu c).tlb.filter fun e => !n.drops s.arg.a e.tid e.va e.size) ∧
      ∀ x ∈ t.walkCache, ∀ e ∈ x.2, n.drops s.arg.a e.tid e.va e.size = false := by
  obtain ⟨u, us, k, he, hk, ht⟩ := s.dropTlb_frame (n.names s.arg.a) (n.drops s.arg.a) hf
  have hva : bits n.tinva 16 36 * 65536 = n.tinva.toNat % 2 ^ 52 / 65536 * 65536 := by rw [bits_eq]; omega
  have hout : (s.dropTlb (n.names s.arg.a) (n.drops s.arg.a)).translatedOut (n.names s.arg.a) =
      s.translatedOut (n.names s.arg.a) := by rw [he]; rfl
  have hx : execTinvComplete s = .next (if s.translatedOut (n.names s.arg.a) then s.dropTlb (n.names s.arg.a) (n.drops s.arg.a)
      else (s.dropTlb (n.names s.arg.a) (n.drops s.arg.a)).setTenant s.arg.a
        { (s.dropTlb (n.names s.arg.a) (n.drops s.arg.a)).tenant s.arg.a with tinvBusy := false }) := by
    rw [← hout]
    simp only [execTinvComplete, s.tenantArg_lt ha, hn, hb, hva, Bool.not_true, Bool.false_eq_true, if_false]
    rfl
  have hten : (s.dropTlb (n.names s.arg.a) (n.drops s.arg.a)).tenant s.arg.a = n := by rw [he]; exact hn
  rw [hten] at hx
  refine ⟨_, hx, ?_⟩
  split
  · next ho => exact ⟨by rw [he], by rw [he], by rw [hten, ho]; exact hb, ht, by rw [he]; exact hk⟩
  · next ho => exact ⟨by rw [he]; rfl, by rw [he]; rfl, by simp [State.setTenant, State.tenant, ho], ht,
      by rw [he]; exact hk⟩

/-! ### Tenants and communicators (01 R23, R472) -/

/-- EN is set where TROOT lies in the cellar below the lumber room, else ERR (01 R23). -/
theorem State.tenantEnable_go (s : State) (ha : s.arg.a < 256) (h0 : s.arg.w.getLsbD 0 = true)
    (h1 : s.arg.w.getLsbD 1 = false) :
    let n := NatMap.get Tenant.reset s.tenants s.arg.a
    execTenantEnable s = .next (withT s s.arg.a (if n.troot.toNat % 2 ^ 52 / 65536 * 65536 < s.lumberBase then
      { n with en := true } else { n with en := false, terr := true })) := by
  have hr : ∀ v : Word, bits v 16 36 * 65536 = v.toNat % 2 ^ 52 / 65536 * 65536 := fun v => by rw [bits_eq]; omega
  simp only [execTenantEnable, State.writeTctl, State.tenant, s.tenantArg_lt ha, h0, h1, hr, Bool.false_eq_true, if_false,
    if_true]
  split <;> rfl

/-- A header is written where its M is neither 1 nor above 4,096. -/
theorem State.cmdata_header (s : State) (ha : s.arg.a < 256) (hf : s.arg.flag = true)
    (h31 : (NatMap.get Tenant.reset s.tenants s.arg.a).cmsel.getLsbD 31 = true) (h1 : s.arg.w.toNat % 8192 ≠ 1)
    (hm : s.arg.w.toNat % 8192 ≤ 4096) :
    let n := NatMap.get Tenant.reset s.tenants s.arg.a
    execCmdataAccess s = .next (withT s s.arg.a { n with
      comm := NatMap.set 0 n.comm (n.cmsel.toNat % 256 * 8192 + 4096) (s.arg.w &&& 0x0FFF1FFF) }) := by
  have hb : ¬ (bits s.arg.w 0 13 = 1 ∨ 4096 < bits s.arg.w 0 13) := by rw [bits_eq]; omega
  have hk : ∀ v : Word, bits v 0 8 = v.toNat % 256 := fun v => by rw [bits_eq]; omega
  simp only [execCmdataAccess, State.writeCmdata, Tenant.commKey, State.tenant, s.tenantArg_lt ha, hf, h31, if_neg hb, hk,
    if_true]
  rfl

/-- A rank's device is written where the rank is below M. -/
theorem State.cmdata_rank (s : State) (ha : s.arg.a < 256) (hf : s.arg.flag = true)
    (h31 : (NatMap.get Tenant.reset s.tenants s.arg.a).cmsel.getLsbD 31 = false)
    (hr : let n := NatMap.get Tenant.reset s.tenants s.arg.a
      n.cmsel.toNat / 65536 % 4096 < (NatMap.get 0 n.comm (n.cmsel.toNat % 256 * 8192 + 4096)).toNat % 8192) :
    let n := NatMap.get Tenant.reset s.tenants s.arg.a
    execCmdataAccess s = .next (withT s s.arg.a { n with
      comm := NatMap.set 0 n.comm (n.cmsel.toNat % 256 * 8192 + n.cmsel.toNat / 65536 % 4096) (s.arg.w &&& 0xFFF) }) := by
  have hk : ∀ v : Word, bits v 0 8 = v.toNat % 256 := fun v => by rw [bits_eq]; omega
  have hm : ∀ v : Word, bits v 0 13 = v.toNat % 8192 := fun v => by rw [bits_eq]; omega
  have hs : ∀ v : Word, bits v 16 12 = v.toNat / 65536 % 4096 := fun v => by rw [bits_eq]; rfl
  simp only [execCmdataAccess, State.writeCmdata, Tenant.commKey, Tenant.members, State.tenant, s.tenantArg_lt ha, hf,
    h31, hk, hm, hs, if_neg (Nat.not_le.mpr hr), Bool.false_eq_true, if_false, if_true]
  rfl

/-! ### The fault queue (18 R417 to R419) -/

/-- Where nothing waits for a ring nothing is tried again. -/
theorem State.retryFq_idle (s : State) (t : Nat) (ho : s.fqOver = [])
    (hc : ∀ id ∈ s.cur :: s.ctxs.map Prod.fst, (s.getCtx id).q.sysc = []) : s.retryFq t = s := by
  have he : (s.cur :: s.ctxs.map Prod.fst).filter
      (fun id => !(s.getCtx id).q.sysc.isEmpty && s.tidOf (s.getCtx id) == t) = [] :=
    List.filter_eq_nil_iff.mpr fun id hid => by simp [hc id hid]
  simp only [State.retryFq, ho, State.retryPosts, he, List.foldl_nil]

/-- FQBASE, FQLOG and FQHEAD take what is written. -/
theorem State.fqRegisterWrite_idle (s : State) (ha : s.arg.a < 256) (ho : s.fqOver = [])
    (hc : ∀ id ∈ s.cur :: s.ctxs.map Prod.fst, (s.getCtx id).q.sysc = []) :
    let n := NatMap.get Tenant.reset s.tenants s.arg.a
    (s.arg.b = 0 → execFqRegisterWrite s = .next (withT s s.arg.a { n with fqbase := s.arg.w &&& 0xFFFFFFFFFFFFFFC0 })) ∧
    (s.arg.b = 1 → execFqRegisterWrite s = .next (withT s s.arg.a { n with fqlog := s.arg.w &&& 0xF })) ∧
    (s.arg.b = 3 → execFqRegisterWrite s = .next (withT s s.arg.a { n with fqhead := s.arg.w })) := by
  intro n
  have hr : ∀ m : Tenant, (s.setTenant s.arg.a m).retryFq s.arg.a = withT s s.arg.a m := fun m =>
    State.retryFq_idle _ _ ho hc
  refine ⟨fun hb => ?_, fun hb => ?_, fun hb => ?_⟩
  all_goals
    simp only [execFqRegisterWrite, State.writeFq, s.tenantArg_lt ha, hb, hr, if_true, true_or, or_true, Nat.reduceMul,
      Nat.reduceAdd]
    rfl

/-- The only command in the engines, stopped at a fault of its tenant, is the one served under its identifier. -/
theorem State.serviced_only (s : State) (c : CopyCmd) (cause : BitVec 8) (code : BitVec 16) (va : Nat) (hs : s.copies = [c])
    (hi : c.ident = s.arg.w.toNat % 8192) (ht : c.tid = s.arg.a) (hc : c.st = .faulted cause code va) :
    s.serviced s.arg.a s.arg.w = some c := by
  have hb : bits s.arg.w 0 13 = c.ident := by rw [bits_eq, hi, pow_zero, Nat.div_one]; rfl
  simp [State.serviced, hs, hb, ht, hc]

/-- RESUME lets a command go on (18 R419). -/
theorem State.fqservResume_only (s : State) (c : CopyCmd) (ha : s.arg.a < 256) (hv : s.serviced s.arg.a s.arg.w = some c)
    (hs : s.copies = [c]) (hcoll : s.colls = []) (hq : s.autoQ = []) (hw : s.arg.w.extractLsb' 62 2 = 1) :
    execFqservResume s = .next { s with copies := [{ c with st := .running }] } := by
  have hb : bits s.arg.w 62 2 = 1 := by rw [bits_extract, hw]; rfl
  simp only [execFqservResume, State.writeFqserv, s.tenantArg_lt ha, hv, hb, hcoll, hq, State.modCopy, hs, List.any_nil,
    Bool.false_eq_true, if_false, if_true, List.map_cons, List.map_nil]

theorem State.modCtx_copies (s : State) (i : Nat) (f : Context → Context) : (s.modCtx i f).copies = s.copies := by
  unfold State.modCtx State.setCtx
  split
  · rfl
  · split
    · split <;> rfl
    · rfl

theorem State.doom_copies (s : State) (t cause : Nat) : (s.doom t cause).copies = s.copies := by
  unfold State.doom
  split
  · rfl
  · split
    · rfl
    · exact State.modCtx_copies _ _ _

theorem State.doom_mem (s : State) (t cause : Nat) : (s.doom t cause).mem = s.mem := by
  unfold State.doom
  split
  · rfl
  · split
    · rfl
    · exact State.modCtx_mem _ _ _

/-- A command that fails makes no further write, and memory stays (10 R300). -/
theorem State.failCopy_frame (s : State) (c : CopyCmd) (hs : s.copies = [c]) :
    (s.failCopy c.ident).copies = [{ c with failed := true, st := .written }] ∧ (s.failCopy c.ident).mem = s.mem := by
  have hc : s.copyOf c.ident = some c := by simp [State.copyOf, hs]
  unfold State.failCopy
  rw [hc]
  cases htx : c.tx <;> cases hl : c.land <;>
    simp [State.answer, State.modCtx_copies, State.modCtx_mem, State.doom_copies, State.doom_mem, State.modCopy,
      State.withdraw, hs, htx, hl]

/-- END makes a command fail. -/
theorem State.fqservEnd_only (s : State) (c : CopyCmd) (ha : s.arg.a < 256) (hv : s.serviced s.arg.a s.arg.w = some c)
    (hw : s.arg.w.extractLsb' 62 2 = 2) : execFqservEnd s = .next (s.failCopy c.ident) := by
  have hb : bits s.arg.w 62 2 = 2 := by rw [bits_extract, hw]; rfl
  simp only [execFqservEnd, State.writeFqserv, s.tenantArg_lt ha, hv, hb, if_true]

/-- A service write that names no stopped command sets BADSRV. -/
theorem State.fqserv_bad (s : State) (ha : s.arg.a < 256) (hs : s.copies = []) :
    let n := NatMap.get Tenant.reset s.tenants s.arg.a
    (s.arg.w.extractLsb' 62 2 = 1 → execFqservResume s = .next (withT s s.arg.a { n with badsrv := true })) ∧
    (s.arg.w.extractLsb' 62 2 = 2 → execFqservEnd s = .next (withT s s.arg.a { n with badsrv := true })) := by
  have hv : s.serviced s.arg.a s.arg.w = none := by simp [State.serviced, hs]
  refine ⟨fun hw => ?_, fun hw => ?_⟩
  · have hb : bits s.arg.w 62 2 = 1 := by rw [bits_extract, hw]; rfl
    simp only [execFqservResume, State.writeFqserv, s.tenantArg_lt ha, hv, hb, if_true]
    rfl
  · have hb : bits s.arg.w 62 2 = 2 := by rw [bits_extract, hw]; rfl
    simp only [execFqservEnd, State.writeFqserv, s.tenantArg_lt ha, hv, hb, if_true]
    rfl

/-! ### Flags and contexts -/

/-- A running context that is put in its place leaves every other context, running or saved, as it was. -/
theorem State.getCtx_setCtx_other (s : State) {a b : Nat} (c : Context) (ha : a < 4096) (h : b ≠ a) :
    (s.setCtx a c).getCtx b = s.getCtx b := by
  have na : ¬ 4096 ≤ a := by omega
  unfold State.setCtx State.getCtx
  by_cases h1 : a = s.cur
  · subst h1
    simp only [if_true, if_neg h]
  · simp only [h1, na, if_false, NatMap.get_set, if_neg h]

theorem State.getCtx_setCtx_same (s : State) {a : Nat} (c : Context) (ha : a < 4096) : (s.setCtx a c).getCtx a = c :=
  (s.getCtx_setCtx a a c ha ha).trans (if_pos rfl)

/-- FLGSET raises the flag it names in the context it names, where the launch is the tenant's own. -/
theorem State.flgset_own (s : State) (l : Launch) (id : Nat) (ha : s.arg.a < 256)
    (hl : NatMap.find? s.launches (s.arg.w.toNat / 2 ^ 32 % 65536) = some l) (ht : l.tid = s.arg.a)
    (hp : s.findPlace (s.arg.w.toNat / 2 ^ 32 % 65536) (s.arg.w.toNat / 256 % 256) (s.arg.w.toNat / 16 % 8)
      (s.arg.w.toNat % 4) = some id) :
    execFlgset s = .next (s.setCtx id ((s.getCtx id).setFlag (s.arg.w.toNat / 65536 % 32))) := by
  have h32 : bits s.arg.w 32 16 = s.arg.w.toNat / 2 ^ 32 % 65536 := bits_eq _ _ _
  have h8 : bits s.arg.w 8 8 = s.arg.w.toNat / 256 % 256 := bits_eq _ _ _
  have h4 : bits s.arg.w 4 3 = s.arg.w.toNat / 16 % 8 := bits_eq _ _ _
  have h0 : bits s.arg.w 0 2 = s.arg.w.toNat % 4 := by rw [bits_eq, pow_zero, Nat.div_one]; rfl
  have h16 : bits s.arg.w 16 5 = s.arg.w.toNat / 65536 % 32 := bits_eq _ _ _
  simp only [execFlgset, State.writeFlgset, State.raiseFlag, State.modCtx, s.tenantArg_lt ha, h32, h8, h4, h0, h16, hl,
    ht, hp, if_true]

/-- FLGSET of another tenant's launch is ignored. -/
theorem State.flgset_other (s : State) (l : Launch) (ha : s.arg.a < 256)
    (hl : NatMap.find? s.launches (s.arg.w.toNat / 2 ^ 32 % 65536) = some l) (ht : l.tid ≠ s.arg.a) :
    execFlgset s = .next s := by
  have h32 : bits s.arg.w 32 16 = s.arg.w.toNat / 2 ^ 32 % 65536 := bits_eq _ _ _
  simp only [execFlgset, State.writeFlgset, s.tenantArg_lt ha, h32, hl, if_neg ht]

/-! ### Machine-check, collector and start registers (18 R425, R426, 03 R99, 21 R464) -/

/-- A record empties where the SEQ that is written is its own. -/
theorem State.mcaRecordClear_same (s : State) (ha : s.arg.a < 64) (h63 : s.arg.w.getLsbD 63 = true) :
    let m := NatMap.get Mca.reset s.mca s.arg.a
    (s.arg.flag = false → s.arg.w.extractLsb' 16 16 = m.fcls.extractLsb' 16 16 →
      execMcaRecordClear s = .next { s with
        mca := NatMap.set .reset s.mca s.arg.a { m with fcls := 0, floc := 0, forg := 0 } }) ∧
    (s.arg.flag = true → s.arg.w.extractLsb' 16 16 = m.wcls.extractLsb' 16 16 →
      execMcaRecordClear s = .next { s with
        mca := NatMap.set .reset s.mca s.arg.a { m with wcls := 0, wloc := 0, worg := 0 } }) := by
  refine ⟨fun hf hq => ?_, fun hf hq => ?_⟩
  all_goals
    simp only [execMcaRecordClear, Mca.clear, Nat.mod_eq_of_lt ha, h63, hf, bits_extract, hq, Bool.not_true,
      Bool.false_eq_true, if_false, if_true]

/-- Reading ECNT clears MISS. -/
theorem State.mcaEcntRead_bank (s : State) (ha : s.arg.a < 64) :
    let m := NatMap.get Mca.reset s.mca s.arg.a
    execMcaEcntRead s = .next { s with
      outbox := s.outbox ++ [.readback m.ecnt]
      mca := NatMap.set .reset s.mca s.arg.a { m with ecnt := m.ecnt &&& 0xFFFFFFFF0000FFFF } } := by
  have hb : ∀ e : Word, setBits e 16 16 0 = e &&& 0xFFFFFFFF0000FFFF := fun e =>
    (congrArg (e &&& ~~~ (wd (2 ^ 16 - 1) <<< 16) ||| ·) (by decide : wd (0 % 2 ^ 16) <<< 16 = 0)).trans (BitVec.or_zero ..)
  simp only [execMcaEcntRead, Nat.mod_eq_of_lt ha, hb]
  rfl

theorem State.colfreedRead_hub (s : State) (ha : s.arg.a < 4) :
    execColfreedRead s = .next { s with
      outbox := s.outbox ++ [.readback (NatMap.get 0 s.colfreed s.arg.a)], colfreed := NatMap.del s.colfreed s.arg.a } := by
  simp only [execColfreedRead, Nat.mod_eq_of_lt ha, NatMap.set, if_true]
  rfl

/-- A write of STARTCTL with GO by the event of its KIND. -/
theorem State.startctl_go (s : State) (k : Nat) (hk : k = 1 ∨ k = 2) (h0 : s.arg.w.getLsbD 0 = true) (hb : bits s.arg.w 1 2 = k) :
    exec (if k = 1 then .startctlCold else .startctlWarm) s = .next (s.writeStartctl s.arg.w) := by
  rcases hk with rfl | rfl
  · exact congrArg Host.Outcome.next (if_pos ⟨h0, hb⟩)
  · exact congrArg Host.Outcome.next (if_pos ⟨h0, hb⟩)

/-- A GO of a KIND that is not reserved, with LRSZ 6: the start is accepted where none runs. -/
theorem State.writeStartctl_accepted (s : State) (k : Nat) (hk : k = 1 ∨ k = 2) (hw : s.arg.w.toNat = 1 + 2 * k + 65536 * 6)
    (hs : s.mgmt.starting = false) :
    exec (if k = 1 then .startctlCold else .startctlWarm) s = .next { s with
      halted := true
      mgmt := { s.mgmt with lrsz := 6, stkind := k, starting := true, goWarm := k == 2, ready := false } } := by
  have h0 : s.arg.w.getLsbD 0 = true := by rw [BitVec.getLsbD, hw, Nat.testBit_zero]; simp; omega
  have h8 : s.arg.w.getLsbD 8 = false := by rw [BitVec.getLsbD, hw, Nat.testBit_eq_decide_div_mod_eq]; simp; omega
  have hb : bits s.arg.w 1 2 = k := by rw [bits_eq, hw]; omega
  have hl : bits s.arg.w 16 4 = 6 := by rw [bits_eq, hw]; omega
  have hgo : ¬ (k = 0 ∨ k = 3 ∨ 6 < 3 ∨ 12 < 6 ∨ s.mgmt.starting = true) := by simp [hs]; omega
  rw [s.startctl_go k hk h0 hb]
  simp only [State.writeStartctl, h0, h8, hb, hl, if_neg hgo, Bool.false_eq_true, if_false, if_true]

/-- A GO with an LRSZ of 2 sets ERR and changes nothing else. -/
theorem State.writeStartctl_refused (s : State) (k : Nat) (hk : k = 1 ∨ k = 2) (hw : s.arg.w.toNat = 1 + 2 * k + 65536 * 2) :
    exec (if k = 1 then .startctlCold else .startctlWarm) s = .next { s with mgmt := { s.mgmt with sterr := true } } := by
  have h0 : s.arg.w.getLsbD 0 = true := by rw [BitVec.getLsbD, hw, Nat.testBit_zero]; simp; omega
  have h8 : s.arg.w.getLsbD 8 = false := by rw [BitVec.getLsbD, hw, Nat.testBit_eq_decide_div_mod_eq]; simp; omega
  have hb : bits s.arg.w 1 2 = k := by rw [bits_eq, hw]; omega
  have hl : bits s.arg.w 16 4 = 2 := by rw [bits_eq, hw]; omega
  have hgo : k = 0 ∨ k = 3 ∨ 2 < 3 ∨ 12 < 2 ∨ s.mgmt.starting = true := by omega
  rw [s.startctl_go k hk h0 hb]
  simp only [State.writeStartctl, h0, h8, hb, hl, if_pos hgo, Bool.false_eq_true, if_false, if_true]

/-! ### DBGCTL (18 R423, 21 R469) -/

/-- DBGCTL takes its step bit where debugging at level INVASIVE covers the context. -/
theorem State.dbgctlWrite_covered (s : State) (ha : s.arg.a < 4096) (hd : s.mgmt.debug = .invasive) (hp : s.mgmt.power ≠ .off)
    (hg : s.mgmt.power = .gated → (s.getClu (s.arg.a / 32)).gated = false) :
    execDbgctlWrite s = .next (s.setCtx s.arg.a { s.getCtx s.arg.a with dbgStep := s.arg.w.getLsbD 0 }) := by
  have hn : s.notLive (s.arg.a / 32) = false := by
    cases hpow : s.mgmt.power <;> simp [State.notLive, hpow, hg]
  simp only [execDbgctlWrite, State.writeDbg, hd, hn, ha, bne_iff_ne.mpr hp, beq_self_eq_true, Bool.not_false,
    decide_true, Bool.and_self, if_true]
  rfl

/-- DBGCTL of a context that debugging does not cover ignores a write. -/
theorem State.dbgctlWrite_ignored (s : State) (h : s.mgmt.debug ≠ .invasive ∨ s.mgmt.power = .off ∨
    s.mgmt.power = .gated ∧ (s.getClu (s.arg.a / 32)).gated = true) : execDbgctlWrite s = .next s := by
  refine congrArg Host.Outcome.next (if_neg ?_)
  rcases h with h | h | ⟨h, hg⟩
  · simp [h]
  · simp [h]
  · simp [State.notLive, h, hg]

/-! ### Writes by function and offset (01 R470, R471) -/

/-- The register space as a write finds it: in OFF only what the management processor serves (21 R469). -/
def State.served (s : State) (fn off : Nat) : RegAt :=
  if (s.regAt fn off).answers (s.mgmt.power == .off) then s.regAt fn off else .none

theorem State.registerWrite_none (s : State) (ha : s.arg.a < 256) (h : s.served s.arg.a s.arg.b = .none) :
    execRegisterWrite s = .next s := by
  unfold State.served at h
  unfold execRegisterWrite State.writeReg
  rw [s.tenantArg_lt ha, h]

theorem State.registerWrite_tenant (s : State) (t o : Nat) (ha : s.arg.a < 256) (h : s.served s.arg.a s.arg.b = .tenant t o) :
    execRegisterWrite s = .next (s.writeTenant s.arg.a t o s.arg.w) := by
  unfold State.served at h
  unfold execRegisterWrite State.writeReg
  rw [s.tenantArg_lt ha, h]

theorem RegAt.answers_on (r : RegAt) : r.answers false = true := by
  unfold RegAt.answers
  split <;> rfl

theorem RegAt.answers_pkg (o : Nat) (h : (RegAt.pkg o).answers true = true) : o = 0x18 ∨ o = 0x20 := by
  unfold RegAt.answers at h
  split at h
  · next e => exact .inl (RegAt.pkg.inj e)
  · next e => exact .inr (RegAt.pkg.inj e)
  · next e => cases e
  · cases h

theorem RegAt.answers_mca (n o : Nat) (h : (RegAt.mca n o).answers true = true) : n = 61 := by
  simpa [RegAt.answers] using h

/-- Where in OFF a register answers: STARTCTL, STARTST and MCA bank 61 (21 R469). -/
theorem State.regAt_answers_off (s : State) (fn off : Nat) (h : (s.regAt fn off).answers true = true) :
    off = 0x50018 ∨ off = 0x50020 ∨ 0x60F40 ≤ off ∧ off < 0x60F80 := by
  by_contra hn
  have hp : ¬ off < 0x50000 → off < 0x60000 → (RegAt.pkg (off - 0x50000)).answers true = false := fun h1 h2 =>
    Bool.eq_false_iff.mpr fun hp => by have := RegAt.answers_pkg _ hp; omega
  have hm : ¬ off < 0x60000 → off < 0x61000 →
    (RegAt.mca ((off - 0x60000) / 64) ((off - 0x60000) % 64)).answers true = false :=
    fun h1 h2 => Bool.eq_false_iff.mpr fun hm => by have := RegAt.answers_mca _ _ hm; omega
  refine absurd h (Bool.eq_false_iff.mp ?_)
  simp only [State.regAt, apply_ite (RegAt.answers true)]
  refine ite_eq_iff'.mpr ⟨fun _ => rfl, fun _ => ite_eq_iff'.mpr ⟨fun _ => ite_self _,
    fun h5 => ite_eq_iff'.mpr ⟨fun _ => rfl, fun _ => ite_eq_iff'.mpr ⟨hp h5, fun h6 => ite_eq_iff'.mpr ⟨hm h6, fun _ => ?_⟩⟩⟩⟩⟩
  change (if _ then false else if _ then false else if _ then false else if _ then if _ then false else false else
    if _ then false else false) = false
  simp only [ite_self]

theorem State.served_on (s : State) (fn off : Nat) (hp : s.mgmt.power ≠ .off) : s.served fn off = s.regAt fn off := by
  have hb : (s.mgmt.power == .off) = false := by simpa using hp
  rw [State.served, hb, RegAt.answers_on, if_pos rfl]

/-- A write to STARTST, which is only read, is ignored. -/
theorem State.registerWrite_startst (s : State) (ha : s.arg.a < 256) (h : s.served s.arg.a s.arg.b = .pkg 0x20) :
    execRegisterWrite s = .next s := by
  unfold State.served at h
  unfold execRegisterWrite State.writeReg
  rw [s.tenantArg_lt ha, h]
  rfl

/-- A register that is none does not answer either. -/
theorem State.served_none (s : State) (fn off : Nat) (h : s.regAt fn off = .none) : s.served fn off = .none := by
  unfold State.served
  split
  · exact h
  · rfl

/-- A virtual function reaches nothing from 0x50000 up. -/
theorem State.regAt_beyond (s : State) (fn off : Nat) (hf : fn ≠ 0) (h : 0x50000 ≤ off) : s.regAt fn off = .none := by
  simp only [State.regAt, Nat.not_lt.mpr h, Nat.not_lt.mpr (show 0x10000 ≤ off by omega), hf, if_false, ne_eq,
    not_false_eq_true, if_true]

/-- A virtual function does not reach another tenant's queue. -/
theorem State.regAt_foreign (s : State) (fn off q : Nat) (hf : fn ≠ 0) (hq : q < 8192) (ht : (s.queue q).tid ≠ fn)
    (hl : 0x10000 + 32 * q ≤ off) (hh : off < 0x10000 + 32 * q + 32) : s.regAt fn off = .none := by
  have hi : (off - 0x10000) / 32 = q := by omega
  simp only [State.regAt, if_neg (show ¬ off < 0x10000 by omega), if_pos (show off < 0x50000 by omega), hi, hf, ht,
    or_self, if_false]

/-- In OFF a write elsewhere than to STARTCTL and bank 61 is ignored (21 R469). -/
theorem State.registerWrite_off (s : State) (ha : s.arg.a < 256) (hp : s.mgmt.power = .off) (h1 : s.arg.b ≠ 0x50018)
    (h2 : s.arg.b < 0x60F40 ∨ 0x60F80 ≤ s.arg.b) : execRegisterWrite s = .next s := by
  have hb : (s.mgmt.power == .off) = true := by simpa using hp
  by_cases hr : (s.regAt s.arg.a s.arg.b).answers true = true
  · have hst : s.arg.b = 0x50020 := by have := s.regAt_answers_off _ _ hr; omega
    by_cases h0 : s.arg.a = 0
    · exact s.registerWrite_startst ha (by rw [State.served, hb, if_pos hr, hst, h0]; rfl)
    · exact s.registerWrite_none ha (s.served_none _ _ (s.regAt_beyond _ _ h0 (by omega)))
  · exact s.registerWrite_none ha (by rw [State.served, hb, if_neg hr])

/-- The physical function reaches the page of every tenant. -/
theorem State.regAt_page (s : State) (t o : Nat) (ht : t < 256) (ho : o < 0x10000) :
    s.regAt 0 (0x1000000 + 0x10000 * t + o) = .tenant t o := by
  have hq : (0x1000000 + 0x10000 * t + o - 0x1000000) / 0x10000 = t := by omega
  have hm : (0x1000000 + 0x10000 * t + o - 0x1000000) % 0x10000 = o := by omega
  rw [State.regAt, if_neg (by omega), if_neg (by omega), if_neg (by omega), if_neg (by omega), if_neg (by omega),
    if_neg (by omega), if_neg (by omega), if_neg (by omega), if_neg (by omega), if_pos (by omega), hq, hm]

/-- What the physical function alone writes of a tenant's page. -/
theorem State.writeTenant_foreign (s : State) (fn t o : Nat) (v : Word) (hf : fn ≠ 0)
    (ho : o ∈ [0x00, 0x08, 0x10, 0x18, 0x20, 0x1002, 0x11FE]) : s.writeTenant fn t o v = s := by
  simp only [List.mem_cons, List.not_mem_nil, or_false] at ho
  rcases ho with rfl | rfl | rfl | rfl | rfl | rfl | rfl <;> exact if_neg hf

/-- What a function writes at an offset, by what it may reach (01 R470, R471). -/
theorem State.registerWrite_reach (s : State) (ha : s.arg.a < 256) :
    let fn := s.arg.a
    let off := s.arg.b
    (fn ≠ 0 → 0x50000 ≤ off → exec .registerWrite s = .next s) ∧
    (fn ≠ 0 → off ∈ [0x00, 0x08, 0x10, 0x18, 0x20, 0x1002, 0x11FE] → exec .registerWrite s = .next s) ∧
    (∀ q, fn ≠ 0 → q < 8192 → (s.queue q).tid ≠ fn → 0x10000 + 32 * q ≤ off → off < 0x10000 + 32 * q + 32 →
      exec .registerWrite s = .next s) := by
  refine ⟨fun hf h => ?_, fun hf h => ?_, fun q hf hq ht hl hh => ?_⟩
  · exact s.registerWrite_none ha (s.served_none _ _ (s.regAt_beyond _ _ hf h))
  · have hlt : s.arg.b < 0x10000 := by
      have : ∀ o ∈ [0x00, 0x08, 0x10, 0x18, 0x20, 0x1002, 0x11FE], o < 0x10000 := by decide
      exact this _ h
    by_cases hp : s.mgmt.power = .off
    · have : ∀ o, o < 0x10000 → o ≠ 0x50018 ∧ (o < 0x60F40 ∨ 0x60F80 ≤ o) := by omega
      exact s.registerWrite_off ha hp (this _ hlt).1 (this _ hlt).2
    · have hr : s.served s.arg.a s.arg.b = .tenant s.arg.a s.arg.b := (s.served_on _ _ hp).trans (if_pos hlt)
      exact (s.registerWrite_tenant _ _ ha hr).trans (congrArg _ (s.writeTenant_foreign _ _ _ _ hf h))
  · exact s.registerWrite_none ha (s.served_none _ _ (s.regAt_foreign _ _ q hf hq ht hl hh))

/-- The physical function's writes to a tenant's TROOT, SNQ and TINVA. -/
theorem State.registerWrite_page (s : State) (t : Nat) (h0 : s.arg.a = 0) (ht : t < 256) (hp : s.mgmt.power ≠ .off) :
    let n := NatMap.get Tenant.reset s.tenants t
    let off := s.arg.b
    (off = 0x1000000 + 0x10000 * t → exec .registerWrite s = .next (withT s t { n with
      troot := s.arg.w &&& 0xFFFFFFFFF0000 })) ∧
    (off = 0x1000010 + 0x10000 * t → exec .registerWrite s = .next (withT s t { n with snq := s.arg.w.toNat % 8192 })) ∧
    (off = 0x1000040 + 0x10000 * t → exec .registerWrite s = .next (withT s t { n with tinva := s.arg.w })) := by
  have hr : ∀ o, o < 0x10000 → s.arg.b = 0x1000000 + 0x10000 * t + o →
      exec .registerWrite s = .next (s.writeTenant 0 t o s.arg.w) := fun o ho hb => by
    rw [← h0]
    refine s.registerWrite_tenant t o (by omega) ?_
    rw [s.served_on _ _ hp, hb, h0, s.regAt_page t o ht ho]
  refine ⟨fun hb => ?_, fun hb => ?_, fun hb => ?_⟩
  · rw [hr 0x00 (by decide) (by omega)]; rfl
  · have hs : bits s.arg.w 0 13 = s.arg.w.toNat % 8192 := by rw [bits_eq, pow_zero, Nat.div_one]; rfl
    rw [hr 0x10 (by decide) (by omega), ← hs]; rfl
  · rw [hr 0x40 (by decide) (by omega)]; rfl

/-- A function's write to TINVA of its own page. -/
theorem State.registerWrite_tinva (s : State) (ha : s.arg.a < 256) (hb : s.arg.b = 0x40) (hp : s.mgmt.power ≠ .off) :
    exec .registerWrite s = .next (withT s s.arg.a { NatMap.get Tenant.reset s.tenants s.arg.a with tinva := s.arg.w }) := by
  have hr : s.served s.arg.a s.arg.b = .tenant s.arg.a 0x40 := by
    rw [s.served_on _ _ hp, hb]; rfl
  exact s.registerWrite_tenant _ _ ha hr

/-- Settles O49: each register's write or read by what its function does with it, writes by offset through what a function
reaches. -/
theorem registersActByFunction : Obligations.RegistersActByFunction := by
  unfold Obligations.RegistersActByFunction
  refine ⟨fun s ha => ⟨fun h0 h30 hb => ⟨fun hk => ?_, fun hk => ?_, fun hk h => ?_, fun hk h => ?_⟩, fun hb => ?_,
    fun hb hf => ?_, s.tenantEnable_go ha, s.cmdata_header ha, s.cmdata_rank ha, s.fqRegisterWrite_idle ha,
    fun c cause code va hs hi ht hc hcoll hq => ⟨fun hw => ?_, fun hw => ?_⟩, s.fqserv_bad ha, fun l id hl ht hid hp => ?_,
    fun l hl ht => s.flgset_other l ha hl ht, fun h => ⟨fun hf h63 hq => ?_, fun hf h63 hq => ?_, s.mcaEcntRead_bank h⟩,
    s.colfreedRead_hub, fun k hw hk hs => s.writeStartctl_accepted k hk hw hs,
      fun k hw hk => s.writeStartctl_refused k hk hw⟩,
    fun s ha => ⟨fun hd hp hg => ?_, s.dbgctlWrite_ignored⟩, fun s ha => ?_⟩
  · exact congrArg _ (s.tinv_go 0 ha h0 h30 hb (by rw [bits_extract, hk]; rfl))
  · exact congrArg _ (s.tinv_go 1 ha h0 h30 hb (by rw [bits_extract, hk]; rfl))
  · exact congrArg _ ((s.tinv_go 2 ha h0 h30 hb (by rw [bits_extract, hk]; rfl)).trans (by rw [if_neg (by simp [h])]))
  · exact congrArg _ ((s.tinv_go 2 ha h0 h30 hb (by rw [bits_extract, hk]; rfl)).trans (by rw [if_pos (by simp [h])]))
  · exact s.tinvComplete_idle ha hb
  · exact s.tinvComplete_busy _ ha rfl hb hf
  · exact s.fqservResume_only c ha (s.serviced_only c cause code va hs hi ht hc) hs hcoll hq hw
  · exact ⟨_, s.fqservEnd_only c ha (s.serviced_only c cause code va hs hi ht hc) hw, s.failCopy_frame c hs⟩
  · exact ⟨_, s.flgset_own l id ha hl ht hp, s.setCtx_mem _ _, fun x hx => s.getCtx_setCtx_other _ hid hx,
      by rw [s.getCtx_setCtx_same _ hid]; rfl, by rw [s.getCtx_setCtx_same _ hid]; rfl⟩
  · exact (s.mcaRecordClear_same h h63).1 hf hq
  · exact (s.mcaRecordClear_same h h63).2 hf hq
  · exact ⟨_, s.dbgctlWrite_covered ha hd hp hg, s.getCtx_setCtx_same _ ha, fun x hx => s.getCtx_setCtx_other _ ha hx,
      s.setCtx_mem _ _⟩
  · obtain ⟨hbeyond, hown, hforeign⟩ := s.registerWrite_reach ha
    exact ⟨hbeyond, hown, hforeign, fun t h0 ht hp => s.registerWrite_page t h0 ht hp, s.registerWrite_tinva ha,
      s.registerWrite_off ha⟩

end Sys2Proof.Machine
end

section
/-! ## What reaches memory from outside the cores; errors, debugging and attestation (01 R8, R13, 02 R76 to R79,
18 R427, R428, 21 R448, R449, R465 to R469) -/

namespace Sys2Proof.Machine

open Sys2Proof Sys2Proof.Claims

/-! ### Dumps (21 R467, R469) -/

/-- In OFF and below level INVASIVE nothing is dumped; else a dump by device address reads the run it names. -/
theorem State.memoryDump_run (s : State) (hd : s.mgmt.debug = .invasive) (hp : s.mgmt.power ≠ .off)
    (hf : s.arg.flag = false) :
    execMemoryDump s = s.dump [(s.arg.a, s.arg.b)] := by
  simp [execMemoryDump, hd, hp, hf]

theorem State.memoryDump_level (s : State) (hd : s.mgmt.debug ≠ .invasive) : execMemoryDump s = .next s := by
  simp [execMemoryDump, hd]

/-- A byte that debugging does not cover: of a scratchpad whose cluster is gated in CLUSTER_GATED. -/
theorem State.dumpGated_iff (s : State) (pa : Nat) : s.dumpGated pa = true ↔
    s.mgmt.power = .gated ∧ pa / spaceSize = 2 ∧ (s.getClu (pa % spaceSize / 0x1000000)).gated = true := by
  simp only [State.dumpGated, State.notLive, Bool.and_eq_true, beq_iff_eq]
  exact and_left_comm

/-- A dump of a run whose first address does not exist stops the machine. -/
theorem State.dump_absent (s : State) (a n : Nat) (hn : n ≠ 0) (h : paOk a = false) :
    s.dump [(a, n)] = .fault (.noSuchAddress a) := by
  obtain ⟨m, rfl⟩ := Nat.exists_eq_succ_of_ne_zero hn
  simp [State.dump, List.range_succ_eq_map, h]

/-- A dump of a run that exists is refused for a gated byte, else it tells the bytes. -/
theorem State.dump_present (s : State) (a n : Nat) (h : ∀ i, i < n → paOk (a + i) = true) : s.dump [(a, n)] =
    if (List.range n).any fun i => s.dumpGated (a + i) then .next s else .next (s.send (.dump a (s.dumpBytes a n))) := by
  have hf : ((List.range n).map (a + ·)).find? (fun a => !paOk a) = none := by
    refine List.find?_eq_none.mpr fun x hx => ?_
    obtain ⟨i, hi, rfl⟩ := List.mem_map.mp hx
    simp [h i (List.mem_range.mp hi)]
  simp only [State.dump, List.flatMap_cons, List.flatMap_nil, List.append_nil, hf, List.any_map, List.head?_cons,
    Option.map_some,
    Option.getD_some]
  rfl

theorem State.dump_gated (s : State) (a n : Nat) (h : ∀ i, i < n → paOk (a + i) = true)
    (hg : ∃ i, i < n ∧ s.dumpGated (a + i) = true) : s.dump [(a, n)] = .next s := by
  obtain ⟨i, hi, hg⟩ := hg
  rw [s.dump_present a n h, if_pos (List.any_eq_true.mpr ⟨i, List.mem_range.mpr hi, hg⟩)]

theorem State.dump_tells (s : State) (a n : Nat) (h : ∀ i, i < n → paOk (a + i) = true)
    (hg : ∀ i, i < n → s.dumpGated (a + i) = false) : s.dump [(a, n)] = .next (s.send (.dump a (s.dumpBytes a n))) := by
  rw [s.dump_present a n h, if_neg]
  rintro hx
  obtain ⟨i, hi, hx⟩ := List.any_eq_true.mp hx
  rw [hg i (List.mem_range.mp hi)] at hx
  cases hx

theorem State.dumpBytes_length (s : State) (a n : Nat) : (s.dumpBytes a n).length = n := by simp [State.dumpBytes]

/-- Outside the lumber room a dump has the bytes as they stand. -/
theorem State.dumpBytes_get (s : State) (a n i : Nat) (hi : i < n) (h : a + i < s.lumberBase ∨ spaceSize ≤ a + i) :
    (s.dumpBytes a n)[i]? = some (s.byte (a + i)) := by
  have hl : ¬ (s.lumberBase ≤ a + i ∧ a + i < spaceSize) := by omega
  simp [State.dumpBytes, hi, hl]

/-! ### Scrubbing (02 R79) -/

theorem State.patrolScrub_absent (s : State) (h : paOk s.arg.a = false) :
    execPatrolScrub s = .fault (.noSuchAddress s.arg.a) := by
  simp only [execPatrolScrub, h, Bool.not_false, if_true]

theorem State.patrolScrub_clean (s : State) (ha : paOk s.arg.a = true) (h : s.upsets = []) :
    execPatrolScrub s = .next s := by
  simp only [execPatrolScrub, ha, s.findAt_none _ h, Bool.not_true, Bool.false_eq_true, if_false, ite_self]

/-- Logging an error leaves memory, the errors waiting in it, the focused context and the operands. -/
theorem State.logError_kept (s : State) (b sev code : Nat) (psn : Bool) (ak loc : Nat) (org : Option Nat) (pl : Nat) :
    let t := s.logError b sev code psn ak loc org pl
    t.upsets = s.upsets ∧ t.memPoison = s.memPoison ∧ t.mem = s.mem ∧ t.ctx = s.ctx ∧ t.arg = s.arg := by
  unfold State.logError
  dsimp only
  split <;> exact ⟨rfl, rfl, rfl, rfl, rfl⟩

/-- A key set on the way, or set before, reads as set. -/
theorem NatMap.get_foldl_set (l : List Nat) (f : Nat → Nat) (m : NatMap Bool) (i : Nat)
    (h : NatMap.get false m (f i) = true ∨ i ∈ l) :
    NatMap.get false (l.foldl (fun m i => NatMap.set false m (f i) true) m) (f i) = true := by
  induction l generalizing m with
  | nil => simpa using h
  | cons j l ih =>
    refine ih _ ?_
    rcases h with h | h
    · exact .inl (by simp [h])
    · rcases List.mem_cons.mp h with rfl | h
      · exact .inl (by simp)
      · exact .inr h

/-- Poison put where an error lies is seen in every granule of its 64 B block of the cellar, elsewhere
in its granule (02 R77). -/
theorem State.poisonAt_granule (s : State) (pa a : Nat)
    (h : pa / spaceSize = 0 ∧ pa / 64 = a / 64 ∨ pa / spaceSize ≠ 0 ∧ pa / 8 = a / 8) :
    NatMap.get false (s.poisonAt pa).memPoison (a / 8) = true := by
  unfold State.poisonAt
  rcases h with ⟨hs, h⟩ | ⟨hs, h⟩
  · have hk : a / 8 = pa / 64 * 8 + a / 8 % 8 := by omega
    simp only [hs, if_true]
    rw [hk]
    exact NatMap.get_foldl_set (List.range 8) (fun i => pa / 64 * 8 + i) _ _ (.inr (by simp; omega))
  · simp only [hs, if_false, h, NatMap.get_set_same]

/-- An error found in memory is no longer waiting; one that cannot be corrected poisons what it lies in. -/
theorem State.found_mem (s : State) (pa : Nat) (unc : Bool) :
    let t := s.found ⟨.mem pa, unc⟩
    t.upsets = s.upsets ∧ (unc = true → t.memPoison = (s.poisonAt pa).memPoison) ∧
      (unc = false → t.memPoison = s.memPoison) := by
  have hp : (s.poisonAt pa).upsets = s.upsets := by unfold State.poisonAt; split <;> rfl
  cases unc with
  | true =>
    obtain ⟨hu, hm, -⟩ := (s.poisonAt pa).logError_kept (memBank pa) 2 (if pa / spaceSize = 0 then 0x0004 else 0x0002)
      true 1 pa
      none (memPlace pa false)
    exact ⟨hu.trans hp, fun _ => hm, nofun⟩
  | false =>
    obtain ⟨hu, hm, -⟩ := s.logError_kept (memBank pa) 1 (if pa / spaceSize = 0 then 0x0003 else 0x0001) false 1 pa
      none (memPlace pa false)
    exact ⟨hu, nofun, fun _ => hm⟩

/-- The only error that waits is found where its site is read. -/
theorem State.findAt_single (s : State) (p : Site → Bool) (u : Upset) (hu : s.upsets = [u]) (hp : p u.site = true) :
    s.findAt p = (State.found { s with upsets := [] } u, !u.unc) := by
  simp [State.findAt, hu, hp]

/-- The scrubber finds the one error that lies in the granule it reads. -/
theorem State.patrolScrub_finds (s : State) (pa : Nat) (unc : Bool) (hu : s.upsets = [⟨.mem pa, unc⟩])
    (ha : paOk s.arg.a = true) (hf : s.arg.flag = false)
    (h : s.arg.a / spaceSize = 0 ∧ pa / 64 = s.arg.a / 64 ∨ s.arg.a / spaceSize = 1 ∧ pa / 8 = s.arg.a / 8) :
    execPatrolScrub s = .next (State.found { s with upsets := [] } ⟨.mem pa, unc⟩) := by
  have hle : s.arg.a / spaceSize ≤ 1 := by omega
  have hin : (if s.arg.a / spaceSize = 0 then pa / 64 == s.arg.a / 64 else pa / 8 == s.arg.a / 8) = true := by
    rcases h with ⟨h0, h⟩ | ⟨h1, h⟩
    · simp [h0, h]
    · simp [h1, h]
  simp only [execPatrolScrub, ha, hle, Bool.not_true, Bool.false_eq_true, if_false, if_true]
  rw [s.findAt_single _ _ hu (by simpa only [hf, Bool.not_false, Bool.true_and] using hin)]

theorem State.patrolScrub_found (s : State) (pa : Nat) (unc : Bool) (hu : s.upsets = [⟨.mem pa, unc⟩])
    (ha : paOk s.arg.a = true) (hf : s.arg.flag = false)
    (h : s.arg.a / spaceSize = 0 ∧ pa / 64 = s.arg.a / 64 ∨ s.arg.a / spaceSize = 1 ∧ pa / 8 = s.arg.a / 8) :
    ∃ t, execPatrolScrub s = .next t ∧ t.upsets = [] ∧ t.mem = s.mem ∧ t.ctx = s.ctx ∧
      (unc = true → t.granule s.arg.a = none) ∧ (unc = false → t.memPoison = s.memPoison) := by
  obtain ⟨hctx, hmem, -⟩ := State.found_frame { s with upsets := [] } ⟨.mem pa, unc⟩
  obtain ⟨hups, hbad, hgood⟩ := State.found_mem { s with upsets := [] } pa unc
  refine ⟨_, s.patrolScrub_finds pa unc hu ha hf h, hups, hmem, hctx, fun hunc => ?_, hgood⟩
  have hin : pa / spaceSize = 0 ∧ pa / 64 = s.arg.a / 64 ∨ pa / spaceSize ≠ 0 ∧ pa / 8 = s.arg.a / 8 := by
    unfold spaceSize at *; omega
  rw [State.granule, hbad hunc, if_pos (State.poisonAt_granule { s with upsets := [] } pa _ hin)]

/-! ### Debug levels (21 R467, R469) -/

theorem levelOf_beq (c a : Nat) (ha : a < 3) : (levelOf c == levelOf a) = (c % 3 == a) := by
  have h : ∀ x, x < 3 → ∀ y, y < 3 → (levelOf x == levelOf y) = (x == y) := by decide
  have hc : levelOf c = levelOf (c % 3) := by rw [levelOf, levelOf, Nat.mod_mod]
  rw [hc]
  exact h _ (Nat.mod_lt _ (by decide)) _ ha

/-- The token at hand is valid for the level that `arg.a` numbers (log 80). -/
def State.token (s : State) : Bool :=
  s.arg.flag && s.arg.w == Config.serial && s.arg.x == Config.nonce s.mgmt.nonce && s.arg.c % 3 == s.arg.a

theorem State.tokenOk_eq (s : State) (ha : s.arg.a < 3) : s.tokenOk = s.token := by
  rw [State.tokenOk, levelOf_beq _ _ ha, State.token]

/-- `s` once a debug level has been entered, or left, with or without a valid token. -/
def State.atLevel (s : State) (lv : DebugLevel) : State := { s with mgmt := { s.mgmt with
  debug := lv
  debugLog := if lv = .none then s.mgmt.debugLog else s.mgmt.debugLog ++ [s.arg.a + 4 * s.arg.b]
  nonce := if s.token then s.mgmt.nonce + 1 else s.mgmt.nonce } }

/-- A request for a level that may be entered enters it; in SEALED, entry into INVASIVE closes every session besides. -/
theorem State.debugLevelRequest_enters (s : State) (lv : DebugLevel) (ha : s.arg.a < 3) (hp : s.mgmt.power ≠ .off)
    (hl : levelOf s.arg.a = lv) (hm : debugMay s.mgmt.security lv s.token = true) :
    execDebugLevelRequest s = .next (if lv = .invasive ∧ s.mgmt.security = .sealed then
      { s.atLevel lv with mgmt := { (s.atLevel lv).mgmt with spdm := 0, ideOpen := false } } else s.atLevel lv) := by
  have hp' : (s.mgmt.power == .off) = false := by simpa using hp
  have hm' : (!debugMay s.mgmt.security lv s.token) = false := by rw [hm]; rfl
  have hsec : ∀ b : Bool, (if b then { s.mgmt with nonce := s.mgmt.nonce + 1 } else s.mgmt).security = s.mgmt.security := by
    intro b; cases b <;> rfl
  unfold execDebugLevelRequest State.atLevel
  simp only [s.tokenOk_eq ha, hl, hp', hm', Nat.mod_eq_of_lt ha, Bool.or_self, Bool.false_eq_true, if_false,
    hsec, Bool.and_eq_true, beq_iff_eq]
  by_cases hx : lv = .invasive ∧ s.mgmt.security = .sealed
  · simp only [if_pos hx]
    cases s.token <;> rfl
  · simp only [if_neg hx]
    cases s.token <;> rfl

/-- A request for a level that may not be entered is ignored. -/
theorem State.debugLevelRequest_refused (s : State) (lv : DebugLevel) (ha : s.arg.a < 3) (hl : levelOf s.arg.a = lv)
    (hm : debugMay s.mgmt.security lv s.token = false) : execDebugLevelRequest s = .next s := by
  simp [execDebugLevelRequest, s.tokenOk_eq ha, hl, hm]

/-- The levels by number: NONE always, NONINVASIVE in SEALED with a token, INVASIVE by security state (21 R467). -/
theorem State.debugLevelRequest_levels (s : State) (hp : s.mgmt.power ≠ .off) :
    (s.arg.a = 0 → execDebugLevelRequest s = .next (s.atLevel .none)) ∧
    (s.arg.a = 1 → s.mgmt.security ≠ .sealed → execDebugLevelRequest s = .next (s.atLevel .nonInvasive)) ∧
    (s.arg.a = 2 → s.mgmt.security = .open_ ∨ (s.mgmt.security = .provisioned ∧ s.token = true) →
      execDebugLevelRequest s = .next (s.atLevel .invasive)) ∧
    (s.arg.a = 1 → s.mgmt.security = .sealed → s.token = false → execDebugLevelRequest s = .next s) ∧
    (s.arg.a = 2 → s.mgmt.security = .sealed → s.token = true → ∃ t, execDebugLevelRequest s = .next t ∧
      t.mgmt.debug = .invasive ∧ t.mgmt.spdm = 0 ∧ t.mgmt.ideOpen = false ∧ t.mem = s.mem) ∧
    (s.arg.a = 2 → s.mgmt.security = .failed → execDebugLevelRequest s = .next s) := by
  refine ⟨fun ha => ?_, fun ha hs => ?_, fun ha hs => ?_, fun ha hs ht => ?_, fun ha hs ht => ?_, fun ha hs => ?_⟩
  · exact s.debugLevelRequest_enters .none (by omega) hp (by rw [ha]; rfl) (by cases s.mgmt.security <;> rfl)
  · refine s.debugLevelRequest_enters .nonInvasive (by omega) hp (by rw [ha]; rfl) ?_
    cases h : s.mgmt.security with
    | sealed => exact absurd h hs
    | _ => rfl
  · have hsec : s.mgmt.security ≠ .sealed := by rcases hs with hs | ⟨hs, -⟩ <;> rw [hs] <;> nofun
    rw [s.debugLevelRequest_enters .invasive (by omega) hp (by rw [ha]; rfl), if_neg (fun h => hsec h.2)]
    rcases hs with hs | ⟨hs, ht⟩
    · rw [hs]; rfl
    · rw [hs, ht]; rfl
  · exact s.debugLevelRequest_refused .nonInvasive (by omega) (by rw [ha]; rfl) (by rw [hs, ht]; rfl)
  · refine ⟨_, s.debugLevelRequest_enters .invasive (by omega) hp (by rw [ha]; rfl) (by rw [hs, ht]; rfl), ?_⟩
    rw [if_pos ⟨rfl, hs⟩]
    exact ⟨rfl, rfl, rfl, rfl⟩
  · exact s.debugLevelRequest_refused .invasive (by omega) (by rw [ha]; rfl) (by rw [hs]; rfl)

/-! ### Configuration requests and FATAL errors (18 R427, R428, 21 R465) -/

theorem State.configRequest_answer (s : State) (ha : s.arg.a < 256) :
    execConfigRequest s = .next { s with outbox := s.outbox ++
    [if s.mgmt.starting = true ∨ s.mgmt.regsUp = false ∨ s.mgmt.power = .off then .configRetry s.arg.a
      else .configOk s.arg.a] } := by
  have ht : s.tenantArg = s.arg.a := Nat.mod_eq_of_lt ha
  simp only [execConfigRequest, ht, State.send, Bool.or_eq_true, Bool.not_eq_true', beq_iff_eq, or_assoc]

/-- A FATAL error always is the worst: bits 63 to 61 of its class word, V and the severity, are all set (18 R425). -/
theorem Mca.log_fatal (m : Mca) (code loc place : Nat) (hc : code < 65536) :
    (m.log 3 code false 0 loc none place).wcls.extractLsb' 61 3 = 7#3 := by
  have hw : (!m.wcls.getLsbD 63 || decide (bits m.wcls 61 2 ≤ 3)) = true := by
    have : bits m.wcls 61 2 < 2 ^ 2 := Nat.mod_lt _ (by decide)
    rw [decide_eq_true (by omega), Bool.or_true]
  have hu := (Config.mcaUnit code place).isLt
  have hq : (bits m.ecnt 0 16 + 1) % 65536 < 65536 := Nat.mod_lt _ (by decide)
  unfold Mca.log
  simp only [hw, if_true, show ¬ (3 = 1 ∧ m.ecfg.getLsbD 0 = false) by omega, if_false,
    Bool.false_eq_true, Option.isSome_none]
  refine BitVec.eq_of_toNat_eq ?_
  rw [BitVec.extractLsb'_toNat, wd, BitVec.toNat_ofNat, Nat.shiftRight_eq_div_pow]
  generalize (bits m.ecnt 0 16 + 1) % 65536 = q at hq ⊢
  change _ = 7
  omega

/-- A FATAL error is logged and signalled (18 R427). -/
theorem State.logError_fatal (s : State) (b code loc place : Nat) : s.logError b 3 code false 0 loc none place =
    { s with mca := NatMap.set .reset s.mca b ((NatMap.get .reset s.mca b).log 3 code false 0 loc none place)
             outbox := s.outbox ++ [.msix 0 1] } := rfl

/-- Outside OFF and outside a start, a FATAL error is logged, told to the host, and followed by the start
its bank asks for. -/
theorem State.fatalError_run (s : State) (ha : s.arg.a < 64) (hp : s.mgmt.power ≠ .off) (hs : s.mgmt.starting = false) :
    execFatalError s = .next {
      (s.logError s.arg.a 3 (fatalCode s.arg.a) false 0 0 none (bankPlace s.arg.a s.arg.b)).send .cxlError with
      halted := true
      mgmt := { s.mgmt with starting := true, ready := false, goWarm := fatalWarm s.arg.a } } := by
  have hp' : (s.mgmt.power == .off) = false := by simpa using hp
  unfold execFatalError
  simp only [hp', hs, Nat.mod_eq_of_lt ha, Bool.false_eq_true, if_false, State.logError_fatal, State.send, Bool.not_false,
    Bool.true_or, Bool.and_true]

/-- A FATAL error stops every core and asks for a start, which is a cold one in the banks that R428 names. -/
theorem State.fatalError_stops (s : State) (ha : s.arg.a < 64) (hp : s.mgmt.power ≠ .off) (hs : s.mgmt.starting = false) :
    ∃ t, execFatalError s = .next t ∧ t.halted = true ∧ t.mgmt.starting = true ∧ t.mgmt.ready = false ∧
      t.mgmt.goWarm = !decide (s.arg.a ∈ [35, 41, 47, 53, 62]) ∧ .cxlError ∈ t.outbox ∧ .msix 0 1 ∈ t.outbox ∧
      (NatMap.get Mca.reset t.mca s.arg.a).wcls.extractLsb' 61 3 = 7#3 ∧ t.mem = s.mem ∧ t.ctx = s.ctx := by
  have hc : fatalCode s.arg.a < 65536 := by unfold fatalCode; split <;> decide
  refine ⟨_, s.fatalError_run ha hp hs, ?_⟩
  rw [State.logError_fatal]
  refine ⟨rfl, rfl, rfl, ?_, ?_, ?_, ?_, rfl, rfl⟩
  · simp [fatalWarm]
  · simp [State.send]
  · simp [State.send]
  · simp only [State.send, NatMap.get_set_same]
    exact Mca.log_fatal _ _ _ _ hc

/-! ### The host's memory and its answers (01 R13) -/

/-- The bytes that the answer names, written one after the other, are bytes put in memory. -/
theorem State.foldl_setByte_named (s : State) (l : List Nat) (a : Nat) :
    l.foldl (fun s i => if s.arg.mask.getLsbD i then s.setByte (a + i) (s.arg.data.extractLsb' (8 * i) 8) else s) s =
      { s with mem := l.foldl (fun m i => if s.arg.mask.getLsbD i then
          NatMap.set 0 m (a + i) (s.arg.data.extractLsb' (8 * i) 8) else m) s.mem } := by
  induction l generalizing s with
  | nil => rfl
  | cons i l ih =>
    simp only [List.foldl_cons]
    rw [ih]
    cases s.arg.mask.getLsbD i <;> rfl

/-- The answer for a line taken exclusive waits until the host has taken it again. -/
theorem State.cxlHostResponse_recalled (s : State) (ha : s.arg.a % 64 = 0) (hs : s.arg.a < spaceSize)
    (hr : NatMap.get false s.recalled ((4 * spaceSize + s.arg.a) / 64) = true) (hf : s.arg.flag = false) :
    execCxlHostResponse s = .next s := by
  have haddr : 4 * spaceSize + s.arg.a % spaceSize / 64 * 64 = 4 * spaceSize + s.arg.a := by unfold spaceSize at *; omega
  simp only [execCxlHostResponse, haddr, hr, hf, Bool.not_false, Bool.and_self, if_true]

/-- The answer puts the bytes it names in the host's block, and no others. -/
theorem State.cxlHostResponse_bytes (s : State) (ha : s.arg.a % 64 = 0) (hs : s.arg.a < spaceSize)
    (hr : NatMap.get false s.recalled ((4 * spaceSize + s.arg.a) / 64) = false ∨ s.arg.flag = true) :
    ∃ t, execCxlHostResponse s = .next t ∧ t.ctx = s.ctx ∧
      (∀ i, i < 64 → t.byte (4 * spaceSize + s.arg.a + i) =
        if s.arg.mask.getLsbD i then s.arg.data.extractLsb' (8 * i) 8 else s.byte (4 * spaceSize + s.arg.a + i)) ∧
      (∀ x, x < 4 * spaceSize + s.arg.a ∨ 4 * spaceSize + s.arg.a + 64 ≤ x → t.byte x = s.byte x) := by
  have haddr : 4 * spaceSize + s.arg.a % spaceSize / 64 * 64 = 4 * spaceSize + s.arg.a := by unfold spaceSize at *; omega
  have hgo : (NatMap.get false s.recalled ((4 * spaceSize + s.arg.a) / 64) && !s.arg.flag) = false := by
    rcases hr with h | h <;> simp [h]
  unfold execCxlHostResponse
  simp only [haddr, hgo, Bool.false_eq_true, if_false, State.foldl_setByte_named]
  refine ⟨_, rfl, rfl, fun i hi => ?_, fun x hx => ?_⟩
  · exact Memory.get_range_foldl 64 _ (fun i => s.arg.data.extractLsb' (8 * i) 8) (fun i => s.arg.mask.getLsbD i) s.mem i hi
  · refine Memory.get_foldl_other (List.range 64) (fun i => 4 * spaceSize + s.arg.a + i)
      (fun i => s.arg.data.extractLsb' (8 * i) 8) (fun i => s.arg.mask.getLsbD i) s.mem x fun i hi => ?_
    have := List.mem_range.mp hi
    omega

/-! ### The host's accesses to the cellar (21 R448) -/

theorem hwpHits_disabled (a c : Word) (pa n : Nat) (wr : Bool) (tid : Nat) (h : c.getLsbD 0 = false) :
    hwpHits a c pa n wr tid = false := by
  simp only [hwpHits, h, Bool.false_and]

/-- Where no watchpoint is enabled, an access at its home makes no record. -/
theorem State.watchRecs_unwatched (s : State) (pa n : Nat) (wr : Bool) (tid kind agent : Nat) (val : Option Word)
    (h : unwatched s) : s.watchRecs pa n wr tid kind agent val = [] := by
  unfold State.watchRecs
  dsimp only
  split
  · refine List.filterMap_eq_nil_iff.mpr fun i _ => ?_
    rw [hwpHits_disabled _ _ _ _ _ _ (h _)]
    rfl
  · rfl

theorem State.watchHome_unwatched (s : State) (pa n : Nat) (wr : Bool) (tid kind agent : Nat) (val : Option Word)
    (h : unwatched s) : s.watchHome pa n wr tid kind agent val = s := by
  rw [State.watchHome, s.watchRecs_unwatched _ _ _ _ _ _ _ h, List.foldl_nil]

/-- A block of the cellar below the lumber room lies in no other space. -/
theorem State.below_lumber (s : State) {a : Nat} (h : a < s.lumberBase) : a < spaceSize := by
  have hl : s.lumberBase ≤ Config.cellarBytes := Nat.sub_le _ _
  exact Nat.lt_of_lt_of_le h (hl.trans (by decide))

/-- Where no error waits and nothing is watched, a granule written to the cellar is written in memory, leaving traces in the
cellar cache and the command processors besides. -/
theorem State.homeWrite_quiet (s : State) (tid kind agent : Nat) (g : Granule) (alloc : Bool) (hu : s.upsets = [])
    (hw : unwatched s) (hg : g.addr < spaceSize) :
    ∃ c q, s.homeWrite tid kind agent g alloc = { s.writeG g with cached := c, queues := q } := by
  have hs : ({ s with upsets := [] } : State) = s := by rw [← hu]
  have hsp : ¬ g.addr / spaceSize = 4 := by rw [Nat.div_eq_of_lt hg]; decide
  obtain ⟨c, hv⟩ := s.visit_cached g.addr true alloc hu
  have hst : s.store g alloc = State.writeG { s with cached := c } g := by
    unfold State.store
    simp only [hu, List.filter_nil, hs, ite_self, hv]
  unfold State.homeWrite
  simp only [hst, if_neg hsp]
  rw [State.watchHome_unwatched]
  · unfold State.writeG
    cases g.data <;> exact ⟨_, _, rfl⟩
  · unfold State.writeG
    cases g.data <;> exact hw

/-- The granule `i` of the 64 B block at `a` as the host's write gives it. -/
def hostGranule (r : EvArgs) (a i : Nat) : Granule :=
  ⟨a + 8 * i, r.mask.extractLsb' (8 * i) 8, some (r.data.extractLsb' (64 * i) 64)⟩

/-- What a byte of the block is once the host has written the granules `l`. -/
def hostByte (r : EvArgs) (l : List Nat) (old : Byte) (i : Nat) : Byte :=
  if i / 8 ∈ l ∧ r.mask.getLsbD i = true then r.data.extractLsb' (8 * i) 8 else old

/-- One granule of the host's write: the bytes it names are written, and no others. -/
theorem State.byte_hostGranule (s : State) (r : EvArgs) (a i j : Nat) :
    (s.writeG (hostGranule r a i)).byte (a + j) = hostByte r [i] (s.byte (a + j)) j := by
  by_cases h : j / 8 = i
  · subst h
    have hsplit : a + j = (hostGranule r a (j / 8)).addr + j % 8 := by simp only [hostGranule]; omega
    rw [hsplit, State.byte_writeG _ _ _ _ rfl (Nat.mod_lt _ (by decide))]
    have hm : (hostGranule r a (j / 8)).mask.getLsbD (j % 8) = r.mask.getLsbD j := by
      simp only [hostGranule, BitVec.getLsbD_extractLsb', Nat.mod_lt _ (show 0 < 8 by decide), decide_true, Bool.true_and,
        Nat.div_add_mod]
    have hd : byteOf (r.data.extractLsb' (64 * (j / 8)) 64) (j % 8) = r.data.extractLsb' (8 * j) 8 := by
      refine BitVec.eq_of_getLsbD_eq fun k hk => ?_
      have hin : 8 * (j % 8) + k < 64 := by omega
      have hat : 64 * (j / 8) + (8 * (j % 8) + k) = 8 * j + k := by omega
      simp only [byteOf, BitVec.getLsbD_extractLsb', hin, hat, decide_true, Bool.true_and]
    rw [hm, hd, ← hsplit, hostByte]
    simp only [List.mem_singleton, true_and]
  · rw [State.byte_writeG_other]
    · simp only [hostByte, List.mem_singleton, h, false_and, if_false]
    · simp only [hostGranule]
      omega

/-- The host's write of the granules `l` of its block. -/
theorem State.hostWrite_foldl (l : List Nat) (r : EvArgs) (a : Nat) (ha : a + 64 ≤ spaceSize) (hl : ∀ i ∈ l, i < 8)
    (s : State)
    (hr : s.arg = r) (hu : s.upsets = []) (hw : unwatched s) :
    let t := l.foldl (fun s i => s.homeWrite 0 5 0
      ⟨a + 8 * i, r.mask.extractLsb' (8 * i) 8, some (s.arg.data.extractLsb' (64 * i) 64)⟩) s
    t.ctx = s.ctx ∧ (∀ j, j < 64 → t.byte (a + j) = hostByte r l (s.byte (a + j)) j) ∧
      ∀ x, x < a ∨ a + 64 ≤ x → t.byte x = s.byte x := by
  induction l generalizing s with
  | nil => exact ⟨rfl, fun j _ => by simp [hostByte], fun x _ => rfl⟩
  | cons i l ih =>
    have hi : i < 8 := hl i (List.mem_cons_self ..)
    obtain ⟨c, q, hq⟩ := s.homeWrite_quiet 0 5 0 (hostGranule r a i) true hu hw (by simp only [hostGranule]; omega)
    rw [hostGranule] at hq
    rw [List.foldl_cons, hr, hq]
    obtain ⟨hctx, hin, hout⟩ := ih (fun i h => hl i (List.mem_cons_of_mem _ h))
      { s.writeG (hostGranule r a i) with cached := c, queues := q } hr hu hw
    refine ⟨hctx, fun j hj => ?_, fun x hx => ?_⟩
    · refine (hin j hj).trans ?_
      change hostByte r l ((s.writeG (hostGranule r a i)).byte (a + j)) j = _
      rw [s.byte_hostGranule r a i j]
      simp only [hostByte, List.mem_cons, List.not_mem_nil, or_false]
      by_cases hm : r.mask.getLsbD j = true <;> by_cases hjl : j / 8 ∈ l <;> simp [hm, hjl]
    · exact (hout x hx).trans (s.byte_writeG_other _ _ (by simp only [hostGranule]; omega))

/-- The granules of its block that the host names a byte of. -/
def EvArgs.namedGranules (r : EvArgs) : List Nat := (List.range 8).filter fun i => r.mask.extractLsb' (8 * i) 8 != 0

theorem EvArgs.mem_namedGranules (r : EvArgs) (i : Nat) :
    i ∈ r.namedGranules ↔ i < 8 ∧ r.mask.extractLsb' (8 * i) 8 ≠ 0#8 := by
  simp only [EvArgs.namedGranules, List.mem_filter, List.mem_range, bne_iff_ne]
  rfl

/-- A byte named lies in a named granule. -/
theorem EvArgs.named_of_bit (r : EvArgs) {j : Nat} (hj : j < 64) (h : r.mask.getLsbD j = true) :
    j / 8 ∈ r.namedGranules := by
  refine (r.mem_namedGranules _).mpr ⟨by omega, fun hz => ?_⟩
  have hb := congrArg (fun v => BitVec.getLsbD v (j % 8)) hz
  simp only [BitVec.getLsbD_extractLsb', Nat.mod_lt _ (show 0 < 8 by decide), decide_true, Bool.true_and, Nat.div_add_mod, h,
    BitVec.getLsbD_zero] at hb
  cases hb

/-- Above the lumber-room base an access is refused and logged. -/
theorem State.hostMemAccess_refused (s : State) (hr : s.mgmt.ready = true) (hp : s.mgmt.power ≠ .off)
    (ha : s.arg.a % 64 = 0)
    (hs : s.arg.a < spaceSize) (hl : s.lumberBase ≤ s.arg.a) :
    ∃ t, execHostMemAccess s = .next t ∧ t.mem = s.mem ∧ t.ctx = s.ctx ∧
      (s.arg.flag = false → .hostRead 0 true ∈ t.outbox) := by
  have haddr : s.arg.a % spaceSize / 64 * 64 = s.arg.a := by rw [Nat.mod_eq_of_lt hs]; omega
  have hp' : (s.mgmt.power == .off) = false := by simpa using hp
  obtain ⟨-, -, hmem, hctx, harg⟩ := s.logError_kept 60 1 0x0013 false 1 s.arg.a none (8 * 2 ^ 52)
  unfold execHostMemAccess
  simp only [haddr, hr, hp', hl, if_true, Bool.not_true, Bool.or_self, Bool.false_eq_true, if_false, harg]
  cases s.arg.flag with
  | true => exact ⟨_, rfl, hmem, hctx, nofun⟩
  | false => exact ⟨_, rfl, hmem, hctx, fun _ => List.mem_append_right _ (List.mem_singleton_self _)⟩

/-- A write of a line recalled from the host waits for the host to read it. -/
theorem State.hostMemAccess_recalled (s : State) (ha : s.arg.a % 64 = 0) (hs : s.arg.a < s.lumberBase)
    (hf : s.arg.flag = true)
    (hr : NatMap.get false s.recalled (s.arg.a / 64) = true) : execHostMemAccess s = .next s := by
  have haddr : s.arg.a % spaceSize / 64 * 64 = s.arg.a := by rw [Nat.mod_eq_of_lt (s.below_lumber hs)]; omega
  simp only [execHostMemAccess, haddr, Nat.not_le.mpr hs, hf, hr, if_true, if_false, ite_self]

/-- The host's write writes the bytes it names, and no others. -/
theorem State.hostMemAccess_writes (s : State) (hr : s.mgmt.ready = true) (hp : s.mgmt.power ≠ .off) (ha : s.arg.a % 64 = 0)
    (hs : s.arg.a < s.lumberBase) (hu : s.upsets = []) (hw : unwatched s) (hf : s.arg.flag = true)
    (hc : NatMap.get false s.recalled (s.arg.a / 64) = false) :
    ∃ t, execHostMemAccess s = .next t ∧ t.ctx = s.ctx ∧
      (∀ i, i < 64 → t.byte (s.arg.a + i) =
        if s.arg.mask.getLsbD i then s.arg.data.extractLsb' (8 * i) 8 else s.byte (s.arg.a + i)) ∧
      (∀ x, x < s.arg.a ∨ s.arg.a + 64 ≤ x → t.byte x = s.byte x) := by
  have hlt := s.below_lumber hs
  have haddr : s.arg.a % spaceSize / 64 * 64 = s.arg.a := by rw [Nat.mod_eq_of_lt hlt]; omega
  have hp' : (s.mgmt.power == .off) = false := by simpa using hp
  obtain ⟨hctx, hin, hout⟩ := State.hostWrite_foldl s.arg.namedGranules s.arg s.arg.a (by unfold spaceSize at *; omega)
    (fun i hi => ((s.arg.mem_namedGranules i).mp hi).1) s rfl hu hw
  unfold execHostMemAccess
  simp only [haddr, hr, hp', Nat.not_le.mpr hs, hf, hc, if_true, Bool.not_true, Bool.or_self, Bool.false_eq_true, if_false]
  refine ⟨_, rfl, hctx, fun i hi => (hin i hi).trans ?_, hout⟩
  by_cases hm : s.arg.mask.getLsbD i = true
  · simp only [hostByte, hm, s.arg.named_of_bit hi hm, and_self, if_true]
  · simp only [hostByte, hm, and_false, if_false, Bool.false_eq_true]

/-! ### What the host reads -/

/-- The bits of bytes put together. -/
theorem getLsbD_ofBytes (w : Nat) (l : List Byte) (n : Nat) :
    (ofBytes w l).getLsbD n = (decide (n < w) && (l.getD (n / 8) 0).getLsbD (n % 8)) := by
  induction l generalizing n with
  | nil => simp [ofBytes]
  | cons b l ih =>
    simp only [ofBytes, BitVec.getLsbD_or, BitVec.getLsbD_shiftLeft, BitVec.getLsbD_setWidth, ih]
    by_cases h : n < 8
    · simp only [h, Nat.div_eq_of_lt h, Nat.mod_eq_of_lt h, List.getD_cons_zero, decide_true, Bool.not_true, Bool.and_false,
        Bool.false_and, Bool.false_or]
    · have hd : n / 8 = (n - 8) / 8 + 1 := by omega
      have hm : (n - 8) % 8 = n % 8 := by omega
      rw [hd, List.getD_cons_succ, hm, BitVec.getLsbD_of_ge b n (by omega)]
      have hw : n < w → n - 8 < w := by omega
      by_cases hn : n < w <;> simp [h, hn, hw]

/-- Byte `i` of bytes put together. -/
theorem extractLsb'_ofBytes (w : Nat) (l : List Byte) (i : Nat) (h : 8 * i + 8 ≤ w) :
    (ofBytes w l).extractLsb' (8 * i) 8 = l.getD i 0 := by
  refine BitVec.eq_of_getLsbD_eq fun k hk => ?_
  have hd : (8 * i + k) / 8 = i := by omega
  have hm : (8 * i + k) % 8 = k := by omega
  have hw : 8 * i + k < w := by omega
  simp only [BitVec.getLsbD_extractLsb', getLsbD_ofBytes, hk, hw, hd, hm, decide_true, Bool.true_and]

/-- Reads at a home leave traces in the cellar cache only, where no error waits. -/
theorem State.visits_cached (l : List Nat) (a : Nat) (s : State) (hu : s.upsets = []) :
    ∃ c, l.foldl (fun s i => (s.visit (a + 8 * i) false true).1) s = { s with cached := c } := by
  refine List.foldlRecOn (motive := fun t : State => ∃ c, t = { s with cached := c }) _ _ ⟨s.cached, rfl⟩ ?_
  rintro t ⟨c, rfl⟩ i -
  obtain ⟨c', hv⟩ := State.visit_cached { s with cached := c } (a + 8 * i) false true hu
  exact ⟨c', hv⟩

theorem State.watchHomes_unwatched (l : List Nat) (a : Nat) (s : State) (hw : unwatched s) :
    l.foldl (fun s i => s.watchHome (a + 8 * i) 8 false 0 5 0) s = s := by
  induction l with
  | nil => rfl
  | cons i l ih => rw [List.foldl_cons, s.watchHome_unwatched _ _ _ _ _ _ _ hw, ih]

theorem NatMap.get_del_same {α : Type} (d : α) (m : NatMap α) (k : Nat) : NatMap.get d (NatMap.del m k) k = d := by
  simp [NatMap.get, NatMap.find?_del]

/-- The granules of its block that a host read reads: those it names, or all where it names none. -/
def EvArgs.readGranules (r : EvArgs) : List Nat := if r.namedGranules.isEmpty then List.range 8 else r.namedGranules

/-- What a host read answers: the granules read, zeros for the others. -/
def State.hostData (s : State) : BitVec 512 :=
  ofBytes 512 ((List.range 64).map fun b => if s.arg.readGranules.contains (b / 8) then s.byte (s.arg.a + b) else 0)

/-- The answer has the bytes of the granules named, or of all where none is. -/
theorem State.hostData_byte (s : State) (i : Nat) (hi : i < 64)
    (h : (∀ k, k < 8 → s.arg.mask.extractLsb' (8 * k) 8 = 0#8) ∨ s.arg.mask.extractLsb' (8 * (i / 8)) 8 ≠ 0#8) :
    s.hostData.extractLsb' (8 * i) 8 = s.byte (s.arg.a + i) := by
  have hmem : i / 8 ∈ s.arg.readGranules := by
    unfold EvArgs.readGranules
    rcases h with h | h
    · have hnil : s.arg.namedGranules = [] := List.eq_nil_iff_forall_not_mem.mpr fun k hk => by
        obtain ⟨hk, hne⟩ := (s.arg.mem_namedGranules k).mp hk
        exact hne (h k hk)
      rw [hnil]
      exact List.mem_range.mpr (by omega)
    · have hin := (s.arg.mem_namedGranules (i / 8)).mpr ⟨by omega, h⟩
      rw [if_neg (by simpa using List.ne_nil_of_mem hin)]
      exact hin
  rw [State.hostData, extractLsb'_ofBytes _ _ _ (by omega)]
  simp [List.getD, hi, hmem]

/-- A host read reads its granules at their home, in one access where it names none, and answers them. -/
theorem State.hostMemAccess_read_run (s : State) (hr : s.mgmt.ready = true) (hp : s.mgmt.power ≠ .off)
    (ha : s.arg.a % 64 = 0) (hs : s.arg.a < s.lumberBase) (hf : s.arg.flag = false) : execHostMemAccess s = .next (
      let u := s.arg.readGranules.foldl (fun t i => (t.visit (s.arg.a + 8 * i) false true).1)
        { s with recalled := NatMap.del s.recalled (s.arg.a / 64) }
      let v := if s.arg.namedGranules.isEmpty then u.watchHome s.arg.a 64 false 0 5 0
        else s.arg.readGranules.foldl (fun t i => t.watchHome (s.arg.a + 8 * i) 8 false 0 5 0) u
      v.send (.hostRead
        (ofBytes 512 ((List.range 64).map fun b => if s.arg.readGranules.contains (b / 8) then v.byte (s.arg.a + b) else 0))
        (s.arg.readGranules.any fun i => (v.granule (s.arg.a + 8 * i)).isNone))) := by
  have haddr : s.arg.a % spaceSize / 64 * 64 = s.arg.a := by rw [Nat.mod_eq_of_lt (s.below_lumber hs)]; omega
  have hp' : (s.mgmt.power == .off) = false := by simpa using hp
  unfold execHostMemAccess
  simp only [haddr, hr, hp', Nat.not_le.mpr hs, hf, Bool.not_true, Bool.or_self, Bool.false_eq_true, if_false]
  rfl

/-- A host read tells the bytes, and the line is no longer kept from the host's writes. -/
theorem State.hostMemAccess_reads (s : State) (hr : s.mgmt.ready = true) (hp : s.mgmt.power ≠ .off) (ha : s.arg.a % 64 = 0)
    (hs : s.arg.a < s.lumberBase) (hu : s.upsets = []) (hw : unwatched s) (hf : s.arg.flag = false)
    (hm : s.memPoison = []) :
    ∃ c, execHostMemAccess s = .next { s with
      recalled := NatMap.del s.recalled (s.arg.a / 64), cached := c,
      outbox := s.outbox ++ [.hostRead s.hostData false] } := by
  obtain ⟨c, hc⟩ := State.visits_cached s.arg.readGranules s.arg.a
    { s with recalled := NatMap.del s.recalled (s.arg.a / 64) } hu
  have hwc : unwatched { s with recalled := NatMap.del s.recalled (s.arg.a / 64), cached := c } := hw
  refine ⟨c, ?_⟩
  have hwhole : ∀ l : List Nat, (l.any fun i => (State.granule { s with
      recalled := NatMap.del s.recalled (s.arg.a / 64), cached := c } (s.arg.a + 8 * i)).isNone) = false := fun l =>
    List.any_eq_false.mpr fun i _ => by simp [State.granule, hm]
  rw [s.hostMemAccess_read_run hr hp ha hs hf]
  dsimp only
  rw [hc, State.watchHome_unwatched _ _ _ _ _ _ _ _ hwc, State.watchHomes_unwatched _ _ _ hwc, ite_self, hwhole]
  rfl

/-! ### Attestation (21 R449) -/

theorem State.spdm_virtual (s : State) (f : State → State) (h : s.arg.a % 256 ≠ 0) : s.spdm f = s := by
  have ht : s.tenantArg ≠ 0 := h
  simp only [State.spdm, ht, ne_eq, not_false_eq_true, decide_true, Bool.true_or, if_true]

theorem State.spdm_failed (s : State) (f : State → State) (hp : s.mgmt.power ≠ .off) (h : s.arg.a % 256 = 0)
    (hs : s.mgmt.security = .failed) : s.spdm f = s.send (.spdmError false) := by
  have ht : s.tenantArg = 0 := h
  simp [State.spdm, ht, hp, hs]

theorem State.spdm_answers (s : State) (f : State → State) (hp : s.mgmt.power ≠ .off) (h : s.arg.a % 256 = 0)
    (hs : s.mgmt.security ≠ .failed) : s.spdm f = f s := by
  have ht : s.tenantArg = 0 := h
  simp [State.spdm, ht, hp, hs]

/-- The requests of R449. -/
def spdmRequests : List Instr := [.getVersion, .getCapabilities, .negotiateAlgorithms, .getDigests, .getCertificate,
  .challenge,
  .getMeasurements, .keyExchange, .finish, .spdmUnsupportedRequest]

/-- Every request goes through the mailbox. -/
theorem exec_spdmRequest (s : State) (i : Instr) (hi : i ∈ spdmRequests) : ∃ f, exec i s = .next (s.spdm f) := by
  simp only [spdmRequests, List.mem_cons, List.not_mem_nil, or_false] at hi
  rcases hi with rfl | rfl | rfl | rfl | rfl | rfl | rfl | rfl | rfl | rfl <;> exact ⟨_, rfl⟩

/-- An index from 1 to 6 is measured. -/
theorem State.getMeasurements_told (s : State) (hp : s.mgmt.power ≠ .off) (h : s.arg.a % 256 = 0)
    (hs : s.mgmt.security ≠ .failed)
    (h1 : 1 ≤ s.arg.b) (h6 : s.arg.b ≤ 6) : ∃ d, execGetMeasurements s = .next (s.send (.measurement s.arg.b d)) := by
  unfold execGetMeasurements
  rw [s.spdm_answers _ hp h hs]
  by_cases h5 : s.arg.b ≤ 5
  · exact ⟨_, by rw [if_pos ⟨h1, h5⟩]⟩
  · have hb : s.arg.b = 6 := by omega
    exact ⟨_, by rw [if_neg (fun h => h5 h.2), if_pos hb, hb]⟩

theorem State.getMeasurements_error (s : State) (hp : s.mgmt.power ≠ .off) (h : s.arg.a % 256 = 0)
    (hs : s.mgmt.security ≠ .failed) (hb : s.arg.b = 0 ∨ 6 < s.arg.b) :
    execGetMeasurements s = .next (s.send (.spdmError false)) := by
  unfold execGetMeasurements
  rw [s.spdm_answers _ hp h hs, if_neg (by omega), if_neg (by omega)]

/-- After a key exchange FINISH stands the session up. -/
theorem State.finish_told (s : State) (hp : s.mgmt.power ≠ .off) (h : s.arg.a % 256 = 0) (hs : s.mgmt.security ≠ .failed)
    (hf : s.mgmt.spdm = 1) : execFinish s = .next (State.send
      { s with mgmt := { s.mgmt with spdm := 2, ideOpen := s.mgmt.ideOpen || s.arg.flag } } (.spdm "FINISH_RSP")) := by
  unfold execFinish
  rw [s.spdm_answers _ hp h hs, if_pos hf]

theorem State.finish_error (s : State) (hp : s.mgmt.power ≠ .off) (h : s.arg.a % 256 = 0) (hs : s.mgmt.security ≠ .failed)
    (hf : s.mgmt.spdm ≠ 1) : execFinish s = .next (s.send (.spdmError false)) := by
  unfold execFinish
  rw [s.spdm_answers _ hp h hs, if_neg hf]

/-! ### The obligation -/

/-- Settles O50: the scrubber and a dump by what waits in memory and what is gated, the host's accesses by an induction over
the granules it writes, the requests for a debug level and of attestation by the branches of the function that answers them. -/
theorem hostsDebugErrorsAttestation : Obligations.HostsDebugErrorsAttestation := by
  unfold Obligations.HostsDebugErrorsAttestation
  refine ⟨fun s => ?_, fun s hp => ?_⟩
  · refine ⟨s.memoryDump_level, fun hd hp hf hg h => ?_, fun hd hp hf hb h => ?_, fun h => ?_, s.patrolScrub_clean,
      s.patrolScrub_found, fun hd hp hf h hg => ?_, fun hp => ?_, fun hr hp ha hs => ⟨?_, fun hl hu hw => ⟨?_, ?_, ?_⟩⟩,
      s.configRequest_answer, s.cxlHostResponse_recalled, s.cxlHostResponse_bytes, s.fatalError_stops⟩
    · refine ⟨_, (s.memoryDump_run hd hp hf).trans (s.dump_tells _ _ h fun i hi => ?_), s.dumpBytes_length _ _,
        fun i hi => s.dumpBytes_get _ _ i hi⟩
      rw [Bool.eq_false_iff, ne_eq, s.dumpGated_iff]
      rintro ⟨hpw, hsp, hgt⟩
      rw [hg hpw i hi hsp] at hgt
      cases hgt
    · exact (s.memoryDump_run hd hp hf).trans (s.dump_absent _ _ hb h)
    · exact s.patrolScrub_absent h
    · obtain ⟨i, hi, hsp, hgt⟩ := hg
      exact (s.memoryDump_run hd (by rw [hp]; nofun) hf).trans
        (s.dump_gated _ _ h ⟨i, hi, (s.dumpGated_iff _).mpr ⟨hp, hsp, hgt⟩⟩)
    · exact s.debugLevelRequest_levels hp
    · exact s.hostMemAccess_refused hr hp ha hs
    · exact s.hostMemAccess_recalled ha hl
    · exact s.hostMemAccess_writes hr hp ha hl hu hw
    · intro hf hm
      obtain ⟨c, hc⟩ := s.hostMemAccess_reads hr hp ha hl hu hw hf hm
      exact ⟨_, s.hostData, hc, rfl, rfl, rfl, NatMap.get_del_same _ _ _, s.hostData_byte⟩
  · refine ⟨fun h i hi => ?_, fun h hs i hi => ?_, fun h hs => ?_⟩
    · obtain ⟨f, hf⟩ := exec_spdmRequest s i hi
      rw [hf, s.spdm_virtual f h]
    · obtain ⟨f, hf⟩ := exec_spdmRequest s i hi
      rw [hf, s.spdm_failed f hp h hs]
      rfl
    · have hans (f : State → State) : Host.Outcome.next (s.spdm f) = (.next (f s) : Out) := by rw [s.spdm_answers f hp h hs]
      refine ⟨hans _, hans _, ⟨_, hans _⟩, hans _, hans _, hans _, hans _, s.getMeasurements_told hp h hs,
        s.getMeasurements_error hp h hs, ⟨_, hans _, rfl, rfl, rfl⟩,
        fun hf => ⟨_, s.finish_told hp h hs hf, rfl, rfl, rfl⟩, s.finish_error hp h hs⟩

end Sys2Proof.Machine
end

section
/-! ## Transactions and snapshots asked for, and transactions ended (03 R87 to R111, 09 R257 to R259) -/

namespace Sys2Proof.Machine

open Sys2Proof Sys2Proof.Claims

/-! ### A field of a word set -/

/-- The bits of a field are those of what it is set to; the others stay. -/
theorem getLsbD_setBits (w : Word) (lo n v i : Nat) (h : lo + n ≤ 64) :
    (setBits w lo n v).getLsbD i = if lo ≤ i ∧ i < lo + n then v.testBit (i - lo) else w.getLsbD i := by
  by_cases hi : i < 64
  · simp only [setBits, wd, BitVec.getLsbD_or, BitVec.getLsbD_and, BitVec.getLsbD_not, BitVec.getLsbD_shiftLeft,
      BitVec.getLsbD_ofNat, Nat.testBit_mod_two_pow, Nat.testBit_two_pow_sub_one, hi, decide_true, Bool.true_and]
    by_cases hl : i < lo
    · simp [hl, Nat.not_le.mpr hl]
    · have hlo : lo ≤ i := Nat.le_of_not_lt hl
      have h64 : i - lo < 64 := by omega
      by_cases hn : i < lo + n
      · have : i - lo < n := by omega
        simp [hl, hlo, hn, h64, this]
      · have : ¬ i - lo < n := by omega
        simp [hl, hn, this]
  · have hw : ¬ (lo ≤ i ∧ i < lo + n) := by omega
    simp only [BitVec.getLsbD_of_ge _ i (Nat.le_of_not_lt hi), hw, if_false]

theorem extract_setBits_same (w : Word) (lo n v : Nat) (h : lo + n ≤ 64) :
    (setBits w lo n v).extractLsb' lo n = BitVec.ofNat n v := by
  refine BitVec.eq_of_getLsbD_eq fun i hi => ?_
  rw [BitVec.getLsbD_extractLsb', getLsbD_setBits _ _ _ _ _ h, BitVec.getLsbD_ofNat, if_pos (by omega),
    Nat.add_sub_cancel_left]

theorem extract_setBits_apart (w : Word) (lo n v lo' n' : Nat) (h : lo + n ≤ 64) (hd : lo' + n' ≤ lo ∨ lo + n ≤ lo') :
    (setBits w lo n v).extractLsb' lo' n' = w.extractLsb' lo' n' := by
  refine BitVec.eq_of_getLsbD_eq fun i hi => ?_
  rw [BitVec.getLsbD_extractLsb', BitVec.getLsbD_extractLsb', getLsbD_setBits _ _ _ _ _ h, if_neg (by omega)]

/-! ### TXS (03 R109) -/

/-- TXS with a new STATE and DOOM clear keeps its other fields. -/
theorem txs_state_set (w : Word) (st : Nat) :
    let x := setBits (setBits w 2 2 st) 1 1 0
    x.extractLsb' 2 2 = BitVec.ofNat 2 st ∧ x.getLsbD 1 = false ∧ x.extractLsb' 4 60 = w.extractLsb' 4 60 := by
  refine ⟨?_, ?_, ?_⟩
  · rw [extract_setBits_apart _ _ _ _ _ _ (by decide) (by decide), extract_setBits_same _ _ _ _ (by decide)]
  · rw [getLsbD_setBits _ _ _ _ _ (by decide)]; rfl
  · rw [extract_setBits_apart _ _ _ _ _ _ (by decide) (by decide), extract_setBits_apart _ _ _ _ _ _ (by decide) (by decide)]

theorem txsWord_fields (w : Word) (st doom cause : Nat) :
    (txsWord w st doom cause).extractLsb' 2 2 = BitVec.ofNat 2 st ∧
      (txsWord w st doom cause).extractLsb' 4 4 = BitVec.ofNat 4 cause := by
  refine ⟨?_, extract_setBits_same _ _ _ _ (by decide)⟩
  rw [txsWord, extract_setBits_apart _ _ _ _ _ _ (by decide) (by decide),
    extract_setBits_apart _ _ _ _ _ _ (by decide) (by decide), extract_setBits_same _ _ _ _ (by decide)]

/-! ### What logs an error, and what frees records (03 R99, R107) -/

/-- `t` is `s` but for the error banks, the collectors' status and the messages sent. -/
def logsOnly (s t : State) : Prop := ∃ m c o, t = { s with mca := m, colst := c, outbox := o }

theorem logsOnly_refl (s : State) : logsOnly s s := ⟨_, _, _, rfl⟩

theorem logsOnly_trans {s t u : State} (h : logsOnly s t) (h' : logsOnly t u) : logsOnly s u := by
  obtain ⟨_, _, _, rfl⟩ := h
  obtain ⟨m, c, o, rfl⟩ := h'
  exact ⟨m, c, o, rfl⟩

theorem logsOnly_foldl {β : Type} (l : List β) (f : State → β → State) (hf : ∀ s x, logsOnly s (f s x)) (s : State) :
    logsOnly s (l.foldl f s) :=
  List.foldlRecOn l f (logsOnly_refl s) fun _ h x _ => logsOnly_trans h (hf _ x)

theorem State.logError_only (s : State) (b sev code : Nat) (psn : Bool) (ak loc : Nat) (org : Option Nat) (pl : Nat) :
    logsOnly s (s.logError b sev code psn ak loc org pl) := by
  unfold State.logError
  dsimp only
  split <;> exact ⟨_, _, _, rfl⟩

theorem State.updatePress_only (s : State) (h : Nat) : logsOnly s (s.updatePress h) := by
  unfold State.updatePress
  dsimp only
  split
  · exact logsOnly_refl s
  · split
    · exact logsOnly_trans ⟨_, _, _, rfl⟩ (State.logError_only _ _ _ _ _ _ _ _ _)
    · exact ⟨_, _, _, rfl⟩

/-- A directory entry without what a transaction holds of it. -/
def LineEntry.without (t : Nat) (e : LineEntry) : LineEntry :=
  { e with recs := NatMap.del e.recs t, lock := if e.lock = some t then none else e.lock, merge := e.merge.filter (· != t) }

/-- Giving up the records of a transaction changes the directory and, the free space having changed, what is logged. -/
theorem State.dropRecords_only (s : State) (t : Nat) :
    logsOnly { s with dir := s.dir.map fun x => (x.1, x.2.without t) } (s.dropRecords t) :=
  logsOnly_foldl _ _ State.updatePress_only _

/-! ### Contexts changed by number -/

theorem State.modCtx_cur (s : State) (f : Context → Context) : s.modCtx s.cur f = { s with ctx := f s.ctx } := by
  simp [State.modCtx, State.setCtx]

theorem State.modCtx_of_cur {s : State} {i : Nat} (f : Context → Context) (h : s.cur = i) :
    s.modCtx i f = { s with ctx := f s.ctx } := by rw [← h, State.modCtx_cur]

/-- Changing a context changes the focused one, the table of the others, or the image in its launch. -/
theorem State.modCtx_only (s : State) (i : Nat) (f : Context → Context) :
    ∃ c cs l, s.modCtx i f = { s with ctx := c, ctxs := cs, launches := l } := by
  unfold State.modCtx State.setCtx
  split
  · exact ⟨_, _, _, rfl⟩
  · split
    · split <;> exact ⟨_, _, _, rfl⟩
    · exact ⟨_, _, _, rfl⟩

/-- A context by number is read from the focus, the tables and the launches. -/
theorem State.getCtx_congr {s t : State} (hcur : t.cur = s.cur) (hctx : t.ctx = s.ctx) (hctxs : t.ctxs = s.ctxs)
    (hl : t.launches = s.launches) (j : Nat) : t.getCtx j = s.getCtx j := by
  simp only [State.getCtx, hcur, hctx, hctxs, hl]

theorem logsOnly_getCtx {s t : State} (h : logsOnly s t) (j : Nat) : t.getCtx j = s.getCtx j := by
  obtain ⟨_, _, _, rfl⟩ := h
  exact State.getCtx_congr rfl rfl rfl rfl j

theorem State.modCtx_curId (s : State) (i : Nat) (f : Context → Context) : (s.modCtx i f).cur = s.cur := by
  obtain ⟨_, _, _, h⟩ := s.modCtx_only i f
  rw [h]

/-- A change to a running context, or to the focused one, is seen there and nowhere else. -/
theorem State.getCtx_modCtx (s : State) (i j : Nat) (f : Context → Context) (hi : i < 4096 ∨ i = s.cur) :
    (s.modCtx i f).getCtx j = if j = i then f (s.getCtx i) else s.getCtx j := by
  rcases hi with hi | rfl
  · by_cases hj : j = i
    · rw [if_pos hj, hj]; exact s.getCtx_setCtx_same _ hi
    · rw [if_neg hj]; exact s.getCtx_setCtx_other _ hi hj
  · rw [State.modCtx_cur]
    by_cases hj : j = s.cur
    · simp only [State.getCtx, hj, if_true]
    · simp only [State.getCtx, if_neg hj]

/-- The same of a state whose contexts are those of another. -/
theorem State.getCtx_modCtx_of {s u : State} (i j : Nat) (f : Context → Context) (hu : ∀ k, u.getCtx k = s.getCtx k)
    (hc : u.cur = s.cur) (hi : i < 4096 ∨ i = s.cur) :
    (u.modCtx i f).getCtx j = if j = i then f (s.getCtx i) else s.getCtx j := by
  rw [u.getCtx_modCtx i j f (hi.imp id fun h => h.trans hc.symm), hu, hu]

/-! ### The end of a transaction (03 R107, R111) -/

/-- A command of a transaction that is over: its writes are discarded, its reads give the newest version. -/
def CopyCmd.orphaned (t : Nat) (c : CopyCmd) : CopyCmd :=
  if c.tx = some t then { c with tx := some 16385, snp := 0 } else { c with snp := if c.snp = srcTx t then 0 else c.snp }

/-- A store-queue entry of a transaction that is over. -/
def StoreEntry.orphaned (t : Nat) (e : StoreEntry) : StoreEntry :=
  if e.tx = some t then { e with
    tx := some 16385
    kind := match e.kind with | .cmd c => .cmd { c with snp := 0 } | k => k }
  else e

/-- A context whose transaction is over. -/
def Context.orphaned (t : Nat) (c : Context) : Context :=
  { c with q := { c.q with
    copyq := c.q.copyq.map (CopyCmd.orphaned t)
    sq := c.q.sq.map (StoreEntry.orphaned t)
    csq := c.q.csq.map (StoreEntry.orphaned t)
    lq := c.q.lq.map fun e => if e.snp = srcTx t then { e with snp := 0 } else e } }

/-- A context that has a transaction no longer. -/
def Context.released (t : Nat) (c : Context) : Context := { c with txid := if c.txid = some t then none else c.txid }

theorem State.orphan_eq (s : State) (t cid : Nat) :
    s.orphan t cid = State.modCtx { s with copies := s.copies.map (CopyCmd.orphaned t) } cid (Context.orphaned t) := rfl

theorem State.unregister_eq (s : State) (t cid : Nat) : s.unregister t cid =
    State.modCtx { (s.dropRecords t).orphan t cid with txs := NatMap.del s.txs t } cid (Context.released t) := by
  obtain ⟨_, _, _, hd⟩ := s.dropRecords_only t
  obtain ⟨_, _, _, ho⟩ := State.modCtx_only { s.dropRecords t with copies := (s.dropRecords t).copies.map (CopyCmd.orphaned t) }
    cid (Context.orphaned t)
  have htx : ((s.dropRecords t).orphan t cid).txs = s.txs := by rw [State.orphan_eq, ho, hd]
  rw [← htx]
  rfl

/-- What is left where a transaction is no longer in the table: its number is free, its records are gone, and no byte has
changed. -/
theorem State.unregister_only (s : State) (t cid : Nat) : ∃ c cs l, logsOnly
    { s with
      dir := s.dir.map fun x => (x.1, x.2.without t), txs := NatMap.del s.txs t
      copies := s.copies.map (CopyCmd.orphaned t), ctx := c, ctxs := cs, launches := l } (s.unregister t cid) := by
  obtain ⟨m, p, o, hd⟩ := s.dropRecords_only t
  rw [State.unregister_eq, State.orphan_eq, hd]
  obtain ⟨_, _, _, h1⟩ := State.modCtx_only _ cid (Context.orphaned t)
  rw [h1]
  obtain ⟨c, cs, l, h2⟩ := State.modCtx_only _ cid (Context.released t)
  rw [h2]
  exact ⟨c, cs, l, m, p, o, rfl⟩

theorem State.dropRecords_getCtx (s : State) (t j : Nat) : (s.dropRecords t).getCtx j = s.getCtx j :=
  (logsOnly_getCtx (s.dropRecords_only t) j).trans (State.getCtx_congr rfl rfl rfl rfl j)

theorem State.dropRecords_cur (s : State) (t : Nat) : (s.dropRecords t).cur = s.cur := by
  obtain ⟨_, _, _, h⟩ := s.dropRecords_only t
  rw [h]

theorem State.orphan_cur (s : State) (t cid : Nat) : (s.orphan t cid).cur = s.cur := by
  rw [State.orphan_eq, State.modCtx_curId]

theorem State.getCtx_orphan (s : State) (t cid j : Nat) (h : cid < 4096 ∨ cid = s.cur) :
    (s.orphan t cid).getCtx j = if j = cid then (s.getCtx cid).orphaned t else s.getCtx j :=
  State.getCtx_modCtx_of cid j _ (State.getCtx_congr rfl rfl rfl rfl) rfl h

/-- The context of the transaction, and no other, is seen to have none. -/
theorem State.getCtx_unregister (s : State) (t cid j : Nat) (h : cid < 4096 ∨ cid = s.cur) :
    (s.unregister t cid).getCtx j = if j = cid then ((s.getCtx cid).orphaned t).released t else s.getCtx j := by
  have hd := h.imp id fun hc => hc.trans (s.dropRecords_cur t).symm
  have ho := h.imp id fun hc => hc.trans (((s.dropRecords t).orphan_cur t cid).trans (s.dropRecords_cur t)).symm
  rw [State.unregister_eq]
  refine Eq.trans (State.getCtx_modCtx_of (s := (s.dropRecords t).orphan t cid) cid j _ ?_ ?_ ho) ?_
  · exact State.getCtx_congr rfl rfl rfl rfl
  · rfl
  rw [State.getCtx_orphan _ _ _ _ hd, State.getCtx_orphan _ _ _ _ hd, State.dropRecords_getCtx, State.dropRecords_getCtx,
    if_pos rfl]
  by_cases hj : j = cid
  · rw [if_pos hj, if_pos hj]
  · rw [if_neg hj, if_neg hj, if_neg hj]

/-- An aborted transaction is its context's no longer; registers, control registers and memory stay. -/
theorem State.abortTx_cur (s : State) : let t := s.abortTx s.cur
    t.ctx.txid = none ∧ t.ctx.regs = s.ctx.regs ∧ t.ctx.c = s.ctx.c ∧ t.mem = s.mem := by
  have hc : s.getCtx s.cur = s.ctx := s.getCtx_cur
  dsimp only
  unfold State.abortTx
  rw [hc]
  split
  · next h => exact ⟨h, rfl, rfl, rfl⟩
  · next t h =>
    dsimp only
    split
    · rw [State.modCtx_of_cur _ rfl]
      exact ⟨rfl, rfl, rfl, rfl⟩
    · obtain ⟨_, _, _, _, _, _, hu⟩ := s.unregister_only t s.cur
      have hcur : (s.unregister t s.cur).cur = s.cur := by rw [hu]
      have hg := s.getCtx_unregister t s.cur s.cur (.inr rfl)
      have hm : (s.unregister t s.cur).mem = s.mem := by rw [hu]
      rw [if_pos rfl, hc] at hg
      have hctx : (s.unregister t s.cur).ctx = (s.ctx.orphaned t).released t := by
        rw [← hg, State.getCtx, if_pos hcur.symm]
      rw [State.modCtx_of_cur _ hcur]
      exact ⟨rfl, (congrArg Context.regs hctx :), (congrArg Context.c hctx :), hm⟩

/-! ### The words (09 R257 to R259) -/

/-- A request to HD0 enters the store queue and the landing buffer under one number. -/
theorem State.pushBoth_eq (s : State) (kind : LandKind) (ad : Nat) (f : Nat → SKind) :
    s.pushBoth kind ad f = asking s kind ad (f s.ctx.q.nextId) := rfl

/-- TXABORT gives the transaction up with cause EXPLICIT. -/
theorem State.txabort_active (s : State) (hp : s.pred = true) (h : s.ctx.txState = 1) :
    ∃ t, execTxabort s = .next t ∧ t.ctx.c.txs.extractLsb' 2 2 = 0#2 ∧ t.ctx.c.txs.extractLsb' 4 4 = 5#4 ∧
      t.ctx.txid = none ∧ t.ctx.regs = s.ctx.regs ∧ t.mem = s.mem := by
  obtain ⟨htx, hregs, -, hm⟩ := s.abortTx_cur
  obtain ⟨hst, hcause⟩ := txsWord_fields (s.abortTx s.cur).ctx.c.txs 0 0 5
  refine ⟨s.giveUp 5, ?_, hst, hcause, htx, hregs, hm⟩
  rw [execTxabort, s.scalar_true _ hp, if_neg (not_not_intro h)]

/-- Settles O17: each word is its request to HD0 with TXS set beside it; TXABORT needs none, and what it leaves is what giving
a transaction up leaves. -/
theorem transactionsAndSnapshotsAsk : Obligations.TransactionsAndSnapshotsAsk := by
  unfold Obligations.TransactionsAndSnapshotsAsk
  intro s d r k ad hp
  refine ⟨fun h => ⟨_, ?_, txs_state_set s.ctx.c.txs 1⟩, fun h => ⟨_, ?_, txs_state_set s.ctx.c.txs 2⟩,
    s.txabort_active hp, ?_, fun hr => ⟨?_, ?_⟩⟩
  · change execTxbegin ad s = _
    rw [execTxbegin, s.scalar_true _ hp, if_neg (not_not_intro h)]
    rfl
  · change execTxcommit d k ad s = _
    rw [execTxcommit, s.scalar_true _ hp, if_neg (not_not_intro h)]
    rfl
  · change execSnapnew d k ad s = _
    rw [execSnapnew, s.scalar_true _ hp, s.pushBoth_eq]
  · change execSnapset r k ad s = _
    rw [execSnapset, s.scalar_true _ hp, s.consume_clean _ _ (by simpa using hr), s.pushBoth_eq]
  · change execSnapdrop r k ad s = _
    rw [execSnapdrop, s.scalar_true _ hp, s.consume_clean _ _ (by simpa using hr), s.pushBoth_eq]

end Sys2Proof.Machine
end

section
/-! ## The collector (03 R96, R98, R99) -/

namespace Sys2Proof.Machine

open Sys2Proof Sys2Proof.Claims

/-! ### Tables with no key twice -/

theorem NatMap.find?_none {α : Type} {m : NatMap α} {k : Nat} (h : k ∉ m.map Prod.fst) : NatMap.find? m k = none := by
  induction m with
  | nil => rfl
  | cons e t ih =>
    obtain ⟨hk, ht⟩ := not_or.mp (mt List.mem_cons.mpr h)
    simp only [NatMap.find?, if_neg hk, ih ht]

/-- An entry changed and then kept or not, each by itself. -/
def sift {α : Type} (f : Nat × α → α) (keep : Nat × α → Bool) (m : NatMap α) : NatMap α :=
  (m.map fun x => (x.1, f x)).filter keep

/-- In a table with no key twice the entry of a key is what is left of the one that was there. -/
theorem NatMap.find?_sift {α : Type} (f : Nat × α → α) (keep : Nat × α → Bool) (m : NatMap α) (k : Nat)
    (h : (m.map Prod.fst).Nodup) : NatMap.find? (sift f keep m) k =
      (NatMap.find? m k).bind fun v => if keep (k, f (k, v)) then some (f (k, v)) else none := by
  induction m with
  | nil => rfl
  | cons e t ih =>
    obtain ⟨he, ht⟩ := List.nodup_cons.mp h
    have ih := ih ht
    by_cases hk : k = e.1
    · subst hk
      rw [NatMap.find?_none he] at ih
      simp only [sift, List.map_cons, List.filter_cons, NatMap.find?, if_true, Option.bind_some]
      split
      · simp only [NatMap.find?, if_true]
      · exact ih
    · simp only [sift, List.map_cons, List.filter_cons, NatMap.find?, if_neg hk]
      split
      · simp only [NatMap.find?, if_neg hk]; exact ih
      · exact ih

/-! ### Chains (03 R98) -/

/-- Reclaiming cuts a chain's end off. -/
theorem reclaim_prefix (lw next : Nat) (l : List VRec) : ∃ gone, l = reclaim lw next l ++ gone := by
  induction l generalizing next with
  | nil => exact ⟨[], rfl⟩
  | cons r l ih =>
    unfold reclaim
    split
    · exact ⟨r :: l, rfl⟩
    · obtain ⟨gone, h⟩ := ih r.stamp
      exact ⟨gone, congrArg (r :: ·) h⟩

/-- What is cut off lies behind a version that a reader at the low-water stamp or later sees before it: the order of the
stamps does not matter. -/
theorem reclaim_find (lw next stamp : Nat) (l : List VRec) (hlw : lw ≤ stamp) (hn : stamp < next) :
    (reclaim lw next l).find? (fun r => decide (r.stamp ≤ stamp)) = l.find? fun r => decide (r.stamp ≤ stamp) := by
  induction l generalizing next with
  | nil => rfl
  | cons r l ih =>
    rw [reclaim, if_neg (by omega), List.find?_cons, List.find?_cons]
    by_cases hr : r.stamp ≤ stamp
    · simp only [hr, decide_true]
    · simp only [hr, decide_false]
      exact ih r.stamp (by omega)

/-! ### A collector's run -/

/-- The lines whose entries the scan of hub `h` has not passed. -/
def State.unscanned (s : State) (h : Nat) : List Nat :=
  ((s.dir.filter fun x => hubOf (128 * x.1) == h).map Prod.fst).drop (bits (NatMap.get 0 s.colst h) 0 56)

/-- The lines whose entries a run over `n` entries visits. -/
def State.scans (s : State) (h n : Nat) : List Nat := if n = 0 then s.unscanned h else (s.unscanned h).take n

/-- Whether the run changes an entry: it visits it, and no transaction has it locked. -/
def State.reclaims (s : State) (h n : Nat) (x : Nat × LineEntry) : Bool := (s.scans h n).contains x.1 && x.2.lock.isNone

/-- An entry once the run has passed. -/
def State.reclaimed (s : State) (h n : Nat) (x : Nat × LineEntry) : LineEntry :=
  if s.reclaims h n x then { x.2 with chain := reclaim s.lowWater x.2.stamp x.2.chain } else x.2

/-- An entry is kept unless the run has visited it and nothing of it is left that a settled line lacks. -/
def State.keeps (s : State) (h n : Nat) (x : Nat × LineEntry) : Bool :=
  !(s.reclaims h n x && x.2.chain.isEmpty && x.2.recs.isEmpty && decide (x.2.stamp ≤ s.lowWater))

/-- The directory once the run has passed. -/
def State.sifted (s : State) (h n : Nat) : NatMap LineEntry := sift (s.reclaimed h n) (s.keeps h n) s.dir

/-- The records a run frees, and where it leaves the scan: at the first entry once it has passed the last. -/
theorem State.collect_run (s : State) (h n : Nat) : ∃ w p, s.collect h n = State.updatePress { s with
    dir := s.sifted h n
    colfreed := NatMap.set 0 s.colfreed h (NatMap.get 0 s.colfreed h + wd ((s.dir.map fun x => x.2.chain.length).sum -
      ((s.dir.map fun x => (x.1, s.reclaimed h n x)).map fun x => x.2.chain.length).sum))
    colst := NatMap.set 0 s.colst h
      (setBits w 0 56 (if decide ((s.unscanned h).length ≤ (s.scans h n).length) then 0 else p)) } h := by
  have hnew : (s.dir.map fun x => if s.reclaims h n x then
      (x.1, { x.2 with chain := reclaim s.lowWater x.2.stamp x.2.chain }) else x) = s.dir.map fun x => (x.1, s.reclaimed h n x) := by
    refine List.map_congr_left fun x _ => ?_
    unfold State.reclaimed
    split <;> rfl
  unfold State.sifted sift
  rw [← hnew]
  exact ⟨_, _, rfl⟩

/-- An entry that is dropped has no record left to count. -/
theorem State.keeps_sum (s : State) (h n : Nat) (l : NatMap LineEntry) :
    ((l.filter (s.keeps h n)).map fun x => x.2.chain.length).sum = (l.map fun x => x.2.chain.length).sum := by
  induction l with
  | nil => rfl
  | cons x l ih =>
    rw [List.filter_cons]
    split
    · simp only [List.map_cons, List.sum_cons, ih]
    · next hk =>
      have hc : x.2.chain = [] := by
        simp only [State.keeps, Bool.not_eq_true, Bool.not_eq_false', Bool.and_eq_true, List.isEmpty_iff] at hk
        exact hk.1.1.2
      simp only [List.map_cons, List.sum_cons, hc, List.length_nil, ih, Nat.zero_add]

/-- COLST changes in its press flag at most. -/
theorem State.updatePress_cases (s : State) (h : Nat) : s.updatePress h = s ∨ ∃ v m o, s.updatePress h = { s with
    colst := NatMap.set 0 s.colst h (setBits (NatMap.get 0 s.colst h) 57 1 v), mca := m, outbox := o } := by
  unfold State.updatePress
  dsimp only
  generalize decide (s.lrFree h < s.lrReserve) = inside
  split
  · exact .inl rfl
  · refine .inr ⟨if inside then 1 else 0, ?_⟩
    split
    · unfold State.logError
      dsimp only
      split <;> exact ⟨_, _, rfl⟩
    · exact ⟨_, _, rfl⟩

/-- The press flag leaves where the scan stands. -/
theorem State.updatePress_scan (s : State) (h : Nat) :
    bits (NatMap.get 0 (s.updatePress h).colst h) 0 56 = bits (NatMap.get 0 s.colst h) 0 56 := by
  rcases s.updatePress_cases h with hc | ⟨v, _, _, hc⟩
  · rw [hc]
  · rw [hc, NatMap.get_set_same, bits_extract, bits_extract, extract_setBits_apart _ _ _ _ _ _ (by decide) (by decide)]

/-! ### What the directory shows after the run -/

theorem State.find?_sifted (s : State) (h n l : Nat) (hd : (s.dir.map Prod.fst).Nodup) :
    NatMap.find? (s.sifted h n) l = (NatMap.find? s.dir l).bind fun e =>
      if s.keeps h n (l, s.reclaimed h n (l, e)) then some (s.reclaimed h n (l, e)) else none :=
  NatMap.find?_sift _ _ _ _ hd

/-- The run visits entries of its hub only. -/
theorem State.scans_hub (s : State) (h n l : Nat) (hl : (s.scans h n).contains l = true) : hubOf (128 * l) = h := by
  have hm : l ∈ s.unscanned h := by
    unfold State.scans at hl
    split at hl
    · exact List.contains_iff_mem.mp hl
    · exact List.mem_of_mem_take (List.contains_iff_mem.mp hl)
  obtain ⟨x, hx, rfl⟩ := List.mem_map.mp (List.mem_of_mem_drop hm)
  exact beq_iff_eq.mp (List.mem_filter.mp hx).2

/-- An entry of another hub, or one that is locked, is not touched. -/
theorem State.reclaims_not (s : State) (h n l : Nat) (e : LineEntry) (ho : hubOf (128 * l) ≠ h ∨ e.lock.isSome = true) :
    s.reclaims h n (l, e) = false := by
  rw [State.reclaims, Bool.and_eq_false_iff]
  exact ho.imp (fun h' => Bool.eq_false_iff.mpr fun hc => h' (s.scans_hub h n l hc)) fun h' => by
    cases hlock : e.lock with
    | none => rw [hlock] at h'; cases h'
    | some _ => rfl

/-- The version of an entry that a reader at a stamp sees: the one in place, or the newest of its chain that is old enough. -/
def LineEntry.seen (e : LineEntry) (stamp : Nat) (inPlace : BitVec 1024 × BitVec 16) : BitVec 1024 × BitVec 16 :=
  if e.stamp ≤ stamp then inPlace
  else ((e.chain.find? fun r => decide (r.stamp ≤ stamp)).map fun r => (r.data, r.poison)).getD inPlace

theorem State.visible_some (s : State) (l stamp : Nat) (e : LineEntry) (h : NatMap.find? s.dir l = some e) :
    s.visible l stamp = e.seen stamp (s.lineImage l) := by
  unfold State.visible LineEntry.seen
  rw [h]
  dsimp only
  split
  · rfl
  · cases e.chain.find? fun r => decide (r.stamp ≤ stamp) <;> rfl

theorem State.visible_none (s : State) (l stamp : Nat) (h : NatMap.find? s.dir l = none) :
    s.visible l stamp = s.lineImage l := by
  unfold State.visible; rw [h]

/-- A reader at the low-water stamp or later sees the same version of every line. -/
theorem State.visible_sifted (s t : State) (h n l stamp : Nat) (hd : (s.dir.map Prod.fst).Nodup) (ht : t.dir = s.sifted h n)
    (hi : t.lineImage l = s.lineImage l) (hs : s.lowWater ≤ stamp) : t.visible l stamp = s.visible l stamp := by
  have hf := s.find?_sifted h n l hd
  rw [← ht] at hf
  cases he : NatMap.find? s.dir l with
  | none =>
    rw [he] at hf
    rw [s.visible_none _ _ he, t.visible_none _ _ hf, hi]
  | some e =>
    rw [he, Option.bind_some] at hf
    have hst : (s.reclaimed h n (l, e)).stamp = e.stamp := by unfold State.reclaimed; split <;> rfl
    rw [s.visible_some _ _ _ he]
    split at hf
    · rw [t.visible_some _ _ _ hf, hi, LineEntry.seen, LineEntry.seen, hst]
      by_cases hle : e.stamp ≤ stamp
      · simp only [hle, if_true]
      · have hfind : (s.reclaimed h n (l, e)).chain.find? (fun r => decide (r.stamp ≤ stamp)) =
            e.chain.find? fun r => decide (r.stamp ≤ stamp) := by
          unfold State.reclaimed
          split
          · exact reclaim_find _ _ _ _ hs (Nat.lt_of_not_le hle)
          · rfl
        simp only [hle, if_false, hfind]
    · next hk =>
      have hle : e.stamp ≤ s.lowWater := by
        simp only [State.keeps, Bool.not_eq_true, Bool.not_eq_false', Bool.and_eq_true, decide_eq_true_eq, hst] at hk
        exact hk.2
      rw [t.visible_none _ _ hf, hi, LineEntry.seen, if_pos (hle.trans hs)]

/-- A line that the run may not touch keeps its entry. -/
theorem State.find?_sifted_kept (s : State) (h n l : Nat) (hd : (s.dir.map Prod.fst).Nodup)
    (ho : hubOf (128 * l) ≠ h ∨ (s.lineEntry l).lock.isSome = true) :
    NatMap.find? (s.sifted h n) l = NatMap.find? s.dir l := by
  rw [s.find?_sifted h n l hd]
  cases he : NatMap.find? s.dir l with
  | none => rfl
  | some e =>
    have hr : ∀ e' : LineEntry, e'.lock = e.lock → s.reclaims h n (l, e') = false := fun e' he' =>
      s.reclaims_not h n l e' (ho.imp id fun h' => by rw [he']; rwa [State.lineEntry, he] at h')
    have hrec : s.reclaimed h n (l, e) = e := by rw [State.reclaimed, hr e rfl]; rfl
    have hkeep : s.keeps h n (l, e) = true := by rw [State.keeps, hr e rfl]; rfl
    rw [Option.bind_some, hrec, hkeep, if_pos rfl]

/-- The records of a line that are left are the newest of those it had. -/
theorem State.sifted_prefix (s t : State) (h n l : Nat) (hd : (s.dir.map Prod.fst).Nodup) (ht : t.dir = s.sifted h n) :
    ∃ gone, (s.lineEntry l).chain = (t.lineEntry l).chain ++ gone := by
  unfold State.lineEntry
  rw [ht, s.find?_sifted h n l hd]
  cases NatMap.find? s.dir l with
  | none => exact ⟨[], rfl⟩
  | some e =>
    rw [Option.bind_some]
    split
    · unfold State.reclaimed
      split
      · exact reclaim_prefix _ _ _
      · exact ⟨[], (List.append_nil _).symm⟩
    · exact ⟨e.chain, rfl⟩

/-- Settles O44: the run's directory is the old one with each entry reclaimed and kept or not by itself; what it cuts off a
chain, or drops, no reader at the low-water stamp or later reaches. -/
theorem collectorKeepsWhatIsVisible : Obligations.CollectorKeepsWhatIsVisible := by
  unfold Obligations.CollectorKeepsWhatIsVisible
  intro s ha hd
  have hmod : s.arg.a % 4 = s.arg.a := Nat.mod_eq_of_lt ha
  obtain ⟨w, p, hrun⟩ := s.collect_run s.arg.a s.arg.b
  have hlog := State.updatePress_only { s with
    dir := s.sifted s.arg.a s.arg.b
    colfreed := NatMap.set 0 s.colfreed s.arg.a (NatMap.get 0 s.colfreed s.arg.a +
      wd ((s.dir.map fun x => x.2.chain.length).sum -
        ((s.dir.map fun x => (x.1, s.reclaimed s.arg.a s.arg.b x)).map fun x => x.2.chain.length).sum))
    colst := NatMap.set 0 s.colst s.arg.a (setBits w 0 56
      (if decide ((s.unscanned s.arg.a).length ≤ (s.scans s.arg.a s.arg.b).length) then 0 else p)) } s.arg.a
  rw [← hrun] at hlog
  obtain ⟨m, c, o, ht⟩ := hlog
  have hdir : (s.collect s.arg.a s.arg.b).dir = s.sifted s.arg.a s.arg.b := by rw [ht]
  have himg (l : Nat) : (s.collect s.arg.a s.arg.b).lineImage l = s.lineImage l := by rw [ht]; rfl
  refine ⟨s.collect s.arg.a s.arg.b, ?_, by rw [ht], by rw [ht], by rw [ht],
    fun l stamp hs => s.visible_sifted _ _ _ l stamp hd hdir (himg l) hs,
    fun l ho => by rw [hdir]; exact s.find?_sifted_kept _ _ l hd ho,
    fun l => s.sifted_prefix _ _ _ l hd hdir, ?_, fun hb => ?_⟩
  · change execCollectorReclaim s = _
    rw [execCollectorReclaim, hmod]
  · rw [hdir, State.sifted, sift, State.keeps_sum]
    rw [ht]
    exact NatMap.get_set_same _ _ _ _
  · rw [hrun, State.updatePress_scan, NatMap.get_set_same, bits_extract, extract_setBits_same _ _ _ _ (by decide)]
    have hscan : s.scans s.arg.a s.arg.b = s.unscanned s.arg.a := if_pos hb
    rw [hscan, decide_eq_true (le_refl _), if_pos rfl]
    rfl

end Sys2Proof.Machine
end

section
/-! ## What an access at its home, a record posted and a translation without a TLB leave (01 R20 to R38, 02 R64 to R79, 18 R417,
R418, R422) -/

namespace Sys2Proof.Machine

open Sys2Proof Sys2Proof.Claims

/-! ### Traces -/

/-- The queues that `b` lists are queues of `a`, of the same tenants, as enabled as they were; their commands are commands that were
there, and no more of them is over. -/
def QueuesKept (a b : NatMap WQueue) : Prop := ∀ y ∈ b, ∃ x ∈ a, y.1 = x.1 ∧ y.2.tid = x.2.tid ∧ y.2.en = x.2.en ∧
  ∀ e ∈ y.2.cmds, ∃ c ∈ x.2.cmds, e.done = c.done ∧ e.fail = c.fail ∧ e.words = c.words

theorem queuesKept_refl (a : NatMap WQueue) : QueuesKept a a :=
  fun y hy => ⟨y, hy, rfl, rfl, rfl, fun e he => ⟨e, he, rfl, rfl, rfl⟩⟩

theorem queuesKept_trans {a b c : NatMap WQueue} (h : QueuesKept a b) (h' : QueuesKept b c) : QueuesKept a c := by
  intro z hz
  obtain ⟨y, hy, hk', ht', he', hc'⟩ := h' z hz
  obtain ⟨x, hx, hk, ht, he, hc⟩ := h y hy
  refine ⟨x, hx, hk'.trans hk, ht'.trans ht, he'.trans he, fun e hm => ?_⟩
  obtain ⟨d, hd, hdone', hfail', hwords'⟩ := hc' e hm
  obtain ⟨g, hg, hdone, hfail, hwords⟩ := hc d hd
  exact ⟨g, hg, hdone'.trans hdone, hfail'.trans hfail, hwords'.trans hwords⟩

/-- `t` is `s` but for what homes, hubs, command processors, HD0's fault queues and the error banks hold: no context, cluster, clock,
directory, transaction, copy or launch differs, and the queues are those that were. -/
def tracesOnly (s t : State) : Prop := ∃ mem poison upsets cached walkCache recalled colst tenants held watchQ queues mca outbox,
  QueuesKept s.queues queues ∧ t = { s with
    mem := mem, memPoison := poison, upsets := upsets, cached := cached, walkCache := walkCache, recalled := recalled
    colst := colst, tenants := tenants, fqOver := held, watchQ := watchQ, queues := queues, mca := mca, outbox := outbox }

theorem tracesOnly_update (s : State) (mem : List Host.Cell) (poison recalled : NatMap Bool) (upsets : List Upset)
    (cached : NatMap (List (Nat × Bool))) (walkCache : NatMap (List WalkEntry)) (colst : NatMap Word) (tenants : NatMap Tenant)
    (held watchQ : List FqRec) (mca : NatMap Mca) (outbox : List Message) : tracesOnly s { s with
      mem := mem, memPoison := poison, upsets := upsets, cached := cached, walkCache := walkCache, recalled := recalled
      colst := colst, tenants := tenants, fqOver := held, watchQ := watchQ, mca := mca, outbox := outbox } :=
  ⟨_, _, _, _, _, _, _, _, _, _, _, _, _, queuesKept_refl _, rfl⟩

theorem tracesOnly_refl (s : State) : tracesOnly s s := tracesOnly_update ..

theorem tracesOnly_trans {s t u : State} (h : tracesOnly s t) (h' : tracesOnly t u) : tracesOnly s u := by
  obtain ⟨_, _, _, _, _, _, _, _, _, _, _, _, _, hq, rfl⟩ := h
  obtain ⟨_, _, _, _, _, _, _, _, _, _, _, _, _, hq', rfl⟩ := h'
  exact ⟨_, _, _, _, _, _, _, _, _, _, _, _, _, queuesKept_trans hq hq', rfl⟩

theorem tracesOnly_foldl {β : Type} (l : List β) (f : State → β → State) (hf : ∀ s x, tracesOnly s (f s x)) (s : State) :
    tracesOnly s (l.foldl f s) :=
  List.foldlRecOn l f (tracesOnly_refl s) fun _ h x _ => tracesOnly_trans h (hf _ x)

theorem tracesOnly_ite {s t u : State} {p : Prop} [Decidable p] (ht : tracesOnly s t) (hu : tracesOnly s u) :
    tracesOnly s (if p then t else u) := by
  split
  · exact ht
  · exact hu

theorem logsOnly.traces {s t : State} (h : logsOnly s t) : tracesOnly s t := by
  obtain ⟨_, _, _, rfl⟩ := h
  exact tracesOnly_update ..

/-! ### Errors found, lines cached, granules written -/

theorem State.poisonAt_traces (s : State) (pa : Nat) : tracesOnly s (s.poisonAt pa) := by
  unfold State.poisonAt
  split <;> exact tracesOnly_update ..

theorem State.logError_traces (s : State) (b sev code : Nat) (psn : Bool) (ak loc : Nat) (org : Option Nat) (pl : Nat) :
    tracesOnly s (s.logError b sev code psn ak loc org pl) := (s.logError_only ..).traces

theorem State.found_traces (s : State) (u : Upset) : tracesOnly s (s.found u) := by
  unfold State.found
  split
  · exact tracesOnly_trans (s.poisonAt_traces _) (State.logError_traces ..)
  · exact State.logError_traces ..
  · exact tracesOnly_trans (tracesOnly_update ..) (State.logError_traces ..)
  · exact State.logError_traces ..
  · exact tracesOnly_refl s

theorem State.findAt_traces (s : State) (p : Site → Bool) : tracesOnly s (s.findAt p).1 :=
  tracesOnly_trans (tracesOnly_update ..) (tracesOnly_foldl _ _ State.found_traces _)

theorem State.fillLine_traces (s : State) (pa : Nat) (dirty : Bool) : tracesOnly s (s.fillLine pa dirty) := by
  unfold State.fillLine
  dsimp only
  split
  · exact tracesOnly_update ..
  · split
    · exact tracesOnly_trans (s.findAt_traces _) (tracesOnly_update ..)
    · exact tracesOnly_update ..

theorem State.visit_traces (s : State) (pa : Nat) (wr alloc : Bool) : tracesOnly s (s.visit pa wr alloc).1 := by
  have hf : tracesOnly s (s.findUpset pa).1 := s.findAt_traces _
  unfold State.visit
  dsimp only
  split
  · exact hf
  · split
    · exact tracesOnly_trans hf (tracesOnly_update ..)
    · split
      · exact tracesOnly_trans hf (tracesOnly_trans (State.findAt_traces _ _) (State.fillLine_traces _ _ _))
      · exact hf

theorem State.writeG_traces (s : State) (g : Granule) : tracesOnly s (s.writeG g) := by
  unfold State.writeG
  split <;> exact tracesOnly_update ..

theorem State.store_traces (s : State) (g : Granule) (alloc : Bool) : tracesOnly s (s.store g alloc) := by
  unfold State.store
  dsimp only
  refine tracesOnly_trans (tracesOnly_trans ?_ (State.visit_traces _ _ _ _)) (State.writeG_traces _ _)
  exact tracesOnly_ite (tracesOnly_update ..) (tracesOnly_refl s)

theorem State.setByte_traces (s : State) (a : Nat) (b : Byte) : tracesOnly s (s.setByte a b) :=
  (tracesOnly_update ..)

/-- A write that is reported to the processors lets the tail word be read again and a WAITV compare again. -/
theorem State.reportIf_traces (s : State) (hit : Nat → Bool) : tracesOnly s (s.reportIf hit) := by
  refine ⟨_, _, _, _, _, _, _, _, _, _, _, _, _, fun y hy => ?_, rfl⟩
  obtain ⟨x, hx, rfl⟩ := List.mem_map.mp hy
  refine ⟨x, hx, rfl, rfl, rfl, fun e he => ?_⟩
  obtain ⟨c, hc, rfl⟩ := List.mem_map.mp he
  refine ⟨c, hc, ?_⟩
  dsimp only
  split <;> exact ⟨rfl, rfl, rfl⟩

theorem State.report_traces (s : State) (pa : Nat) : tracesOnly s (s.report pa) := s.reportIf_traces _

theorem State.noteHome_traces (s : State) (pa n : Nat) (wr : Bool) (tid kind agent : Nat) :
    tracesOnly s (s.noteHome pa n wr tid kind agent) := tracesOnly_update ..

theorem State.send_traces (s : State) (m : Message) : tracesOnly s (s.send m) :=
  (tracesOnly_update ..)

theorem State.recall_traces (s : State) (pa : Nat) (m : Message) : tracesOnly s (s.recall pa m) :=
  (tracesOnly_update ..)

/-! ### Translations of the command processors and of HD0, which have no TLB -/

theorem State.markEntry_leaves (s : State) (tid entry : Nat) (wr : Bool) : tracesOnly s (s.markEntry tid entry wr) := by
  unfold State.markEntry
  exact tracesOnly_trans (s.visit_traces ..) (tracesOnly_trans (State.setByte_traces _ _ _)
    (tracesOnly_trans (State.report_traces _ _) (State.noteHome_traces ..)))

theorem State.walked_leaves (s : State) (clu : Option Nat) (tid va : Nat) : tracesOnly s (s.walked clu tid va) := by
  unfold State.walked
  refine tracesOnly_foldl _ _ (fun s x => ?_) s
  have hv := tracesOnly_trans (s.visit_traces x.1 false true) (State.noteHome_traces _ x.1 8 false tid 2 (hubOf x.1))
  dsimp only
  split
  · exact tracesOnly_trans hv (tracesOnly_update ..)
  · exact hv

theorem State.walkInstall_none (s : State) (tid va : Nat) (wr : Bool) : tracesOnly s (s.walkInstall none tid va wr).1 := by
  unfold State.walkInstall
  dsimp only
  split
  · change tracesOnly s (s.walked none tid va)
    exact s.walked_leaves ..
  · exact tracesOnly_trans (s.walked_leaves none tid va) (State.markEntry_leaves ..)

theorem State.translate_none (s : State) (tid : Nat) (l : Option Launch) (va : Nat) (acc : Access) :
    tracesOnly s (s.translate none tid l va acc).1 := by
  have hw := s.walkInstall_none tid va (acc.wr && s.mayWrite none tid va acc)
  unfold State.translate
  dsimp only
  split
  · exact tracesOnly_refl s
  · split
    · exact tracesOnly_refl s
    · split
      · exact tracesOnly_refl s
      · split <;> next h => rw [h] at hw; exact hw

/-! ### Records (18 R418) -/

theorem State.ringWrite_traces (s t : State) (r : FqRec) (h : s.ringWrite r = some t) : tracesOnly s t := by
  have hx := s.translate_none r.tid none
    ((NatMap.get .reset s.tenants r.tid).fqbase.toNat / 64 * 64 +
      64 * ((NatMap.get .reset s.tenants r.tid).fqtail % (NatMap.get .reset s.tenants r.tid).ringSize)) .write
  unfold State.ringWrite at h
  dsimp only at h
  split at h
  · cases h
  · split at h
    · next u pa leaf ht =>
      rw [ht] at hx
      split at h
      · cases h
      · refine tracesOnly_trans hx (tracesOnly_trans (tracesOnly_foldl (granules pa (r.words.flatMap fun w => valBytes w 8) false)
          (fun s g => ((s.store g true).report g.addr).noteHome g.addr 8 true r.tid 4 0) (fun s g => ?_) u) ?_)
        · exact tracesOnly_trans (s.store_traces _ _) (tracesOnly_trans (State.report_traces _ _) (State.noteHome_traces ..))
        · rw [← Option.some.inj h]
          have hsend (u : State) : tracesOnly u (if pa / spaceSize = 4 then u.send (.cxlRequest r.tid pa true) else u) :=
            tracesOnly_ite (u.send_traces _) (tracesOnly_refl u)
          refine tracesOnly_trans (hsend _) (tracesOnly_trans (tracesOnly_update ..)
            (tracesOnly_ite (State.send_traces _ _) (tracesOnly_refl _)))
    · cases h

theorem State.postRec_traces (s : State) (r : FqRec) (informs : Bool) : tracesOnly s (s.postRec r informs) := by
  unfold State.postRec
  dsimp only
  split
  · next t h =>
    split at h
    · cases h
    · exact s.ringWrite_traces t r h
  · split <;> exact tracesOnly_update ..

theorem State.post_traces (s : State) (tid type cause code addr src aux : Nat) (svc : List Word) :
    tracesOnly s (s.post tid type cause code addr src aux svc) := s.postRec_traces _ _

theorem State.watchHome_traces (s : State) (pa n : Nat) (wr : Bool) (tid kind agent : Nat) (val : Option Word) :
    tracesOnly s (s.watchHome pa n wr tid kind agent val) := tracesOnly_foldl _ _ (fun s r => s.postRec_traces r true) s

end Sys2Proof.Machine
end

section
/-! ## Stamps, prepares and publishing (03 R83 to R86, R97, R104, R105) -/

namespace Sys2Proof.Machine

open Sys2Proof Sys2Proof.Claims

/-! ### Tables -/

theorem NatMap.find?_map {α β : Type} (f : α → β) (m : NatMap α) (k : Nat) :
    NatMap.find? (m.map fun x => (x.1, f x.2)) k = (NatMap.find? m k).map f := by
  induction m with
  | nil => rfl
  | cons e t ih =>
    simp only [List.map_cons, NatMap.find?]
    split
    · rfl
    · exact ih

theorem NatMap.get_map {α β : Type} (f : α → β) (d : α) (m : NatMap α) (k : Nat) :
    NatMap.get (f d) (m.map fun x => (x.1, f x.2)) k = f (NatMap.get d m k) := by
  unfold NatMap.get
  rw [NatMap.find?_map]
  cases NatMap.find? m k <;> rfl

/-! ### Lines (03 R80, R81) -/

theorem State.lineEntry_setLine (s : State) (l k : Nat) (e : LineEntry) :
    (s.setLine l e).lineEntry k = if k = l then e else s.lineEntry k := by
  unfold State.lineEntry State.setLine
  rw [NatMap.find?_put]
  split <;> rfl

/-- Where no error waits, a line that passes through its hub's cache leaves traces there only. -/
theorem State.visitLine_cached (s : State) (l : Nat) (wr alloc : Bool) (hu : s.upsets = []) :
    ∃ c, s.visitLine l wr alloc = { s with cached := c } := by
  refine List.foldlRecOn (motive := fun t : State => ∃ c, t = { s with cached := c }) _ _ ⟨s.cached, rfl⟩ ?_
  rintro t ⟨c, rfl⟩ i -
  obtain ⟨c', hv⟩ := State.visit_cached { s with cached := c } (128 * l + 8 * i) wr alloc hu
  exact ⟨c', hv⟩

/-- A version that is superseded moves to a record, unless it has the new stamp. -/
theorem State.supersede_older (s : State) (l k : Nat) (h : (s.lineEntry l).stamp ≠ k) :
    s.supersede l k = s.setLine l { s.lineEntry l with
      stamp := k, chain := ⟨(s.lineEntry l).stamp, (s.lineImage l).1, (s.lineImage l).2⟩ :: (s.lineEntry l).chain } := by
  unfold State.supersede
  exact if_neg fun hk => h hk.1

theorem State.lineImage_congr {s t : State} (hm : t.mem = s.mem) (hp : t.memPoison = s.memPoison) (l : Nat) :
    t.lineImage l = s.lineImage l := by
  simp only [State.lineImage, State.bytes, State.byte, hm, hp]

theorem State.writeG_mem_congr {s t : State} (h : t.mem = s.mem) (g : Granule) : (t.writeG g).mem = (s.writeG g).mem := by
  unfold State.writeG
  split
  · exact h
  · simp only [h]

/-- A granule stored is a granule written. -/
theorem State.store_mem (s : State) (g : Granule) (alloc : Bool) : (s.store g alloc).mem = (s.writeG g).mem := by
  unfold State.store
  dsimp only
  refine State.writeG_mem_congr ?_ g
  rw [(State.visit_frame _ _ _ _).2.1]
  split <;> rfl

theorem tracesOnly.dir {s t : State} (h : tracesOnly s t) : t.dir = s.dir := by
  obtain ⟨_, _, _, _, _, _, _, _, _, _, _, _, _, _, rfl⟩ := h
  rfl

theorem tracesOnly.lineEntry {s t : State} (h : tracesOnly s t) (l : Nat) : t.lineEntry l = s.lineEntry l := by
  rw [State.lineEntry, State.lineEntry, h.dir]

theorem logsOnly.mem {s t : State} (h : logsOnly s t) : t.mem = s.mem := by
  obtain ⟨_, _, _, rfl⟩ := h
  rfl

/-! ### A plain write at its stamp (03 R97) -/

/-- A line with a new version in place, written at `k`; the version before is a record. -/
def LineEntry.superseded (e : LineEntry) (k : Nat) (v : BitVec 1024 × BitVec 16) : LineEntry :=
  { e with stamp := k, chain := ⟨e.stamp, v.1, v.2⟩ :: e.chain }

/-- `s` with a line's version in place superseded at `k`. -/
def State.versioned (s : State) (l k : Nat) : State :=
  { s with dir := NatMap.put s.dir l ((s.lineEntry l).superseded k (s.lineImage l)) }

/-- A plain write of one granule of a line: the version before is kept, the granule is written, and traces are left. -/
theorem State.commitLine_single (s : State) (l k : Nat) (g : Granule) (alloc : Bool) (hu : s.upsets = [])
    (he : (s.lineEntry l).stamp ≠ k) :
    tracesOnly (s.versioned l k) (s.commitLine l k [g] alloc) ∧ (s.commitLine l k [g] alloc).mem = (s.writeG g).mem := by
  obtain ⟨c, hc⟩ := s.visitLine_cached l true alloc hu
  have hsup : (s.visitLine l true alloc).supersede l k = { s.versioned l k with cached := c } := by
    rw [hc]; exact State.supersede_older _ _ _ he
  have hpress (t : State) := (t.updatePress_only (hubOf (128 * l)))
  unfold State.commitLine
  rw [hsup]
  simp only [List.foldl_cons, List.foldl_nil]
  refine ⟨tracesOnly_trans (tracesOnly_update ..) (tracesOnly_trans (State.store_traces _ g alloc)
    (tracesOnly_trans (State.report_traces _ _) (hpress _).traces)), ?_⟩
  refine (hpress _).mem.trans ((State.store_mem _ g alloc).trans ?_)
  exact State.writeG_mem_congr (show ({ s.versioned l k with cached := c } : State).mem = s.mem from rfl) g

/-! ### PCLK brought up (03 R83, R86) -/

/-- A store whose stamp PCLK at `p` has not reached. -/
def StoreEntry.awaits (p : Nat) (e : StoreEntry) : Bool := match e.sent with
  | .stamped k => decide (p < k)
  | _ => true

/-- A context without the stores whose stamps PCLK at `p` has reached. -/
def Context.trimmed (p : Nat) (c : Context) : Context :=
  { c with q := { c.q with sq := c.q.sq.filter (StoreEntry.awaits p), csq := c.q.csq.filter (StoreEntry.awaits p) } }

/-- PCLK where the stamps still to be published let it stand. -/
def State.reached (s : State) : Nat := max s.pclk ((s.unpublished.foldl min (s.cclk + 1)) - 1)

/-- The stores whose stamps PCLK reaches gone from their queues. -/
def State.trimmed (s : State) : State :=
  { s with
    pclk := s.reached, ctx := s.ctx.trimmed s.reached, ctxs := s.ctxs.map fun x => (x.1, x.2.trimmed s.reached)
    launches := s.launches.map fun x => (x.1, { x.2 with images := x.2.images.map fun y => (y.1, y.2.trimmed s.reached) }) }

theorem State.getCtx_trimmed (s : State) (j : Nat) (hj : j < 4096) : s.trimmed.getCtx j = (s.getCtx j).trimmed s.reached := by
  have h4 : ¬ 4096 ≤ j := by omega
  unfold State.trimmed State.getCtx
  dsimp only
  by_cases hc : j = s.cur
  · rw [if_pos hc, if_pos hc]
  · rw [if_neg hc, if_neg hc, if_neg h4, if_neg h4]
    exact NatMap.get_map (Context.trimmed s.reached) Context.reset s.ctxs j

/-- With no transaction in the table, bringing PCLK up lets stores go and no more. -/
theorem State.advance_none (s : State) (h : s.txs = []) : s.advance = s.trimmed := by
  unfold State.advance State.trimmed Context.trimmed StoreEntry.awaits State.reached
  dsimp only
  rw [h]
  rfl

/-- The only transaction is answered once PCLK has reached its stamp. -/
theorem State.advance_single (s : State) (n cid tid st k land : Nat) (dm : Option Nat) (l : List Nat)
    (h : s.txs = [(n, ⟨cid, tid, st, dm, .stamped land k l⟩)]) (hk : k ≤ s.reached) :
    s.advance = s.trimmed.endTx n cid land 0 k true := by
  unfold State.reached at hk
  unfold State.advance State.trimmed Context.trimmed StoreEntry.awaits State.reached
  dsimp only
  rw [h]
  exact if_pos hk

/-! ### The end of a transaction, answered (03 R107) -/

/-- A landing entry that has its answer. -/
def Landing.answeredBy (id : Nat) (a : Answer) (l : Landing) : Landing := if l.id = id then { l with answer := a } else l

/-- What a transaction that has ended leaves: its number is free, its records are gone, and no byte has changed. -/
theorem State.endTx_only (s : State) (n cid land cause word : Nat) (ok : Bool) : ∃ c cs l, logsOnly
    { s with
      dir := s.dir.map fun x => (x.1, x.2.without n), txs := NatMap.del s.txs n
      copies := s.copies.map (CopyCmd.orphaned n), ctx := c, ctxs := cs, launches := l } (s.endTx n cid land cause word ok) := by
  obtain ⟨_, _, _, m, p, o, hu⟩ := s.unregister_only n cid
  obtain ⟨c, cs, l, ha⟩ := (s.unregister n cid).modCtx_only cid fun c => { c with q := { c.q with
    landing := c.q.landing.map (Landing.answeredBy land (.value (wd (cause + 256 * word)) ok)) } }
  refine ⟨c, cs, l, m, p, o, ?_⟩
  exact ha.trans (by rw [hu])

theorem State.endTx_answers (s : State) (n cid land cause word : Nat) (ok : Bool) (h : cid < 4096) :
    ((s.endTx n cid land cause word ok).getCtx cid).q.landing =
      (s.getCtx cid).q.landing.map (Landing.answeredBy land (.value (wd (cause + 256 * word)) ok)) := by
  unfold State.endTx State.answer
  rw [State.getCtx_modCtx _ _ _ _ (.inl h), if_pos rfl, State.getCtx_unregister _ _ _ _ (.inl h), if_pos rfl]
  rfl

theorem NatMap.find?_del_same {α : Type} (m : NatMap α) (k : Nat) : NatMap.find? (NatMap.del m k) k = none := by
  rw [NatMap.find?_del, if_pos rfl]

theorem State.lineEntry_without {s t : State} (n l : Nat) (h : t.dir = s.dir.map fun x => (x.1, x.2.without n)) :
    t.lineEntry l = (s.lineEntry l).without n := by
  unfold State.lineEntry
  rw [h, NatMap.find?_map]
  cases NatMap.find? s.dir l <;> rfl

/-! ### The next stamp (03 R84) -/

theorem State.readyGroup_nil (s : State) (h : s.autoQ = []) : s.readyGroup = [] := by
  unfold State.readyGroup
  rw [h]
  rfl

/-- The only write that waits is ready where its line is free and its record has room. -/
theorem State.readyGroup_store (s : State) (l cid id tid : Nat) (op : AutoOp) (al sy : Bool)
    (hq : s.autoQ = [⟨l, op, .store cid id, tid, al, sy⟩]) (hf : s.lineFree l = true) (hr : s.groupRoom [] l = true) :
    s.readyGroup = s.autoQ := by
  have hready : s.autoReady ⟨l, op, .store cid id, tid, al, sy⟩ = true := by
    unfold State.autoReady
    rw [hf]
    rfl
  unfold State.readyGroup
  rw [hq, List.foldl_cons, List.foldl_nil, if_neg (by simp [State.autoWhole]), hready, if_pos]
  · rfl
  · exact hr

/-- With nothing voted and no write waiting the clock stands. -/
theorem State.stampIssue_idle (s : State) (hh : s.halted = false) (hv : s.txs.all (fun x => !s.voted x.1) = true)
    (hq : s.autoQ = []) : execStampIssue s = .next s := by
  have hfind : (s.txs.map Prod.fst).find? s.voted = none := by
    refine List.find?_eq_none.mpr fun n hn => ?_
    obtain ⟨x, hx, rfl⟩ := List.mem_map.mp hn
    simpa using List.all_eq_true.mp hv x hx
  simp only [execStampIssue, hfind, hh, hq, s.readyGroup_nil hq, List.foldl_nil, List.isEmpty_nil, if_true, ite_self,
    Bool.false_eq_true]

/-- Before the clock's end a voted transaction gets the next stamp where no write is ready. -/
theorem State.stampIssue_voted (s : State) (n : Nat) (hh : s.halted = false) (hc : s.cclk ≠ clockEnd)
    (hv : (s.txs.map Prod.fst).find? s.voted = some n) (hq : s.autoQ = []) :
    execStampIssue s = .next (State.stampTx { s with turn := false } n) := by
  simp only [execStampIssue, hv, hh, hc, s.readyGroup_nil hq, List.isEmpty_nil, Bool.true_or, if_true, Bool.false_eq_true,
    if_false]

/-- Before the clock's end the group that is ready gets the next stamp where no transaction is. -/
theorem State.stampIssue_group (s : State) (hh : s.halted = false) (hc : s.cclk ≠ clockEnd) (ht : s.txs = [])
    (hg : s.readyGroup ≠ []) : execStampIssue s = .next (State.stampGroup { s with turn := true } s.readyGroup) := by
  have he : s.readyGroup.isEmpty = false := List.isEmpty_eq_false_iff.mpr hg
  simp only [execStampIssue, ht, List.map_nil, List.find?_nil, hh, hc, he, Bool.false_eq_true, if_false]

theorem State.takeStamp_eq (s : State) (h : s.cclk + 1 ≠ 0xFFFFFF00000001) : s.takeStamp = { s with cclk := s.cclk + 1 } :=
  if_neg h

/-- The stamped transaction still has to be published. -/
theorem State.stampTx_committing (s : State) (n cid tid st land : Nat) (dm : Option Nat) (yes waits : List Nat)
    (h : NatMap.find? s.txs n = some ⟨cid, tid, st, dm, .committing land yes waits⟩) (hc : s.cclk ≠ clockEnd)
    (hr : s.cclk + 1 ≠ 0xFFFFFF00000001) : s.stampTx n = { s with
      cclk := s.cclk + 1, txs := NatMap.put s.txs n ⟨cid, tid, st, dm, .stamped land (s.cclk + 1) []⟩
      unpublished := s.unpublished ++ [s.cclk + 1] } := by
  unfold State.stampTx
  rw [h]
  simp only [hc, if_false, s.takeStamp_eq hr]

/-! ### A group of one plain write (03 R84, R86, R97) -/

/-- A store that has its stamp. -/
def StoreEntry.stampedAt (id k : Nat) (x : StoreEntry) : StoreEntry := if x.id = id then { x with sent := .stamped k } else x

/-- A context with one of its stores stamped. -/
def Context.stampedAt (id k : Nat) (c : Context) : Context :=
  { c with q := { c.q with sq := c.q.sq.map (StoreEntry.stampedAt id k), csq := c.q.csq.map (StoreEntry.stampedAt id k) } }

/-- No store with the number of one that has a stamp is left once PCLK has reached it. -/
theorem Context.trimmed_stampedAt (c : Context) (id k p : Nat) (hk : k ≤ p) :
    ∀ x ∈ ((c.stampedAt id k).trimmed p).q.sq, x.id ≠ id := by
  intro x hx hid
  obtain ⟨hm, ha⟩ := List.mem_filter.mp hx
  obtain ⟨y, -, rfl⟩ := List.mem_map.mp hm
  unfold StoreEntry.stampedAt at ha hid
  split at ha
  · simp only [StoreEntry.awaits, decide_eq_true_eq] at ha
    omega
  · next hne =>
    rw [if_neg hne] at hid
    exact hne hid

/-- A group of one write is made from the state that has its stamp. -/
theorem State.stampGroup_single {s u : State} (w : AutoWrite) (h : s.takeStamp = u) (hq : u.autoQ = [w]) :
    s.stampGroup [w] = (State.ownAuto (State.applyAuto { u with autoQ := [] } u.cclk w).1 u.cclk w
      (State.applyAuto { u with autoQ := [] } u.cclk w).2).advance := by
  subst h
  have he : s.takeStamp.autoQ.erase w = [] := by rw [hq, List.erase_cons_head]
  have hrun (q : List AutoWrite) (h : s.takeStamp.autoQ.erase w = q) :
      s.stampGroup [w] = (State.ownAuto (State.applyAuto { s.takeStamp with autoQ := q } s.takeStamp.cclk w).1 s.takeStamp.cclk w
        (State.applyAuto { s.takeStamp with autoQ := q } s.takeStamp.cclk w).2).advance := by
    subst h
    rfl
  exact hrun [] he

theorem State.ownAuto_store (s : State) (c l cid id tid : Nat) (op : AutoOp) (al sy : Bool) (e : AutoEnd) :
    s.ownAuto c ⟨l, op, .store cid id, tid, al, sy⟩ e = s.modCtx cid (Context.stampedAt id c) := rfl

/-- A plain write of a group writes its line, and where nothing is watched no more. -/
theorem State.applyAuto_write {s u : State} (c l tid : Nat) (ws : List Granule) (src : AutoFor) (al sy : Bool)
    (hc : s.commitLine l c ws al = u) (hw : unwatched u) :
    (s.applyAuto c ⟨l, .write ws, src, tid, al, sy⟩).1 = u := by
  subst hc
  have hf (l : List Granule) (t : State) (a : Nat × Nat) (ht : unwatched t) :
      l.foldl (fun s g => s.watchHome g.addr 8 true tid a.1 a.2) t = t := by
    induction l with
    | nil => rfl
    | cons g l ih => rw [List.foldl_cons, t.watchHome_unwatched _ _ _ _ _ _ _ ht, ih]
  exact hf _ _ _ hw

theorem tracesOnly.unwatched {s t : State} (h : tracesOnly s t) (hw : unwatched s) : unwatched t := by
  obtain ⟨_, _, _, _, _, _, _, _, _, _, _, _, _, _, rfl⟩ := h
  exact hw

theorem tracesOnly.txs {s t : State} (h : tracesOnly s t) : t.txs = s.txs := by
  obtain ⟨_, _, _, _, _, _, _, _, _, _, _, _, _, _, rfl⟩ := h
  rfl

theorem State.modCtx_txs (s : State) (i : Nat) (f : Context → Context) : (s.modCtx i f).txs = s.txs := by
  obtain ⟨_, _, _, h⟩ := s.modCtx_only i f
  rw [h]

/-- The write at its stamp, its store marked, PCLK brought up. -/
theorem State.stampGroup_store (s : State) (l k cid id tid : Nat) (g : Granule) (al sy : Bool)
    (hq : s.autoQ = [⟨l, .write [g], .store cid id, tid, al, sy⟩]) (hw : unwatched s) (hu : s.upsets = []) (ht : s.txs = [])
    (hr : s.takeStamp = { s with cclk := k }) (he : (s.lineEntry l).stamp ≠ k) :
    ∃ u, tracesOnly (State.versioned { s with cclk := k, autoQ := [] } l k) u ∧
      u.mem = (s.writeG g).mem ∧
      s.stampGroup s.autoQ = (u.modCtx cid (Context.stampedAt id k)).trimmed := by
  obtain ⟨htr, hmem⟩ := State.commitLine_single { s with cclk := k, autoQ := [] } l k g al hu he
  refine ⟨_, htr, hmem.trans ?_, ?_⟩
  · exact State.writeG_mem_congr (show ({ s with cclk := k, autoQ := [] } : State).mem = s.mem from rfl) g
  · rw [hq, State.stampGroup_single _ hr hq, State.ownAuto_store, State.applyAuto_write k l tid [g] _ al sy rfl (htr.unwatched hw),
      State.advance_none]
    rw [State.modCtx_txs, htr.txs]
    exact ht

end Sys2Proof.Machine
end

section
/-! ## The clock, prepares and publishing: the statements (03 R83 to R86, R97, R104, R105) -/

namespace Sys2Proof.Machine

open Sys2Proof Sys2Proof.Claims

theorem State.modCtx_dir (s : State) (i : Nat) (f : Context → Context) : (s.modCtx i f).dir = s.dir := by
  obtain ⟨_, _, _, h⟩ := s.modCtx_only i f
  rw [h]

/-- What the write at its stamp leaves: its store is gone, the version before is a record, its bytes are written. -/
theorem State.stampGroup_written (s : State) (l k cid id tid : Nat) (g : Granule) (v : Word) (al sy : Bool) (hcid : cid < 4096)
    (hu : s.upsets = []) (hw : unwatched s) (ht : s.txs = [])
    (hq : s.autoQ = [⟨l, .write [g], .store cid id, tid, al, sy⟩]) (hk : s.takeStamp = { s with cclk := k })
    (hg : g.data = some v) (he : (s.lineEntry l).stamp < k) (hp : s.unpublished = []) :
    let t := s.stampGroup s.autoQ
    t.cclk = k ∧ t.pclk = max s.pclk k ∧ t.autoQ = [] ∧
      (∀ x ∈ (t.getCtx cid).q.sq, x.id ≠ id) ∧ (t.lineEntry l).stamp = k ∧
      (t.lineEntry l).chain = ⟨(s.lineEntry l).stamp, (s.lineImage l).1, (s.lineImage l).2⟩ :: (s.lineEntry l).chain ∧
      (∀ i, i < 8 → t.byte (g.addr + i) = if g.mask.getLsbD i then byteOf v i else s.byte (g.addr + i)) ∧
      (∀ a, a < g.addr ∨ g.addr + 8 ≤ a → t.byte a = s.byte a) := by
  obtain ⟨u, htr, hmem, hrun⟩ := s.stampGroup_store l k cid id tid g al sy hq hw hu ht hk he.ne
  obtain ⟨c, cs, ls, hm⟩ := u.modCtx_only cid (Context.stampedAt id k)
  have hctx := u.getCtx_modCtx cid cid (Context.stampedAt id k) (.inl hcid)
  rw [if_pos rfl] at hctx
  have hline : u.lineEntry l = (s.lineEntry l).superseded k (s.lineImage l) :=
    (htr.lineEntry l).trans ((State.lineEntry_setLine _ _ _ _).trans (if_pos rfl))
  have hentry : (u.modCtx cid (Context.stampedAt id k)).trimmed.lineEntry l = u.lineEntry l := by rw [hm]; rfl
  have hbyte (a : Nat) : (u.modCtx cid (Context.stampedAt id k)).trimmed.byte a = (s.writeG g).byte a := by
    rw [hm, State.byte, State.byte, ← hmem]; rfl
  have hreach : (u.modCtx cid (Context.stampedAt id k)).reached = max s.pclk k := by
    rw [hm]
    obtain ⟨_, _, _, _, _, _, _, _, _, _, _, _, _, _, rfl⟩ := htr
    change max s.pclk (s.unpublished.foldl min (k + 1) - 1) = _
    rw [hp]
    rfl
  dsimp only
  rw [hrun, hentry, hline]
  refine ⟨?_, hreach, ?_, ?_, rfl, rfl, fun i hi => ?_, fun a ha => ?_⟩
  · rw [hm]
    obtain ⟨_, _, _, _, _, _, _, _, _, _, _, _, _, _, rfl⟩ := htr
    rfl
  · rw [hm]
    obtain ⟨_, _, _, _, _, _, _, _, _, _, _, _, _, _, rfl⟩ := htr
    rfl
  · rw [State.getCtx_trimmed _ _ hcid, hctx, hreach]
    exact Context.trimmed_stampedAt _ _ _ _ (Nat.le_max_right _ _)
  · rw [hbyte, s.byte_writeG g v i hg hi]
  · rw [hbyte, s.byte_writeG_other g a ha]

/-- Before the clock's end the only write that waits takes the next stamp where its line is free and its record has room. -/
theorem State.stampIssue_store (s : State) (l cid id tid : Nat) (op : AutoOp) (al sy : Bool) (hh : s.halted = false)
    (ht : s.txs = []) (hq : s.autoQ = [⟨l, op, .store cid id, tid, al, sy⟩]) (hf : s.lineFree l = true)
    (hr : s.groupRoom [] l = true) (hc : s.cclk ≠ clockEnd) :
    execStampIssue s = .next (State.stampGroup { s with turn := true } s.autoQ) := by
  have hgroup := s.readyGroup_store l cid id tid op al sy hq hf hr
  rw [s.stampIssue_group hh hc ht (by rw [hgroup, hq]; exact List.cons_ne_nil _ _), hgroup]

/-! ### The clock's end (03 R85) -/

/-- At the clock's end the only write that waits is refused. -/
theorem State.stampIssue_refuses (s : State) (w : AutoWrite) (hh : s.halted = false) (hc : s.cclk = clockEnd) (ht : s.txs = [])
    (hq : s.autoQ = [w]) : execStampIssue s = .next (s.refuseAuto w) := by
  simp only [execStampIssue, ht, hh, hc, hq, List.map_nil, List.find?_nil, List.foldl_cons, List.foldl_nil,
    List.contains_cons, beq_self_eq_true, Bool.true_or, if_true, Bool.false_eq_true, if_false]

/-- A store that was on its way and is refused. -/
def StoreEntry.sentBack (id : Nat) (x : StoreEntry) : StoreEntry := if x.id = id then { x with sent := .no } else x

/-- A store's write that is refused leaves its store unsent and nothing else behind. -/
theorem State.refuseAuto_store (s : State) (w : AutoWrite) (cid id : Nat) (hcid : cid < 4096) (hq : s.autoQ = [w])
    (hw : w.src = .store cid id) : let t := s.refuseAuto w
    t.cclk = s.cclk ∧ t.autoQ = [] ∧ t.mem = s.mem ∧ t.dir = s.dir ∧
      (t.getCtx cid).q.sq = (s.getCtx cid).q.sq.map (StoreEntry.sentBack id) := by
  have he : s.autoQ.erase w = [] := by rw [hq, List.erase_cons_head]
  have hrun : s.refuseAuto w = State.modCtx { s with autoQ := [] } cid fun x => { x with q := { x.q with
      sq := x.q.sq.map (StoreEntry.sentBack id), csq := x.q.csq.map (StoreEntry.sentBack id) } } := by
    unfold State.refuseAuto
    dsimp only
    rw [hw, he]
    rfl
  have hctx := State.getCtx_modCtx { s with autoQ := [] } cid cid (fun x => { x with q := { x.q with
      sq := x.q.sq.map (StoreEntry.sentBack id), csq := x.q.csq.map (StoreEntry.sentBack id) } }) (.inl hcid)
  rw [if_pos rfl] at hctx
  obtain ⟨c, cs, ls, hm⟩ := State.modCtx_only { s with autoQ := [] } cid fun x => { x with q := { x.q with
      sq := x.q.sq.map (StoreEntry.sentBack id), csq := x.q.csq.map (StoreEntry.sentBack id) } }
  dsimp only
  rw [hrun, hctx, hm]
  exact ⟨rfl, rfl, rfl, rfl, rfl⟩

/-- A store of a versioned page at the head of its queue faults at the clock's end. -/
theorem State.storePerform_clockEnd (s : State) (x : StoreEntry) (g : Granule) (leaf : Word) (pa : Nat) (rest : List StoreEntry)
    (hc : s.cclk = clockEnd) (hq : s.ctx.q.sq = x :: rest) (ha : s.arg.a = x.id) (hb : s.arg.b = 0)
    (hk : x.kind = .store [g] none) (hl : x.local_ = false) (htx : x.tx = none) (hecc : s.core.ecc = false)
    (hr : s.storeReady x = true) (ht : s.translateCtx g.addr .write = (s, .ok pa leaf)) (hp : leafPeer leaf = 0)
    (hv : leafVer leaf = true) : execStorePerform s = .next (s.storeFaulted x 0x09 5 g.addr) := by
  have hfind : s.ctx.q.sq.find? (fun e => e.id == s.arg.a) = some x := by rw [hq, ha]; simp
  have hlong : s.longStore x [g] s.stopAt = s.storeFaulted x 0x09 5 g.addr := by
    unfold State.longStore
    simp only [List.head?_cons, Option.map_some, Option.getD_some, ht, hp, hv, htx, Context.txNow, hc, ne_eq, not_true_eq_false,
      if_false, if_true]
  have hact : s.act x s.stopAt s.pickOf = s.storeFaulted x 0x09 5 g.addr := by
    unfold State.act
    simp only [hr, hecc, hk, hl, hlong, Bool.not_true, Bool.or_self, Bool.false_eq_true, if_false, List.isEmpty_cons]
  unfold execStorePerform
  simp only [hb, hfind, hk, hact, Nat.zero_ne_one, if_false, OfNat.zero_ne_ofNat]

/-- A fault of the store at the head takes the queue to the capture buffer and waits for the next boundary (01 R41). -/
theorem State.storeFaulted_head (s : State) (x : StoreEntry) (rest : List StoreEntry) (cause : BitVec 8) (code : BitVec 16)
    (va : Nat) (hq : s.ctx.q.sq = x :: rest) : s.storeFaulted x cause code va = { s with ctx := { s.ctx with
      q := { s.ctx.q with sq := [], csq := s.ctx.q.csq ++ s.ctx.q.sq }
      pend := s.ctx.pend ++ [⟨cause, code, x.bundle, va, x.handler⟩] } } := by
  have hh : s.ctx.q.sq.head? = some x := by rw [hq]; rfl
  unfold State.storeFaulted
  rw [hh]
  exact if_neg (not_not_intro rfl)

/-! ### A command whose update waits at the clock's end (01 R42, 03 R85) -/

theorem tracesOnly.copies {s t : State} (h : tracesOnly s t) : t.copies = s.copies := by
  obtain ⟨_, _, _, _, _, _, _, _, _, _, _, _, _, _, rfl⟩ := h
  rfl

theorem State.copyPost_traces (s : State) (c : CopyCmd) (type cause code addr aux : Nat) :
    tracesOnly s (s.copyPost c type cause code addr aux) := tracesOnly_ite (tracesOnly_refl s) (State.post_traces ..)

theorem State.copyOf_modCopy (s : State) (k : Nat) (f : CopyCmd → CopyCmd) (c : CopyCmd) (h : s.copyOf k = some c)
    (hf : ∀ c, (f c).ident = c.ident) : (s.modCopy k f).copyOf k = some (f c) := by
  have hcomp : (fun c : CopyCmd => c.ident == k) ∘ (fun c => if c.ident = k then f c else c) = fun c => c.ident == k := by
    funext c
    by_cases hc : c.ident = k <;> simp [hc, hf]
  have hid : c.ident = k := by simpa using List.find?_some h
  unfold State.copyOf State.modCopy at *
  rw [List.find?_map, hcomp, h, Option.map_some, if_pos hid]

/-- A command of an engine stops where it stands, its waiting writes withdrawn, and its fault is posted. -/
theorem State.faultCopy_engine (s : State) (c : CopyCmd) (cause : BitVec 8) (code : BitVec 16) (va : Nat)
    (hc : s.copyOf c.ident = some c) (hi : c.ident < 8192) : let t := s.faultCopy c cause code va
    ∃ c', t.copyOf c.ident = some c' ∧ c'.st = .faulted cause code va ∧ t.cclk = s.cclk ∧ t.ctx = s.ctx ∧
      t.autoQ = (s.withdraw c.ident).autoQ := by
  have hfw : c.fw = false := decide_eq_false (Nat.not_le.mpr hi)
  have hst := State.copyOf_modCopy (s.withdraw c.ident) c.ident (fun x =>
    { x with st := .faulted cause code va, cursor := s.cursorOf c, ahead := [] }) c hc fun _ => rfl
  obtain ⟨_, _, _, _, _, _, _, _, _, _, _, _, _, _, hpost⟩ := State.copyPost_traces ((s.withdraw c.ident).modCopy c.ident fun x =>
    { x with st := .faulted cause code va, cursor := s.cursorOf c, ahead := [] }) c 2 cause.toNat code.toNat va (s.progressOf c)
  unfold State.faultCopy
  simp only [hfw, Bool.false_eq_true, if_false]
  rw [hpost]
  exact ⟨_, hst, rfl, rfl, rfl, rfl⟩

/-- At the clock's end a command whose update waits stops with the refusal of its write. -/
theorem State.refuseAuto_update (s : State) (w : AutoWrite) (i off left : Nat) (c : CopyCmd) (dst src len o ety : Nat)
    (hw : w.src = .copy i off left) (hc : s.copyOf i = some c) (hop : c.op = .cpacc dst src len o ety)
    (hst : c.st = .running) (hcolls : s.colls = []) : s.refuseAuto w = s.faultCopy c 0x09 5 (dst + off) := by
  simp only [State.refuseAuto, State.refuseOwn, hw, hc, hst, hop, hcolls, CopyOp.dstAt, List.any_nil, Bool.or_self,
    Bool.false_eq_true, if_false]

/-! ### Prepares (03 R104, R105) -/

section Prepare

variable {s : State} {n h l cid tid st land : Nat} {yes waits : List Nat} {d : BitVec 1024} {po : BitVec 16}
  (htx : NatMap.find? s.txs n = some ⟨cid, tid, st, none, .committing land yes waits⟩) (hy : h ∉ yes)
  (hl : s.txLines n h = [l]) (hrec : NatMap.find? (s.lineEntry l).recs n = some (.tentative d po))
  (hroom : s.recordOkReserve h 144 = true)

include htx hy hl

include hrec hroom in
/-- A hub whose one line of the transaction votes YES locks it, and its vote is counted. -/
theorem State.prepare_yes (hv : ∀ plain, s.lineVote n l plain = .yes) :
    s.prepare n h = { s.setLine l { s.lineEntry l with lock := some n } with
      txs := NatMap.put s.txs n ⟨cid, tid, st, none, .committing land (yes ++ [h]) (waits.filter (· != h))⟩ } := by
  unfold State.prepare
  simp [htx, hy, hl, hv, hroom, State.lockLines, hrec]

include hroom in
/-- A hub whose one line waits for an older lock is noted as waiting. -/
theorem State.prepare_wait (hv : ∀ plain, s.lineVote n l plain = .wait) (hw : h ∉ waits) :
    s.prepare n h = { s with
      txs := NatMap.put s.txs n ⟨cid, tid, st, none, .committing land yes (waits ++ [h])⟩ } := by
  unfold State.prepare
  simp [htx, hy, hl, hv, hroom, State.lockLines, hw]

/-- A hub whose one line votes NO ends the transaction. -/
theorem State.prepare_no (cause stamp : Nat) (hv : ∀ plain, s.lineVote n l plain = .no cause stamp) :
    s.prepare n h = s.endTx n cid land cause stamp false := by
  unfold State.prepare
  simp [htx, hy, hl, hv]

end Prepare

/-- The newest committed version of a line. -/
def LineEntry.newest (e : LineEntry) : Nat := max e.stamp (e.chain.foldl (fun m r => max m r.stamp) 0)

section Vote

variable {s : State} {n l cid tid st : Nat} {dm : Option Nat} {x : TxSt} {d : BitVec 1024} {po : BitVec 16}
  (htx : NatMap.find? s.txs n = some ⟨cid, tid, st, dm, x⟩)
  (hrec : NatMap.find? (s.lineEntry l).recs n = some (.tentative d po)) (plain : Bool)

include htx hrec

/-- A line that no other transaction has to do with votes YES where no version newer than the snapshot was committed. -/
theorem State.lineVote_yes (hlock : (s.lineEntry l).lock = none) (hm : (s.lineEntry l).merge = [])
    (hn : (s.lineEntry l).newest ≤ st) : s.lineVote n l plain = .yes := by
  unfold LineEntry.newest at hn
  simp only [State.lineVote, hrec, htx, hlock, hm, Nat.not_lt.mpr hn, List.any_nil, if_false, Bool.false_eq_true]

/-- A line that is free votes NO where a newer version was committed. -/
theorem State.lineVote_no (hlock : (s.lineEntry l).lock = none) (hn : st < (s.lineEntry l).newest) :
    s.lineVote n l plain = .no 1 (s.lineEntry l).newest := by
  unfold LineEntry.newest at *
  simp only [State.lineVote, hrec, htx, hlock, hn, if_true]

/-- An older transaction waits for a line's lock. -/
theorem State.lineVote_wait (u : Nat) (hlock : (s.lineEntry l).lock = some u) (hu : u ≠ n) (ho : s.older n u = true) :
    s.lineVote n l plain = .wait := by
  simp only [State.lineVote, hrec, htx, hlock, hu, State.lockVote, ho, if_true, if_false]

end Vote

/-! ### An image put in place -/

theorem NatMap.get_range_set {α : Type} [DecidableEq α] (d : α) (n key : Nat) (val : Nat → α) (m : NatMap α) (c : Nat) :
    NatMap.get d ((List.range n).foldl (fun m i => NatMap.set d m (key + i) (val i)) m) c =
      if key ≤ c ∧ c < key + n then val (c - key) else NatMap.get d m c := by
  induction n with
  | zero => rw [if_neg (by omega)]; rfl
  | succ n ih =>
    rw [List.range_succ, List.foldl_append, List.foldl_cons, List.foldl_nil, NatMap.get_set, ih]
    by_cases hc : c = key + n
    · rw [if_pos hc, if_pos (by omega), hc, Nat.add_sub_cancel_left]
    · have hiff : (key ≤ c ∧ c < key + n) ↔ (key ≤ c ∧ c < key + (n + 1)) := by omega
      rw [if_neg hc]
      exact if_congr hiff rfl rfl

theorem zip_range_self {α : Type} (l : List α) (d : α) :
    (List.range l.length).zip l = (List.range l.length).map fun i => (i, l.getD i d) := by
  refine List.ext_getElem (by simp) fun i h1 h2 => ?_
  have hi : i < l.length := by simpa using h2
  simp [List.getD, hi]

/-- Bytes written are read where they were written, and no other byte changes. -/
theorem State.byte_setBytes (s : State) (a : Nat) (l : List Byte) (c : Nat) :
    (s.setBytes a l).byte c = if a ≤ c ∧ c < a + l.length then l.getD (c - a) 0 else s.byte c := by
  unfold State.byte State.setBytes
  rw [zip_range_self l 0, List.foldl_map]
  exact NatMap.get_range_set 0 l.length a (fun i => l.getD i 0) s.mem c

/-- A value is its bytes put together. -/
theorem ofBytes_valBytes {w : Nat} (v : BitVec w) (n : Nat) (h : w = 8 * n) : ofBytes w (valBytes v n) = v := by
  refine BitVec.eq_of_getLsbD_eq fun i hi => ?_
  have hd : i / 8 < n := by omega
  rw [getLsbD_ofBytes]
  simp [valBytes, List.getD, hd, byteOf, hi, Nat.mod_lt, Nat.div_add_mod]

theorem getLsbD_oneBit (n j : Nat) (hn : n < 16) : (1#16 <<< n).getLsbD j = decide (j = n) := by
  have hz (i : Nat) : (1#16).getLsbD i = decide (i = 0) := by
    rw [BitVec.getLsbD_one]; simp
  rw [BitVec.getLsbD_shiftLeft, hz]
  rcases Nat.lt_trichotomy j n with h | rfl | h
  · simp [h, h.ne]
  · simp [hn]
  · simp [h.ne', Nat.not_lt.mpr h.le, Nat.sub_eq_zero_iff_le, h]

/-- The bits of a mask put together from its members. -/
theorem getLsbD_mask (f : Nat → Bool) (n j : Nat) (hn : n ≤ 16) :
    ((List.range n).foldl (fun (m : BitVec 16) k => if f k then m ||| (1#16 <<< k) else m) 0).getLsbD j =
      (decide (j < n) && f j) := by
  induction n with
  | zero => simp
  | succ n ih =>
    have hlt : decide (j < n + 1) = (decide (j < n) || decide (j = n)) := by
      rw [← Bool.decide_or]; exact decide_eq_decide.mpr Nat.lt_succ_iff_lt_or_eq
    rw [List.range_succ, List.foldl_append, List.foldl_cons, List.foldl_nil, hlt]
    cases hf : f n with
    | true =>
      rw [if_pos rfl, BitVec.getLsbD_or, ih (by omega), getLsbD_oneBit n j hn]
      by_cases hj : j = n
      · simp [hj, hf]
      · simp [hj]
    | false =>
      rw [if_neg Bool.false_ne_true, ih (by omega)]
      by_cases hj : j = n
      · simp [hj, hf]
      · simp [hj]

/-- The image of a line that was put in place. -/
theorem State.lineImage_setImage (s : State) (l : Nat) (d : BitVec 1024) (po : BitVec 16) :
    (s.setImage l d po).lineImage l = (d, po) := by
  have hbytes : (s.setImage l d po).bytes (128 * l) 128 = valBytes d 128 := by
    refine List.map_congr_left fun i hi => ?_
    have hi : i < 128 := List.mem_range.mp hi
    change (s.setBytes (128 * l) (valBytes d 128)).byte (128 * l + i) = _
    rw [State.byte_setBytes, if_pos (by simp [valBytes, hi]), Nat.add_sub_cancel_left]
    simp [valBytes, List.getD, hi]
  have hpois (k : Nat) (hk : k < 16) : NatMap.get false (s.setImage l d po).memPoison (16 * l + k) = po.getLsbD k := by
    refine (NatMap.get_range_set false 16 (16 * l) (fun k => po.getLsbD k) s.memPoison (16 * l + k)).trans ?_
    rw [if_pos (by omega), Nat.add_sub_cancel_left]
  refine Prod.ext ?_ (BitVec.eq_of_getLsbD_eq fun k hk => ?_)
  · exact (congrArg (ofBytes 1024) hbytes).trans (ofBytes_valBytes d 128 rfl)
  · refine (getLsbD_mask (fun k => NatMap.get false (s.setImage l d po).memPoison (16 * l + k)) 16 k le_rfl).trans ?_
    simp [hk, hpois k hk]

theorem State.byte_setImage (s : State) (l : Nat) (d : BitVec 1024) (po : BitVec 16) (a : Nat)
    (h : a < 128 * l ∨ 128 * l + 128 ≤ a) : (s.setImage l d po).byte a = s.byte a := by
  have hout : ¬ (128 * l ≤ a ∧ a < 128 * l + (valBytes d 128).length) := by
    rw [valBytes, List.length_map, List.length_range]
    omega
  change (s.setBytes (128 * l) (valBytes d 128)).byte a = _
  rw [State.byte_setBytes, if_neg hout]

/-! ### Publishing (03 R104) -/

theorem State.setImage_traces (s : State) (l : Nat) (d : BitVec 1024) (po : BitVec 16) : tracesOnly s (s.setImage l d po) :=
  tracesOnly_update ..

/-- `s` with line `l` published for transaction `n` at `k`, the image aside: the version before is a record, and nothing of the
transaction is left. -/
def State.published (s : State) (n l k : Nat) : State :=
  (s.versioned l k).setLine l (((s.lineEntry l).superseded k (s.lineImage l)).without n)

theorem State.byte_congr {s t : State} (h : t.mem = s.mem) (a : Nat) : t.byte a = s.byte a := by
  rw [State.byte, State.byte, h]

theorem State.byte_report (s : State) (pa a : Nat) : (s.report pa).byte a = s.byte a := rfl

theorem State.lineImage_report (s : State) (pa l : Nat) : (s.report pa).lineImage l = s.lineImage l :=
  State.lineImage_congr (s := s) (t := s.report pa) rfl rfl l

theorem tracesOnly.unpublished {s t : State} (h : tracesOnly s t) : t.unpublished = s.unpublished := by
  obtain ⟨_, _, _, _, _, _, _, _, _, _, _, _, _, _, rfl⟩ := h
  rfl

/-- A tentative version is published in place. -/
theorem State.publishLine_tentative (s : State) (n l k : Nat) (d : BitVec 1024) (po : BitVec 16) (hu : s.upsets = [])
    (hrec : NatMap.find? (s.lineEntry l).recs n = some (.tentative d po)) (he : (s.lineEntry l).stamp ≠ k) :
    let t := s.publishLine n l k
    tracesOnly (s.published n l k) t ∧ t.lineImage l = (d, po) ∧
      ∀ a, a < 128 * l ∨ 128 * l + 128 ≤ a → t.byte a = s.byte a := by
  obtain ⟨c, hc⟩ := s.visitLine_cached l true false hu
  have hsup : State.supersede { s with cached := c } l k = { s.versioned l k with cached := c } :=
    State.supersede_older _ _ _ he
  have hentry : State.lineEntry { s.versioned l k with cached := c } l = (s.lineEntry l).superseded k (s.lineImage l) :=
    (State.lineEntry_setLine s l l _).trans (if_pos rfl)
  have hrun : s.publishLine n l k = ((State.setLine { s.versioned l k with cached := c } l
      (((s.lineEntry l).superseded k (s.lineImage l)).without n)).setImage l d po).report (128 * l) := by
    unfold State.publishLine
    simp only [hrec, hc, hsup, hentry]
    rfl
  dsimp only
  rw [hrun]
  refine ⟨tracesOnly_trans ?_ (tracesOnly_trans (State.setImage_traces _ _ _ _) (State.report_traces _ _)), ?_, fun a ha => ?_⟩
  · exact tracesOnly_update ..
  · exact (State.lineImage_report _ _ l).trans (State.lineImage_setImage _ l d po)
  · rw [State.byte_report, State.byte_setImage _ l d po a ha]
    exact State.byte_congr (show _ = s.mem from rfl) a

/-- No line is left to a transaction whose only line has been published. -/
theorem State.writeSet_published (s : State) (n l k : Nat) (h : s.writeSet n = [l]) : (s.published n l k).writeSet n = [] := by
  have hdel (m : NatMap LineEntry) (x : Nat × LineEntry) (hx : x ∈ NatMap.del m l) : x ∈ m ∧ x.1 ≠ l := by
    obtain ⟨hm, hk⟩ := List.mem_filter.mp hx
    exact ⟨hm, by simpa using hk⟩
  have hnone (x : Nat × LineEntry) (hx : x ∈ (s.published n l k).dir) : NatMap.find? x.2.recs n = none := by
    rcases mem_ins hx with rfl | hx
    · exact NatMap.find?_del_same _ _
    · obtain ⟨hx, hne⟩ := hdel _ x hx
      rcases mem_ins hx with rfl | hx
      · exact absurd rfl hne
      · obtain ⟨hx, -⟩ := hdel _ x hx
        by_contra hsome
        have hin : x.1 ∈ s.writeSet n :=
          List.mem_map.mpr ⟨x, List.mem_filter.mpr ⟨hx, Option.isSome_iff_ne_none.mpr hsome⟩, rfl⟩
        rw [h] at hin
        exact hne (List.mem_singleton.mp hin)
  unfold State.writeSet
  rw [List.filter_eq_nil_iff.mpr fun x hx => by rw [hnone x hx]; exact Bool.false_ne_true]
  rfl

/-- The state a transaction's only line is published to, before PCLK is brought up. -/
theorem State.publish_single (s : State) (n h l cid tid st land k : Nat) (done : List Nat) (d : BitVec 1024) (po : BitVec 16)
    (hh : h = hubOf (128 * l)) (hw : s.writeSet n = [l])
    (htx : s.txs = [(n, ⟨cid, tid, st, none, .stamped land k done⟩)]) (hd : h ∉ done)
    (hrec : (s.lineEntry l).recs = [(n, .tentative d po)]) (ht : tracesOnly (s.published n l k) (s.publishLine n l k)) :
    s.publish n h = State.advance { s.publishLine n l k with
      txs := [(n, ⟨cid, tid, st, none, .stamped land k (done ++ [h])⟩)]
      unpublished := s.unpublished.filter (· != k) } := by
  have hfind : NatMap.find? s.txs n = some ⟨cid, tid, st, none, .stamped land k done⟩ := by
    rw [htx]; exact if_pos rfl
  have hlines : s.txLines n h = [l] := by
    unfold State.txLines
    rw [hw, hh]
    simp
  have hturn : s.lineTurn n l k = true := by
    unfold State.lineTurn
    rw [hrec]
    simp
  have hdone : done.contains h = false := by simpa using hd
  have hempty : (s.publishLine n l k).writeSet n = [] := by
    rw [State.writeSet, ht.dir]
    exact s.writeSet_published n l k hw
  have hput : NatMap.put (s.publishLine n l k).txs n ⟨cid, tid, st, none, .stamped land k (done ++ [h])⟩ =
      [(n, ⟨cid, tid, st, none, .stamped land k (done ++ [h])⟩)] := by
    rw [ht.txs]
    change NatMap.put s.txs n _ = _
    rw [htx]
    simp [NatMap.put, NatMap.del, NatMap.ins]
  have hunp : (s.publishLine n l k).unpublished = s.unpublished := ht.unpublished
  unfold State.publish
  simp only [hfind, hlines, hdone, hturn, List.all_cons, List.all_nil, List.foldl_cons, List.foldl_nil, hput, Bool.and_self,
    Bool.not_true, Bool.or_self, Bool.false_eq_true, if_false]
  rw [if_pos, hunp]
  rw [List.isEmpty_iff]
  exact hempty

end Sys2Proof.Machine
end

section
/-! ## The statement about stamps, prepares and publishing (03 R83 to R86, R97, R104, R105) -/

namespace Sys2Proof.Machine

open Sys2Proof Sys2Proof.Claims

/-- What the end of the only transaction leaves once PCLK has reached its stamp. -/
theorem State.advance_ends (s : State) (n cid tid st k land : Nat) (done : List Nat) (hcid : cid < 4096)
    (h : s.txs = [(n, ⟨cid, tid, st, none, .stamped land k done⟩)]) (hk : k ≤ s.reached) :
    let t := s.advance
    t.mem = s.mem ∧ t.memPoison = s.memPoison ∧ (∀ l, t.lineEntry l = (s.lineEntry l).without n) ∧
      NatMap.find? t.txs n = none ∧ t.unpublished = s.unpublished ∧ t.pclk = s.reached ∧
      Claims.answered s t cid land (.value (BitVec.ofNat 64 (256 * k)) true) := by
  obtain ⟨c, cs, ls, m, p, o, hend⟩ := s.trimmed.endTx_only n cid land 0 k true
  have hans := s.trimmed.endTx_answers n cid land 0 k true hcid
  rw [← s.advance_single n cid tid st k land none done h hk] at hend hans
  have hentry (l : Nat) : s.advance.lineEntry l = (s.lineEntry l).without n := State.lineEntry_without n l (by rw [hend]; rfl)
  have hlanding : (s.trimmed.getCtx cid).q.landing = (s.getCtx cid).q.landing := by rw [s.getCtx_trimmed cid hcid]; rfl
  rw [hlanding, Nat.zero_add] at hans
  refine ⟨?_, ?_, hentry, ?_, ?_, ?_, hans⟩
  · rw [hend]; rfl
  · rw [hend]; rfl
  · rw [hend]; exact NatMap.find?_del_same _ _
  · rw [hend]; rfl
  · rw [hend]; rfl

/-- `s` with one transaction, of which no line is left to be published. -/
def State.withTx (s : State) (n : Nat) (t : Tx) : State := { s with txs := [(n, t)], unpublished := [] }

theorem State.lineEntry_withTx (s : State) (n : Nat) (t : Tx) (l : Nat) : (s.withTx n t).lineEntry l = s.lineEntry l := rfl

/-- What the end of the only transaction leaves once its last line is published. -/
theorem State.publish_last (s : State) (n l cid tid st land k : Nat) (done : List Nat) (d : BitVec 1024) (po : BitVec 16)
    (hcid : cid < 4096) (hu : s.upsets = []) (hw : s.writeSet n = [l])
    (htx : s.txs = [(n, ⟨cid, tid, st, none, .stamped land k done⟩)]) (hunp : s.unpublished = [k]) (hk : k ≤ s.cclk)
    (hd : hubOf (128 * l) ∉ done) (hrec : (s.lineEntry l).recs = [(n, .tentative d po)]) (he : (s.lineEntry l).stamp < k) :
    let t := s.publish n (hubOf (128 * l))
    (t.lineEntry l).stamp = k ∧
      (t.lineEntry l).chain = ⟨(s.lineEntry l).stamp, (s.lineImage l).1, (s.lineImage l).2⟩ :: (s.lineEntry l).chain ∧
      t.lineImage l = (d, po) ∧ (∀ a, a < 128 * l ∨ 128 * l + 128 ≤ a → t.byte a = s.byte a) ∧
      NatMap.find? t.txs n = none ∧ t.unpublished = [] ∧ t.pclk = max s.pclk s.cclk ∧
      Claims.answered s t cid land (.value (BitVec.ofNat 64 (256 * k)) true) := by
  obtain ⟨ht, himg, hbyte⟩ := s.publishLine_tentative n l k d po hu (by rw [hrec]; exact if_pos rfl) he.ne
  have hrun := s.publish_single n (hubOf (128 * l)) l cid tid st land k done d po rfl hw htx hd hrec ht
  have hline : (s.publishLine n l k).lineEntry l = ((s.lineEntry l).superseded k (s.lineImage l)).without n :=
    (ht.lineEntry l).trans ((State.lineEntry_setLine _ l l _).trans (if_pos rfl))
  have hsame : (s.publishLine n l k).getCtx cid = s.getCtx cid ∧ (s.publishLine n l k).pclk = s.pclk ∧
      (s.publishLine n l k).cclk = s.cclk := by
    obtain ⟨_, _, _, _, _, _, _, _, _, _, _, _, _, _, h⟩ := ht
    rw [h]
    exact ⟨State.getCtx_congr rfl rfl rfl rfl cid, rfl, rfl⟩
  rw [show s.unpublished.filter (· != k) = [] by rw [hunp]; simp] at hrun
  generalize s.publishLine n l k = u at *
  obtain ⟨hctx, hpclk, hcclk⟩ := hsame
  change s.publish n (hubOf (128 * l)) =
    (u.withTx n ⟨cid, tid, st, none, .stamped land k (done ++ [hubOf (128 * l)])⟩).advance at hrun
  have hreach (t : Tx) : (u.withTx n t).reached = max s.pclk s.cclk := by rw [← hpclk, ← hcclk]; rfl
  have hlast (t : Tx) : (u.withTx n t).getCtx cid = s.getCtx cid := (State.getCtx_congr rfl rfl rfl rfl cid).trans hctx
  obtain ⟨hmem, hpoison, hentry, htxs, hun, hp, hans⟩ := (u.withTx n _).advance_ends n cid tid st k land
    (done ++ [hubOf (128 * l)]) hcid rfl (by rw [hreach]; omega)
  rw [← hrun] at hmem hpoison hentry htxs hun hp hans
  dsimp only
  rw [hentry l, State.lineEntry_withTx, hline]
  refine ⟨rfl, rfl, ?_, fun a ha => ?_, htxs, hun, hp.trans (hreach _), ?_⟩
  · rw [← himg]; exact State.lineImage_congr hmem hpoison l
  · rw [← hbyte a ha]; exact State.byte_congr hmem a
  · unfold Claims.answered at hans ⊢
    rw [hans, hlast]

/-- A transaction that has ended is gone from the table and from every line, and no byte has changed. -/
theorem State.endTx_frees (s : State) (n cid land cause word : Nat) (ok : Bool) : let t := s.endTx n cid land cause word ok
    t.mem = s.mem ∧ NatMap.find? t.txs n = none ∧ ∀ l, NatMap.find? (t.lineEntry l).recs n = none := by
  obtain ⟨_, _, _, _, _, _, hend⟩ := s.endTx_only n cid land cause word ok
  have hentry (l : Nat) := State.lineEntry_without (t := s.endTx n cid land cause word ok) n l (by rw [hend])
  dsimp only
  refine ⟨by rw [hend], ?_, fun l => ?_⟩
  · rw [hend]; exact NatMap.find?_del_same _ _
  · rw [hentry l]; exact NatMap.find?_del_same _ _

/-- The one voted transaction is found. -/
theorem State.find?_voted (s : State) (n : Nat) (t : Tx) (h : s.txs = [(n, t)]) (hv : s.voted n = true) :
    (s.txs.map Prod.fst).find? s.voted = some n := by
  rw [h]; exact List.find?_cons_of_pos hv

/-- Settles O43: each clause is what the lemmas about the clock, the prepares and the publishing say of one event. -/
theorem stampsPreparesPublishes : Obligations.StampsPreparesPublishes := by
  unfold Obligations.StampsPreparesPublishes
  intro s n cid tid st k land l id yes waits done d po al hcid hh hu hw e h
  refine ⟨?idle, ?group, ?refused, ?faults, ?update, ?stamped, ?prepare, ?resume, ?publish⟩
  case idle => exact fun hv hq => s.stampIssue_idle hh hv hq
  case group =>
    intro g v sy ht hq hf hr hc _ _ hg he hp
    have hend : s.cclk ≠ clockEnd := by unfold clockEnd; omega
    refine ⟨_, s.stampIssue_store l cid id tid _ al sy hh ht hq hf hr hend, ?_⟩
    exact State.stampGroup_written { s with turn := true } l (s.cclk + 1) cid id tid g v al sy hcid hu hw ht hq
      (State.takeStamp_eq { s with turn := true } hc.ne) hg (Nat.lt_succ_of_le he) hp
  case refused =>
    intro w ht hq hsrc hc
    exact ⟨_, s.stampIssue_refuses w hh hc ht hq, s.refuseAuto_store w cid id hcid hq hsrc⟩
  case faults =>
    intro x g leaf pa rest hc hq ha hb hk hl htx hecc hr ht hp hv
    refine ⟨_, s.storePerform_clockEnd x g leaf pa rest hc hq ha hb hk hl htx hecc hr ht hp hv, ?_⟩
    rw [s.storeFaulted_head x rest 0x09 5 g.addr hq]
    exact ⟨rfl, rfl, rfl, rfl, rfl⟩
  case update =>
    intro w i off left c dst src len o ety hc ht hq hsrc hcopy hi hop hst hcolls
    have hid : c.ident = i := by simpa using List.find?_some hcopy
    obtain ⟨c', hc', hst', hclk, hctx, hauto⟩ := s.faultCopy_engine c 0x09 5 (dst + off) (hid ▸ hcopy) (hid ▸ hi)
    rw [← s.refuseAuto_update w i off left c dst src len o ety hsrc hcopy hop hst hcolls] at hc' hclk hctx hauto
    refine ⟨_, c', s.stampIssue_refuses w hh hc ht hq, hclk, ?_, hid ▸ hc', hst', by rw [hctx]⟩
    rw [hauto]
    unfold State.withdraw
    rw [hq, hid]
    simp [hsrc]
  case stamped =>
    intro htx hv hq hc
    have hend : s.cclk ≠ clockEnd := by unfold clockEnd; omega
    refine ⟨_, s.stampIssue_voted n hh hend (s.find?_voted n _ htx hv) hq, ?_⟩
    have hfind : NatMap.find? s.txs n = some ⟨cid, tid, st, none, .committing land yes waits⟩ := by rw [htx]; exact if_pos rfl
    rw [State.stampTx_committing { s with turn := false } n cid tid st land none yes waits hfind hend hc.ne]
    exact ⟨rfl, (NatMap.find?_put ..).trans (if_pos rfl), rfl, rfl, rfl⟩
  case prepare =>
    intro ha hb htx hy hl hrec hroom newest
    have hrun : exec .txPrepare s = .next (s.prepare n h) := by rw [← ha, ← hb]; rfl
    refine ⟨fun hlock hm hn => ?yes, fun hlock hn => ?no, fun u hlock hun ho hwt => ?wait⟩
    case yes =>
      refine ⟨_, hrun, ?_⟩
      rw [State.prepare_yes htx hy hl hrec hroom fun plain => State.lineVote_yes htx hrec plain hlock hm hn]
      have hline := (State.lineEntry_setLine s l l { s.lineEntry l with lock := some n }).trans (if_pos rfl)
      exact ⟨congrArg LineEntry.lock hline, rfl, (NatMap.find?_put ..).trans (if_pos rfl)⟩
    case no =>
      refine ⟨_, hrun, ?_⟩
      rw [State.prepare_no htx hy hl 1 _ fun plain => State.lineVote_no htx hrec plain hlock hn]
      obtain ⟨hmem, htxs, hrecs⟩ := s.endTx_frees n cid land 1 (s.lineEntry l).newest false
      exact ⟨htxs, hmem, hrecs l, s.endTx_answers n cid land 1 _ false hcid⟩
    case wait =>
      refine ⟨_, hrun, ?_⟩
      rw [State.prepare_wait htx hy hl hroom (fun plain => State.lineVote_wait htx hrec plain u hlock hun ho) hwt]
      exact ⟨hlock, rfl, (NatMap.find?_put ..).trans (if_pos rfl)⟩
  case resume =>
    intro htx
    have hrun : exec .prepareResume s = .next (if waits.contains s.arg.b then s.prepare s.arg.a s.arg.b else s) := by
      show execPrepareResume s = _
      unfold execPrepareResume
      rw [htx]
    rw [hrun]
    refine ⟨fun hm => ?_, fun hm => ?_⟩
    · rw [if_pos (List.contains_iff_mem.mpr hm)]; rfl
    · rw [if_neg fun hc => hm (List.contains_iff_mem.mp hc)]
  case publish =>
    intro ha hb hws htx hunp hk hd hrec he
    have hrun : exec .txPublish s = .next (s.publish n (hubOf (128 * l))) := by
      show execTxPublish s = _
      unfold execTxPublish
      rw [ha, hb]
    exact ⟨_, hrun, s.publish_last n l cid tid st land k done d po hcid hu hws htx hunp hk hd hrec he⟩

end Sys2Proof.Machine
end

section
/-! ## Starts (03 R114, 21 R462 to R466) -/

namespace Sys2Proof.Machine

open Sys2Proof Sys2Proof.Claims

/-! ### Tables cut by key, clusters set one by one -/

/-- A table of which some keys are kept. -/
theorem NatMap.find?_filter {α : Type} (q : Nat × α → Bool) (p : Nat → Bool) (hq : ∀ x, q x = p x.1) (m : NatMap α) (k : Nat) :
    NatMap.find? (m.filter q) k = if p k then NatMap.find? m k else none := by
  induction m with
  | nil => simp
  | cons e t ih =>
    obtain ⟨j, v⟩ := e
    rw [List.filter_cons, hq]
    by_cases hk : k = j
    · subst hk
      cases hp : p k <;> simp [NatMap.find?, hp, ih]
    · cases hj : p j <;> simp [NatMap.find?, hk, ih]

theorem NatMap.get_filter {α : Type} (d : α) (q : Nat × α → Bool) (p : Nat → Bool) (hq : ∀ x, q x = p x.1)
    (m : NatMap α) (k : Nat) : NatMap.get d (m.filter q) k = if p k then NatMap.get d m k else d := by
  unfold NatMap.get
  rw [NatMap.find?_filter q p hq]
  split <;> rfl

/-- Every cluster put at its value. -/
def State.setClus (s : State) (v : Nat → ClusterState) : State := (List.range 128).foldl (fun t p => t.setClu p (v p)) s

theorem NatMap.mem_set {α : Type} [DecidableEq α] {d v : α} {m : NatMap α} {k : Nat} {x : Nat × α} (h : x ∈ NatMap.set d m k v) :
    (x = (k, v) ∧ v ≠ d) ∨ (x ∈ m ∧ x.1 ≠ k) := by
  have hdel {x : Nat × α} (h : x ∈ NatMap.del m k) : x ∈ m ∧ x.1 ≠ k := by simpa [NatMap.del] using h
  unfold NatMap.set at h
  split at h
  · exact .inr (hdel h)
  · next hv => exact (mem_ins h).imp (fun h => ⟨h, hv⟩) hdel

theorem foldl_setClu_only (v : Nat → ClusterState) (l : List Nat) (s : State) :
    ∃ u us, l.foldl (fun t p => t.setClu p (v p)) s = { s with clu := u, clus := us } ∧
      ∀ x ∈ us, (x.1 ∈ l ∧ v x.1 ≠ .reset ∧ x.1 ≠ s.clusterId) ∨ (x ∈ s.clus ∧ (x.1 ∈ l → x.1 = s.clusterId)) := by
  induction l generalizing s with
  | nil => exact ⟨s.clu, s.clus, rfl, fun x hx => .inr ⟨hx, by simp⟩⟩
  | cons p l ih =>
    obtain ⟨u, us, heq, hmem⟩ := ih (s.setClu p (v p))
    rw [List.foldl_cons, heq]
    rw [s.setClu_clusterId] at hmem
    unfold State.setClu at hmem ⊢
    split at hmem
    · next hp =>
      rw [if_pos hp]
      refine ⟨u, us, rfl, fun x hx => (hmem x hx).imp ?_ ?_⟩
      · exact fun ⟨hl, h⟩ => ⟨List.mem_cons_of_mem _ hl, h⟩
      · exact fun ⟨hs, h⟩ => ⟨hs, fun hl => (List.mem_cons.mp hl).elim (fun he => he.trans hp) h⟩
    · next hp =>
      rw [if_neg hp]
      refine ⟨u, us, rfl, fun x hx => ?_⟩
      obtain ⟨hl, h⟩ | ⟨hs, h⟩ := hmem x hx
      · exact .inl ⟨List.mem_cons_of_mem _ hl, h⟩
      · obtain ⟨rfl, hv⟩ | ⟨hs, hk⟩ := NatMap.mem_set hs
        · exact .inl ⟨List.mem_cons_self, hv, hp⟩
        · exact .inr ⟨hs, fun hl => (List.mem_cons.mp hl).elim (fun he => absurd he hk) h⟩

theorem foldl_setClu_at (v : Nat → ClusterState) (n : Nat) (s : State) (c : Nat) :
    ((List.range n).foldl (fun t p => t.setClu p (v p)) s).getClu c = if c < n then v c else s.getClu c := by
  induction n with
  | zero => rfl
  | succ n ih =>
    rw [List.range_succ, List.foldl_append, List.foldl_cons, List.foldl_nil, State.getClu_setClu, ih]
    rcases Nat.lt_trichotomy c n with hc | rfl | hc
    · simp [hc, hc.ne, Nat.lt_succ_of_lt hc]
    · simp
    · simp [hc.ne', Nat.not_lt.mpr hc.le, Nat.not_lt.mpr (Nat.succ_le_of_lt hc)]

/-- Clusters that are put one after the other, each at what the arguments and its own state give, are put at what these were at
first. -/
theorem foldl_setClu_each (g : State → Nat → ClusterState) (v : Nat → ClusterState) (n : Nat) (s : State)
    (hg : ∀ t p, t.arg = s.arg → t.getClu p = s.getClu p → g t p = v p) :
    (List.range n).foldl (fun t p => t.setClu p (g t p)) s = (List.range n).foldl (fun t p => t.setClu p (v p)) s := by
  induction n with
  | zero => rfl
  | succ n ih =>
    simp only [List.range_succ, List.foldl_append, List.foldl_cons, List.foldl_nil]
    obtain ⟨u, us, he, -⟩ := foldl_setClu_only v (List.range n) s
    rw [ih, hg _ n (by rw [he]) (by rw [foldl_setClu_at v n s n, if_neg (Nat.lt_irrefl n)])]

theorem State.getClu_setClus (s : State) (v : Nat → ClusterState) (p : Nat) (hp : p < 128) : (s.setClus v).getClu p = v p :=
  (foldl_setClu_at v 128 s p).trans (if_pos hp)

theorem State.setClus_congr (s : State) {v v' : Nat → ClusterState} (h : ∀ p, p < 128 → v p = v' p) : s.setClus v = s.setClus v' :=
  List.foldl_ext _ _ s fun t p hp => by rw [h p (List.mem_range.mp hp)]

/-- What putting every cluster leaves: the clusters not listed are at reset. -/
theorem State.setClus_only (s : State) (v : Nat → ClusterState) : ∃ u us, s.setClus v = { s with clu := u, clus := us } ∧
    ∀ x ∈ us, (x.1 < 128 ∧ x.1 ≠ s.clusterId) ∨ x ∈ s.clus := by
  obtain ⟨u, us, heq, hmem⟩ := foldl_setClu_only v (List.range 128) s
  exact ⟨u, us, heq, fun x hx => (hmem x hx).imp (fun ⟨hl, _, h⟩ => ⟨List.mem_range.mp hl, h⟩) And.left⟩

/-- With every cluster at reset, none is listed. -/
theorem State.setClus_reset (s : State) (hid : s.clusterId < 128) (h : ∀ x ∈ s.clus, x.1 < 128 ∧ x.1 ≠ s.clusterId) :
    s.setClus (fun _ => .reset) = { s with clu := .reset, clus := [] } := by
  obtain ⟨u, us, heq, hmem⟩ := foldl_setClu_only (fun _ => .reset) (List.range 128) s
  have hus : us = [] := List.eq_nil_iff_forall_not_mem.mpr fun x hx => by
    obtain ⟨_, hv, _⟩ | ⟨hs, hl⟩ := hmem x hx
    · exact hv rfl
    · exact (h x hs).2 (hl (List.mem_range.mpr (h x hs).1))
  subst hus
  have hu := s.getClu_setClus (fun _ => .reset) s.clusterId hid
  change State.setClus s _ = _ at heq
  rw [heq] at hu ⊢
  have hu' : u = .reset := (State.getClu_own _).symm.trans hu
  rw [hu']

/-! ### Memory of some spaces gone -/

theorem State.byte_filter (s t : State) (q : Host.Cell → Bool) (p : Nat → Bool) (hq : ∀ x, q x = p x.1)
    (h : t.mem = s.mem.filter q) (a : Nat) : t.byte a = if p a then s.byte a else 0 := by
  unfold State.byte
  rw [h]
  exact NatMap.get_filter 0 q p hq s.mem a

theorem State.byte_losing (s : State) (gone : Nat → Bool) (a : Nat) :
    (s.losing gone).byte a = if gone (a / spaceSize) then 0 else s.byte a := by
  rw [s.byte_filter (s.losing gone) _ (fun a => !gone (a / spaceSize)) (fun _ => rfl) rfl]
  cases gone (a / spaceSize) <;> rfl

end Sys2Proof.Machine
end

section
/-! ## What a start does, step by step (21 R462, R463, R466, R469) -/

namespace Sys2Proof.Machine

open Sys2Proof Sys2Proof.Claims

/-- What a start finds, the clusters aside. -/
def State.halting (s : State) (warm : Bool) : State :=
  { s.wiped with
    mem := s.mem, memPoison := s.memPoison, halted := true
    upsets := s.upsets.filter fun u => match u.site with | .mem _ => true | _ => false
    dir := s.dir, snaps := s.snaps, txs := s.txs, autoQ := s.autoQ, unpublished := s.unpublished, turn := s.turn
    cclk := s.cclk, pclk := s.pclk, lrsz := s.lrsz, dirRoom := s.dirRoom
    colfreed := if warm then s.colfreed else [], colst := if warm then s.colst else [], mca := if warm then s.mca else [] }

theorem State.stoppedFor_cold (s : State) : s.stoppedFor false = (s.halting false).setClus fun p =>
    { ClusterState.reset with atcap := (s.getClu p).atcap, withdrawn := false } := rfl

theorem State.stoppedFor_warm (s : State) : s.stoppedFor true = (s.writeBack.halting true).setClus fun p =>
    { ClusterState.reset with atcap := (s.writeBack.getClu p).atcap, withdrawn := (s.writeBack.getClu p).withdrawn } := rfl

/-- The ports while the links are down. -/
def linksDown : NatMap Port := (List.range 48).foldl (fun l p => NatMap.set .reset l p { Port.reset with up := false }) []

/-- The ports as they come up. -/
def linksUp (data : BitVec 1920) : NatMap Port := (List.range 48).foldl (fun l p => NatMap.set .reset l p
  { Port.reset with up := decide (bits data (8 * p) 8 ≤ 64) }) []

/-- The state in which the first step of a start begins. -/
def State.atStart (s : State) (warm fallbk : Bool) : State :=
  { s.stoppedFor warm with ports := linksDown, mgmt := (s.stoppedFor warm).mgmt.anew warm fallbk }

/-- The steps of a start before step `c`. -/
def State.steps (s : State) (c : Nat) : State := ((List.range c).drop 1).foldl State.startStep s

theorem State.start_fails (s : State) (warm fallbk : Bool) (h : 1 ≤ s.arg.c) (h' : s.arg.c ≤ 9) :
    s.start warm fallbk =
      let w := (s.atStart warm fallbk).steps s.arg.c
      let m := w.mgmt.failStart s.arg.c
      { w with halted := !m.ready, mgmt := { m with regsUp := m.regsUp || m.ready } } := if_pos ⟨h, h'⟩

theorem State.start_ready (s : State) (warm fallbk : Bool) (h : s.arg.c = 0) :
    s.start warm fallbk =
      let w := (s.atStart warm fallbk).steps 9
      let m := if warm then w.mgmt else { w.mgmt with floor := 1600, dem := 0, budget := 3200 }
      { w with halted := false, mgmt := m.startOk } := if_neg (by omega)

/-! ### Ports -/

theorem foldl_setPort (val : Nat → Port) (n : Nat) (h : n < 48) :
    NatMap.get .reset ((List.range 48).foldl (fun l p => NatMap.set .reset l p (val p)) []) n = val n := by
  have hget := NatMap.get_range_set Port.reset 48 0 val [] n
  simp only [Nat.zero_add] at hget
  rw [hget, if_pos ⟨Nat.zero_le n, h⟩, Nat.sub_zero]

theorem port_linksDown (n : Nat) (h : n < 48) : (NatMap.get .reset linksDown n).up = false :=
  congrArg Port.up (foldl_setPort (fun _ => { Port.reset with up := false }) n h)

theorem port_linksUp (data : BitVec 1920) (n : Nat) (h : n < 48) :
    (NatMap.get .reset (linksUp data) n).up = decide ((data.extractLsb' (8 * n) 8).toNat ≤ 64) := by
  refine (congrArg Port.up (foldl_setPort (fun p => { Port.reset with up := decide (bits data (8 * p) 8 ≤ 64) }) n h)).trans ?_
  rw [BitVec.extractLsb'_toNat]
  rfl

/-- With every round trip short, every port is as at reset. -/
theorem linksUp_zero : linksUp 0 = [] := by
  refine List.foldlRecOn (motive := fun m => m = []) _ _ rfl ?_
  rintro _ rfl p -
  have hb : bits (0 : BitVec 1920) (8 * p) 8 = 0 := by
    unfold bits
    rw [show (0 : BitVec 1920).toNat = 0 from BitVec.toNat_zero, Nat.zero_shiftRight, Nat.zero_mod]
  rw [hb]
  rfl

/-! ### The steps of a cold start -/

/-- A cluster after attic repair (01 R19). -/
def ClusterState.repaired (half : Bool) (u : ClusterState) : ClusterState :=
  { u with atcap := if half then atcapHalf else ClusterState.reset.atcap }

/-- `s` with the map of attic repair recorded (21 R462). -/
def State.mapped (s : State) : State := { s with mgmt := { s.mgmt with repair := s.arg.x } }

/-- Attic repair puts every cluster's ATCAP. -/
theorem State.startStep_repair (s : State) (hw : s.mgmt.warm = false) :
    s.startStep 5 = s.mapped.setClus fun p => (s.getClu p).repaired (s.arg.mask.getLsbD p) := by
  have hrun : s.startStep 5 = (List.range 128).foldl (fun t p =>
      t.setClu p ((t.getClu p).repaired (t.arg.mask.getLsbD p))) s.mapped := if_neg (by rw [hw]; exact Bool.false_ne_true)
  rw [hrun]
  exact foldl_setClu_each (fun t p => (t.getClu p).repaired (t.arg.mask.getLsbD p)) _ 128 _ fun t p ha hc => by
    rw [ha, hc]; rfl

/-- What a step of a cold start leaves: no step but the one that is for it changes the links, the cellar, the attics or versioned
memory. -/
structure ColdStep (n : Nat) (s t : State) : Prop where
  warm : t.mgmt.warm = s.mgmt.warm
  fails : t.mgmt.fails = s.mgmt.fails
  recov : t.mgmt.recov = s.mgmt.recov
  links : n ≠ 3 → t.ports = s.ports ∧ t.mgmt.regsUp = s.mgmt.regsUp
  cellar : n ≠ 4 → ∀ a, a < spaceSize → t.byte a = s.byte a
  attics : n ≠ 5 → ∀ p, t.getClu p = s.getClu p
  versions : n ≠ 7 → t.cclk = s.cclk ∧ t.pclk = s.pclk ∧ t.lrsz = s.lrsz ∧ t.snaps = s.snaps

theorem State.startStep_cold (s : State) (n : Nat) (hw : s.mgmt.warm = false) : ColdStep n s (s.startStep n) := by
  match n with
  | 0 | 1 | 2 | 8 => exact ⟨rfl, rfl, rfl, fun _ => ⟨rfl, rfl⟩, fun _ _ _ => rfl, fun _ _ => rfl, fun _ => ⟨rfl, rfl, rfl, rfl⟩⟩
  | 3 => exact ⟨rfl, rfl, rfl, fun h => absurd rfl h, fun _ _ _ => rfl, fun _ _ => rfl, fun _ => ⟨rfl, rfl, rfl, rfl⟩⟩
  | 4 =>
    have he : s.startStep 4 = s.losing fun k => k == 0 := if_neg (by rw [hw]; exact Bool.false_ne_true)
    rw [he]
    exact ⟨rfl, rfl, rfl, fun _ => ⟨rfl, rfl⟩, fun h => absurd rfl h, fun _ _ => rfl, fun _ => ⟨rfl, rfl, rfl, rfl⟩⟩
  | 5 =>
    obtain ⟨u, us, he, -⟩ := s.mapped.setClus_only fun p => (s.getClu p).repaired (s.arg.mask.getLsbD p)
    rw [s.startStep_repair hw, he]
    exact ⟨rfl, rfl, rfl, fun _ => ⟨rfl, rfl⟩, fun _ _ _ => rfl, fun h => absurd rfl h, fun _ => ⟨rfl, rfl, rfl, rfl⟩⟩
  | 6 =>
    refine ⟨rfl, rfl, rfl, fun _ => ⟨rfl, rfl⟩, fun _ a ha => ?_, fun _ _ => rfl, fun _ => ⟨rfl, rfl, rfl, rfl⟩⟩
    refine (s.byte_losing (fun k => k == 1 || k == 2) a).trans (if_neg ?_)
    rw [Nat.div_eq_of_lt ha]
    exact Bool.false_ne_true
  | 7 =>
    have he : s.startStep 7 = { s with
      dir := [], snaps := [], txs := [], autoQ := [], unpublished := [], turn := false, cclk := 0, pclk := 0
      lrsz := s.mgmt.roomSize, dirRoom := entryRoom s.mgmt.roomSize } := if_neg (by rw [hw]; exact Bool.false_ne_true)
    rw [he]
    exact ⟨rfl, rfl, rfl, fun _ => ⟨rfl, rfl⟩, fun _ _ _ => rfl, fun _ _ => rfl, fun h => absurd rfl h⟩
  | n + 9 => exact ⟨rfl, rfl, rfl, fun _ => ⟨rfl, rfl⟩, fun _ _ _ => rfl, fun _ _ => rfl, fun _ => ⟨rfl, rfl, rfl, rfl⟩⟩

theorem State.steps_succ (s : State) (n : Nat) (h : 1 ≤ n) : s.steps (n + 1) = (s.steps n).startStep n := by
  unfold State.steps
  rw [List.range_succ, List.drop_append_of_le_length (by simpa using h), List.foldl_append]
  rfl

/-- What the steps of a cold start before the failing one leave as it was, and what they have done. -/
structure ColdSteps (c : Nat) (s t : State) : Prop where
  warm : t.mgmt.warm = s.mgmt.warm
  fails : t.mgmt.fails = s.mgmt.fails
  recov : t.mgmt.recov = s.mgmt.recov
  regsUp : t.mgmt.regsUp = (s.mgmt.regsUp || decide (4 ≤ c))
  links : c ≤ 3 → t.ports = s.ports
  cellar : c ≤ 4 → ∀ a, a < spaceSize → t.byte a = s.byte a
  lost : 5 ≤ c → ∀ a, a < spaceSize → t.byte a = 0
  attics : c ≤ 5 → ∀ p, t.getClu p = s.getClu p
  versions : c ≤ 7 → t.cclk = s.cclk ∧ t.pclk = s.pclk ∧ t.lrsz = s.lrsz ∧ t.snaps = s.snaps

theorem State.steps_cold (s : State) (hw : s.mgmt.warm = false) (c : Nat) (hc : 1 ≤ c) : ColdSteps c s (s.steps c) := by
  induction c, hc using Nat.le_induction with
  | base => exact ⟨rfl, rfl, rfl, (Bool.or_false _).symm, fun _ => rfl, fun _ _ _ => rfl, fun h => absurd h (by omega),
      fun _ _ => rfl, fun _ => ⟨rfl, rfl, rfl, rfl⟩⟩
  | succ n hn ih =>
    have hstep := (s.steps n).startStep_cold n (ih.warm.trans hw)
    rw [s.steps_succ n hn]
    refine ⟨hstep.warm.trans ih.warm, hstep.fails.trans ih.fails, hstep.recov.trans ih.recov, ?_,
      fun h => (hstep.links (by omega)).1.trans (ih.links (by omega)),
      fun h a ha => (hstep.cellar (by omega) a ha).trans (ih.cellar (by omega) a ha), fun h a ha => ?_,
      fun h p => (hstep.attics (by omega) p).trans (ih.attics (by omega) p), fun h => ?_⟩
    · by_cases h3 : n = 3
      · subst h3; exact (Bool.or_true _).symm
      · rw [(hstep.links h3).2, ih.regsUp]
        congr 2
        exact propext ⟨fun h => by omega, fun h => by omega⟩
    · by_cases h4 : n = 4
      · subst h4
        have he : (s.steps 4).startStep 4 = (s.steps 4).losing fun k => k == 0 :=
          if_neg (by rw [ih.warm, hw]; exact Bool.false_ne_true)
        rw [he, State.byte_losing, Nat.div_eq_of_lt ha]
        rfl
      · rw [hstep.cellar h4 a ha]
        exact ih.lost (by omega) a ha
    · obtain ⟨hc, hp, hl, hs⟩ := hstep.versions (by omega)
      obtain ⟨hc', hp', hl', hs'⟩ := ih.versions (by omega)
      exact ⟨hc.trans hc', hp.trans hp', hl.trans hl', hs.trans hs'⟩

/-- What a cold start begins with: the links down, memories, version state and attics as they were. -/
theorem State.atStart_cold (s : State) (fallbk : Bool) : let t := s.atStart false fallbk
    t.mgmt = s.mgmt.anew false fallbk ∧ t.ports = linksDown ∧ t.mem = s.mem ∧
      (∀ p, p < 128 → (t.getClu p).atcap = (s.getClu p).atcap) ∧ t.cclk = s.cclk ∧ t.pclk = s.pclk ∧ t.lrsz = s.lrsz ∧ t.snaps = s.snaps := by
  have hclu (p : Nat) (hp : p < 128) : ((s.stoppedFor false).getClu p).atcap = (s.getClu p).atcap := by
    rw [s.stoppedFor_cold, State.getClu_setClus _ _ p hp]
  obtain ⟨u, us, he, -⟩ := (s.halting false).setClus_only fun p =>
    { ClusterState.reset with atcap := (s.getClu p).atcap, withdrawn := false }
  rw [← s.stoppedFor_cold] at he
  refine ⟨?_, rfl, ?_, hclu, ?_, ?_, ?_, ?_⟩ <;> (unfold State.atStart; rw [he]) <;> rfl

end Sys2Proof.Machine
end

section
/-! ## Cold starts that fail and that reach READY (21 R462 to R464) -/

namespace Sys2Proof.Machine

open Sys2Proof Sys2Proof.Claims

theorem State.coldStart_runs (s : State) (hs : s.mgmt.starting = true) (hp : s.mgmt.power ≠ .off) (hg : s.mgmt.goWarm = false) :
    exec .coldStart s = .next (s.coldStart false) := by
  show execColdStart s = _
  unfold execColdStart
  rw [if_pos]
  simp [hs, hp, hg]

/-- A cold start that fails says at which step, and what the steps after it work on stands. -/
theorem State.coldStart_fails (s : State) (fallbk : Bool) (hc : 1 ≤ s.arg.c) (hc' : s.arg.c ≤ 9) (hf : s.mgmt.fails < 2)
    (hr : s.mgmt.recov = false) : let t := s.coldStart fallbk
    t.halted = true ∧ t.mgmt.ready = false ∧ t.mgmt.lstep = s.arg.c ∧
      t.mgmt.fails = s.mgmt.fails + 1 ∧ (s.arg.c ≤ 2 → t.mgmt.security = .failed) ∧
      t.mgmt.regsUp = decide (4 ≤ s.arg.c) ∧ (s.arg.c ≤ 3 → ∀ n, n < 48 → (t.port n).up = false) ∧
      (s.arg.c ≤ 4 → ∀ a, a < spaceSize → t.byte a = s.byte a) ∧ (5 ≤ s.arg.c → ∀ a, a < spaceSize → t.byte a = 0) ∧
      (s.arg.c ≤ 5 → ∀ p, p < 128 → (t.getClu p).atcap = (s.getClu p).atcap) ∧
      (s.arg.c ≤ 7 → t.cclk = s.cclk ∧ t.pclk = s.pclk ∧ t.lrsz = s.lrsz ∧ t.snaps = s.snaps) := by
  obtain ⟨hm, hports, hmem, hclu, hcclk, hpclk, hlrsz, hsnaps⟩ := s.atStart_cold fallbk
  have h := (s.atStart false fallbk).steps_cold (by rw [hm]; rfl) s.arg.c hc
  have hfails : ((s.atStart false fallbk).steps s.arg.c).mgmt.fails = s.mgmt.fails := h.fails.trans (by rw [hm]; rfl)
  have hrecov : ((s.atStart false fallbk).steps s.arg.c).mgmt.recov = false := h.recov.trans (by rw [hm]; exact hr)
  have hready : (((s.atStart false fallbk).steps s.arg.c).mgmt.failStart s.arg.c).ready = false := by
    show (_ || min 3 (((s.atStart false fallbk).steps s.arg.c).mgmt.fails + 1) == 3) = false
    rw [hrecov, hfails, Bool.false_or]
    exact beq_false_of_ne (by omega)
  have hregs : ((s.atStart false fallbk).steps s.arg.c).mgmt.regsUp = decide (4 ≤ s.arg.c) := h.regsUp.trans (by rw [hm]; rfl)
  unfold State.coldStart
  rw [s.start_fails false fallbk hc hc']
  dsimp only
  rw [hready]
  refine ⟨rfl, rfl, rfl, ?_, fun h2 => ?_, ?_, fun h3 n hn => ?_, fun h4 a ha => ?_,
    fun h5 => h.lost h5, fun h5 p hp => ?_, fun h7 => ?_⟩
  · show min 3 (((s.atStart false fallbk).steps s.arg.c).mgmt.fails + 1) = _
    omega
  · exact if_pos (by omega)
  · exact (Bool.or_false _).trans hregs
  · show (NatMap.get .reset ((s.atStart false fallbk).steps s.arg.c).ports n).up = false
    rw [h.links h3, hports, port_linksDown n hn]
  · exact (h.cellar h4 a ha).trans (State.byte_congr hmem a)
  · show (((s.atStart false fallbk).steps s.arg.c).getClu p).atcap = _
    rw [h.attics h5 p, hclu p hp]
  · obtain ⟨h1, h2, h3, h4⟩ := h.versions h7
    exact ⟨h1.trans hcclk, h2.trans hpclk, h3.trans hlrsz, h4.trans hsnaps⟩

/-- The package as a cold start that reaches READY leaves it, the clusters aside: as at reset, but for the links, the lumber room and
what stands outside it. -/
def State.coldReady (s : State) (fallbk : Bool) : State :=
  let f := laterFuse s.mgmt.fused (fuseOf s.arg.b)
  { State.reset with
    agenda := s.agenda, arg := s.arg, draws := s.draws, stepping := s.stepping, outbox := s.outbox
    mem := ((s.losing fun k => k == 0).losing fun k => k == 1 || k == 2).mem
    memPoison := ((s.losing fun k => k == 0).losing fun k => k == 1 || k == 2).memPoison
    upsets := (((s.halting false).losing fun k => k == 0).losing fun k => k == 1 || k == 2).upsets
    lrsz := s.mgmt.roomSize, dirRoom := entryRoom s.mgmt.roomSize, ports := linksUp s.arg.data
    mgmt := Mgmt.startOk { s.mgmt.anew false fallbk with
      fused := f, security := f, regsUp := true, repair := s.arg.x, debugLog := [], floor := 1600, dem := 0, budget := 3200 } }

/-- What steps 5 to 8 of a cold start begin with. -/
def State.linked (s : State) (fallbk : Bool) (u : ClusterState) (us : NatMap ClusterState) : State :=
  let f := laterFuse s.mgmt.fused (fuseOf s.arg.b)
  { (s.halting false).losing (fun k => k == 0) with
    clu := u, clus := us, ports := linksUp s.arg.data
    mgmt := { s.mgmt.anew false fallbk with fused := f, security := f, regsUp := true } }

theorem State.steps_linked (s : State) (fallbk : Bool) (u : ClusterState) (us : NatMap ClusterState)
    (h : s.stoppedFor false = { s.halting false with clu := u, clus := us }) :
    (s.atStart false fallbk).steps 5 = s.linked fallbk u us := by
  unfold State.atStart
  rw [h]
  rfl

/-- The last steps of a cold start leave the clusters that attic repair put. -/
theorem State.coldStart_linked (s : State) (fallbk : Bool) (u u' : ClusterState) (us us' : NatMap ClusterState) (hc : s.arg.c = 0)
    (h : s.stoppedFor false = { s.halting false with clu := u, clus := us })
    (h' : (s.linked fallbk u us).startStep 5 = { (s.linked fallbk u us).mapped with clu := u', clus := us' }) :
    s.coldStart fallbk = { s.coldReady fallbk with clu := u', clus := us' } := by
  have hsteps : (s.atStart false fallbk).steps 9 =
      ((((s.atStart false fallbk).steps 5).startStep 5).startStep 6 |>.startStep 7).startStep 8 := rfl
  unfold State.coldStart
  rw [s.start_ready false fallbk hc, hsteps, s.steps_linked fallbk u us h, h']
  rfl

/-- A cold start that reaches READY leaves every cluster at reset, its attic as the repair left it. -/
theorem State.coldStart_ready (s : State) (fallbk : Bool) (hc : s.arg.c = 0) : ∃ u us,
    s.coldStart fallbk = { s.coldReady fallbk with clu := u, clus := us } ∧
      (∀ p, p < 128 → (s.coldStart fallbk).getClu p = ClusterState.reset.repaired (s.arg.mask.getLsbD p)) ∧
      (s.arg.mask = 0 → u = .reset ∧ us = []) := by
  obtain ⟨u, us, he, hmem⟩ := (s.halting false).setClus_only fun p =>
    { ClusterState.reset with atcap := (s.getClu p).atcap, withdrawn := false }
  have hclu := (s.halting false).getClu_setClus fun p =>
    { ClusterState.reset with atcap := (s.getClu p).atcap, withdrawn := false }
  rw [← s.stoppedFor_cold] at he hclu
  have hold (p : Nat) (hp : p < 128) (half : Bool) :
      ((s.linked fallbk u us).getClu p).repaired half = ClusterState.reset.repaired half := by
    rw [show (s.linked fallbk u us).getClu p = (s.stoppedFor false).getClu p by rw [he]; rfl, hclu p hp]
    rfl
  have hrep := ((s.linked fallbk u us).startStep_repair rfl).trans
    (State.setClus_congr _ (v' := fun p => ClusterState.reset.repaired (s.arg.mask.getLsbD p)) fun p hp => hold p hp _)
  obtain ⟨u', us', he', -⟩ := (s.linked fallbk u us).mapped.setClus_only fun p =>
    ClusterState.reset.repaired (s.arg.mask.getLsbD p)
  have hend := s.coldStart_linked fallbk u u' us us' hc he (hrep.trans he')
  refine ⟨u', us', hend, fun p hp => ?_, fun hmask => ?_⟩
  · have hset := (s.linked fallbk u us).mapped.getClu_setClus
      (fun p => ClusterState.reset.repaired (s.arg.mask.getLsbD p)) p hp
    rw [hend]
    rw [he'] at hset
    exact hset
  · have hreset (p : Nat) : ClusterState.reset.repaired (s.arg.mask.getLsbD p) = .reset := by
      rw [hmask, show (0 : BitVec 128).getLsbD p = false from BitVec.getLsbD_zero]
      rfl
    simp only [hreset] at he'
    have hid : (s.linked fallbk u us).mapped.clusterId < 128 := by
      unfold State.clusterId
      rw [show (s.linked fallbk u us).mapped.cur = 0 from rfl]
      omega
    have hlisted : ∀ x ∈ us, x.1 < 128 ∧ x.1 ≠ (s.halting false).clusterId := fun x hx =>
      (hmem x hx).elim id fun h => absurd h List.not_mem_nil
    rw [(s.linked fallbk u us).mapped.setClus_reset hid hlisted] at he'
    exact ⟨(congrArg State.clu he').symm, (congrArg State.clus he').symm⟩

end Sys2Proof.Machine
end

section
/-! ## What cold and warm starts leave (03 R114, 21 R462 to R464) -/

namespace Sys2Proof.Machine

open Sys2Proof Sys2Proof.Claims

/-- A cold start clears the cellar, the attics and the SRAMs, and nothing else. -/
theorem State.byte_cold (s : State) (a : Nat) :
    ((s.losing fun k => k == 0).losing fun k => k == 1 || k == 2).byte a = if a < 3 * spaceSize then 0 else s.byte a := by
  rw [State.byte_losing, State.byte_losing]
  have h : a < 3 * spaceSize ↔ a / spaceSize < 3 := (Nat.div_lt_iff_lt_mul (by unfold spaceSize; omega)).symm
  simp only [h]
  match a / spaceSize with
  | 0 | 1 | 2 => rfl
  | k + 3 => simp

theorem State.byte_coldStart (s : State) (fallbk : Bool) (hc : s.arg.c = 0) (a : Nat) :
    (s.coldStart fallbk).byte a = if a < 3 * spaceSize then 0 else s.byte a := by
  obtain ⟨u, us, he, -⟩ := s.coldStart_ready fallbk hc
  rw [← s.byte_cold a, he]
  exact State.byte_congr rfl a

/-- The management side after a cold start that reaches READY. -/
theorem State.mgmt_coldStart (s : State) (fallbk : Bool) (hc : s.arg.c = 0) : let m := (s.coldStart fallbk).mgmt
    m.ready = true ∧ m.starting = false ∧ m.debug = .none ∧ m.regsUp = true ∧ m.repair = s.arg.x ∧
      m.floor = 1600 ∧ m.budget = 3200 ∧ m.dem = 0 ∧ m.fails = 0 ∧ m.warm = false ∧ m.fallbk = fallbk ∧ m.power = .on := by
  obtain ⟨u, us, he, -⟩ := s.coldStart_ready fallbk hc
  rw [he]
  exact ⟨rfl, rfl, rfl, rfl, rfl, rfl, rfl, rfl, rfl, rfl, rfl, rfl⟩

/-- With no round trip too long and no attic repaired a cold start leaves the package as it is after reset. -/
theorem State.coldStart_reset (s : State) (fallbk : Bool) (hc : s.arg.c = 0) (hm : s.arg.mask = 0) (hd : s.arg.data = 0) :
    { s.coldStart fallbk with
      agenda := [], arg := .reset, draws := 0, stepping := true, mgmt := .reset, outbox := [], lrsz := 6, upsets := []
      dirRoom := State.reset.dirRoom, mem := [], memPoison := [] } = State.reset := by
  obtain ⟨u, us, he, -, hclu⟩ := s.coldStart_ready fallbk hc
  obtain ⟨rfl, rfl⟩ := hclu hm
  have hports : (s.coldStart fallbk).ports = [] := by rw [he, ← linksUp_zero, ← hd]; rfl
  rw [he] at hports ⊢
  change linksUp s.arg.data = [] at hports
  unfold State.coldReady
  rw [hports]
  rfl

/-- Links come up where their round trip is short, and attics are as the repair left them. -/
theorem State.coldStart_links (s : State) (fallbk : Bool) (hc : s.arg.c = 0) : let t := s.coldStart fallbk
    (∀ n, n < 48 → (t.port n).up = decide ((s.arg.data.extractLsb' (8 * n) 8).toNat ≤ 64)) ∧
      ∀ p, p < 128 → (t.getClu p).atcap = if s.arg.mask.getLsbD p then 0x0803 else 0x100F := by
  obtain ⟨u, us, he, hclu, -⟩ := s.coldStart_ready fallbk hc
  refine ⟨fun n hn => ?_, fun p hp => ?_⟩
  · rw [← port_linksUp s.arg.data n hn, he]
    rfl
  · rw [hclu p hp]
    rfl

end Sys2Proof.Machine
end

section
/-! ## Warm starts (03 R114, 21 R463) -/

namespace Sys2Proof.Machine

open Sys2Proof Sys2Proof.Claims

/-- Where no error waits, writing the caches back empties them. -/
theorem State.writeBack_clean (s : State) (h : s.upsets = []) : s.writeBack = { s with cached := [] } := by
  obtain ⟨_, _, _, _, _, _, _, _, _, _, _, _, _, _, _, _, upsets⟩ := s
  cases h
  rfl

theorem State.publishAll_none (s : State) (h : s.txs = []) : s.publishAll = s := by
  unfold State.publishAll State.stampedTxs
  rw [h]
  rfl

/-- Versioned memory as a warm start keeps it, where no transaction is left. -/
def State.unversioned (s : State) : State :=
  { s with
    dir := s.dir.map fun x => (x.1, { x.2 with recs := [], lock := none, merge := [] })
    txs := [], autoQ := [], unpublished := []
    snaps := s.snaps.map fun x => (x.1, ⟨.free, x.2.gen, 0, 0, 0⟩) }

theorem State.keepVersions_none (s : State) (h : s.txs = []) : logsOnly s.unversioned s.keepVersions := by
  unfold State.keepVersions
  rw [s.publishAll_none h]
  exact logsOnly_foldl _ _ State.updatePress_only _

/-- What the steps of a warm start leave before the last but one is done. -/
def State.warmed (s : State) : State :=
  let f := laterFuse s.mgmt.fused (fuseOf s.arg.b)
  { s.losing (fun k => k == 1 || k == 2) with
    ports := linksUp s.arg.data, mgmt := { s.mgmt with fused := f, security := f, regsUp := true } }

theorem State.steps_warm (s : State) (hw : s.mgmt.warm = true) (ht : s.txs = []) : ∃ x, logsOnly s.warmed.unversioned x ∧
    s.steps 9 = { x with mgmt := { x.mgmt with debugLog := [] } } := by
  have hcellar (t : State) (h : t.mgmt.warm = true) : t.startStep 4 = t := if_pos h
  have hattics (t : State) (h : t.mgmt.warm = true) : t.startStep 5 = t := if_pos h
  have hversions : s.warmed.startStep 7 = s.warmed.keepVersions := if_pos hw
  have hsteps : s.steps 9 = ((((((s.startStep 2).startStep 3).startStep 4).startStep 5).startStep 6).startStep 7).startStep 8 := rfl
  rw [hcellar ((s.startStep 2).startStep 3) hw, hattics ((s.startStep 2).startStep 3) hw] at hsteps
  refine ⟨_, s.warmed.keepVersions_none ht, ?_⟩
  rw [hsteps, ← hversions]
  rfl

/-- What a warm start begins with where no error waits. -/
theorem State.atStart_warm (s : State) (hu : s.upsets = []) : let t := s.atStart true false
    t.mgmt = s.mgmt.anew true false ∧ t.mem = s.mem ∧ t.txs = s.txs ∧ t.launches = [] ∧
      (∀ p, p < 128 → (t.getClu p).atcap = (s.getClu p).atcap) ∧ t.cclk = s.cclk ∧ t.pclk = s.pclk := by
  have hclu (p : Nat) (hp : p < 128) : ((s.stoppedFor true).getClu p).atcap = (s.getClu p).atcap := by
    have hset := congrArg ClusterState.atcap (State.getClu_setClus (s.writeBack.halting true) (fun p => { ClusterState.reset with
      atcap := (s.writeBack.getClu p).atcap, withdrawn := (s.writeBack.getClu p).withdrawn }) p hp)
    rw [← s.stoppedFor_warm] at hset
    exact hset.trans (by rw [s.writeBack_clean hu]; rfl)
  obtain ⟨u, us, he, -⟩ := (s.writeBack.halting true).setClus_only fun p =>
    { ClusterState.reset with atcap := (s.writeBack.getClu p).atcap, withdrawn := (s.writeBack.getClu p).withdrawn }
  rw [← s.stoppedFor_warm, s.writeBack_clean hu] at he
  have hsame (p : Nat) : (s.atStart true false).getClu p = (s.stoppedFor true).getClu p := by
    unfold State.atStart State.getClu State.clusterId
    rfl
  refine ⟨?_, ?_, ?_, ?_, fun p hp => (congrArg ClusterState.atcap (hsame p)).trans (hclu p hp), ?_, ?_⟩ <;>
    (unfold State.atStart; rw [he]) <;> rfl

/-- A warm start keeps the cellar, the attics and the clock; no transaction, no snapshot and no launch is left. -/
theorem State.start_warm (s : State) (hc : s.arg.c = 0) (ht : s.txs = []) (hu : s.upsets = []) : let t := s.start true false
    (∀ a, a < spaceSize → t.byte a = s.byte a) ∧ (∀ a, spaceSize ≤ a → a < 3 * spaceSize → t.byte a = 0) ∧
      t.cclk = s.cclk ∧ t.pclk = s.pclk ∧ t.txs = [] ∧ (∀ x ∈ t.snaps, x.2.st = .free) ∧ t.launches = [] ∧
      (∀ p, p < 128 → (t.getClu p).atcap = (s.getClu p).atcap) ∧ t.mgmt.ready = true ∧ t.mgmt.warm = true := by
  obtain ⟨hmgmt, hmem, htxs, hlaunches, hclu, hcclk, hpclk⟩ := s.atStart_warm hu
  obtain ⟨_, ⟨_, _, _, rfl⟩, hsteps⟩ := (s.atStart true false).steps_warm (by rw [hmgmt]; rfl) (htxs.trans ht)
  have hrun := s.start_ready true false hc
  rw [hsteps] at hrun
  generalize s.atStart true false = w at *
  have hbyte (a : Nat) : (s.start true false).byte a = if a / spaceSize = 1 ∨ a / spaceSize = 2 then 0 else s.byte a := by
    have hl := w.byte_losing (fun k => k == 1 || k == 2) a
    rw [State.byte_congr hmem a] at hl
    rw [hrun]
    refine Eq.trans ?_ (hl.trans ?_)
    · exact State.byte_congr rfl a
    · simp
  refine ⟨fun a ha => ?_, fun a ha ha' => ?_, ?_, ?_, ?_, fun x hx => ?_, ?_, fun p hp => ?_, ?_, ?_⟩
  · rw [hbyte, Nat.div_eq_of_lt ha, if_neg (by omega)]
  · rw [hbyte, if_pos]
    unfold spaceSize at ha ha' ⊢
    omega
  · rw [hrun]; exact hcclk
  · rw [hrun]; exact hpclk
  · rw [hrun]; rfl
  · rw [hrun] at hx
    obtain ⟨y, -, rfl⟩ := List.mem_map.mp hx
    rfl
  · rw [hrun]; exact hlaunches
  · rw [hrun, ← hclu p hp]; rfl
  · rw [hrun]; rfl
  · rw [hrun]; exact congrArg Mgmt.warm hmgmt

end Sys2Proof.Machine
end

section
/-! ## Clusters gated and ungated (21 R468, R469) -/

namespace Sys2Proof.Machine

open Sys2Proof Sys2Proof.Claims

/-! ### What keeps the clusters and the registers -/

/-- `t` has the focus, the clusters and every running context's registers as `s` has them. -/
structure KeepsRegs (s t : State) : Prop where
  cur : t.cur = s.cur
  clu : t.clu = s.clu
  clus : t.clus = s.clus
  regs : ∀ x, x < 4096 → (t.getCtx x).regs = (s.getCtx x).regs

theorem keepsRegs_refl (s : State) : KeepsRegs s s := ⟨rfl, rfl, rfl, fun _ _ => rfl⟩

theorem keepsRegs_trans {s t u : State} (h : KeepsRegs s t) (h' : KeepsRegs t u) : KeepsRegs s u :=
  ⟨h'.cur.trans h.cur, h'.clu.trans h.clu, h'.clus.trans h.clus, fun x hx => (h'.regs x hx).trans (h.regs x hx)⟩

theorem keepsRegs_foldl {β : Type} (l : List β) (f : State → β → State) (hf : ∀ s, ∀ x ∈ l, KeepsRegs s (f s x)) (s : State) :
    KeepsRegs s (l.foldl f s) :=
  List.foldlRecOn l f (keepsRegs_refl s) fun _ h x hx => keepsRegs_trans h (hf _ x hx)

/-- The running contexts are read from the focus and its table. -/
theorem State.getCtx_running {s t : State} (hcur : t.cur = s.cur) (hctx : t.ctx = s.ctx) (hctxs : t.ctxs = s.ctxs) (x : Nat)
    (hx : x < 4096) : t.getCtx x = s.getCtx x := by
  unfold State.getCtx
  rw [hcur, hctx, hctxs, if_neg (Nat.not_le.mpr hx), if_neg (Nat.not_le.mpr hx)]

theorem keepsRegs_of {s t : State} (hcur : t.cur = s.cur) (hctx : t.ctx = s.ctx) (hctxs : t.ctxs = s.ctxs) (hclu : t.clu = s.clu)
    (hclus : t.clus = s.clus) : KeepsRegs s t :=
  ⟨hcur, hclu, hclus, fun x hx => congrArg Context.regs (State.getCtx_running hcur hctx hctxs x hx)⟩

theorem tracesOnly.keepsRegs {s t : State} (h : tracesOnly s t) : KeepsRegs s t := by
  obtain ⟨_, _, _, _, _, _, _, _, _, _, _, _, _, _, rfl⟩ := h
  exact keepsRegs_of rfl rfl rfl rfl rfl

theorem KeepsRegs.getClu {s t : State} (h : KeepsRegs s t) (p : Nat) : t.getClu p = s.getClu p := by
  unfold State.getClu State.clusterId
  rw [h.cur, h.clu, h.clus]

/-- A change to a running context that leaves its registers. -/
theorem State.modCtx_keepsRegs (s : State) (i : Nat) (f : Context → Context) (hi : i < 4096) (hf : ∀ c, (f c).regs = c.regs) :
    KeepsRegs s (s.modCtx i f) := by
  have hregs (x : Nat) : ((s.modCtx i f).getCtx x).regs = (s.getCtx x).regs := by
    rw [s.getCtx_modCtx i x f (.inl hi)]
    split
    · next h => rw [hf, h]
    · rfl
  obtain ⟨_, _, _, h⟩ := s.modCtx_only i f
  exact ⟨by rw [h], by rw [h], by rw [h], fun x _ => hregs x⟩

theorem State.setCore_keepsRegs (s : State) (i : Nat) (k : CoreState) : KeepsRegs s (s.setCore i k) := by
  unfold State.setCore
  split <;> exact keepsRegs_of rfl rfl rfl rfl rfl

theorem State.unregister_keepsRegs (s : State) (t cid : Nat) (h : cid < 4096) : KeepsRegs s (s.unregister t cid) := by
  have hregs (x : Nat) : ((s.unregister t cid).getCtx x).regs = (s.getCtx x).regs := by
    rw [s.getCtx_unregister t cid x (.inl h)]
    split
    · next h => rw [h]; rfl
    · rfl
  obtain ⟨_, _, _, _, _, _, hu⟩ := s.unregister_only t cid
  exact ⟨by rw [hu], by rw [hu], by rw [hu], fun x _ => hregs x⟩

theorem State.abortTx_keepsRegs (s : State) (id : Nat) (h : id < 4096) : KeepsRegs s (s.abortTx id) := by
  unfold State.abortTx
  split
  · exact keepsRegs_refl s
  · refine keepsRegs_trans ?_ (State.modCtx_keepsRegs _ id _ h fun _ => rfl)
    split
    · exact keepsRegs_of rfl rfl rfl rfl rfl
    · exact s.unregister_keepsRegs _ id h

theorem State.unbind_keepsRegs (s : State) (b : Nat) : KeepsRegs s (s.unbind b) := by
  unfold State.unbind
  dsimp only
  split
  · exact keepsRegs_refl s
  · exact keepsRegs_of rfl rfl rfl rfl rfl

theorem State.failLaunch_keepsRegs (s : State) (c : Context) (code : Nat) : KeepsRegs s (s.failLaunch c code) := by
  unfold State.failLaunch
  dsimp only
  split
  · exact keepsRegs_refl s
  · exact keepsRegs_of rfl rfl rfl rfl rfl

/-- A context that is lost leaves registers and clusters as they are. -/
theorem State.loseContext_keepsRegs (s : State) (id : Nat) (h : id < 4096) : KeepsRegs s (s.loseContext id) := by
  unfold State.loseContext
  dsimp only
  refine keepsRegs_trans ?_ (State.modCtx_keepsRegs _ id _ h fun _ => rfl)
  refine keepsRegs_trans ?_ (State.setCore_keepsRegs ..)
  refine keepsRegs_trans ?_ (State.unbind_keepsRegs ..)
  refine keepsRegs_trans ?_ (State.abortTx_keepsRegs _ id h)
  refine keepsRegs_trans ?_ (State.failLaunch_keepsRegs ..)
  exact (tracesOnly_trans (State.logError_traces ..) (State.post_traces ..)).keepsRegs

theorem State.homeWrite_traces (s : State) (tid kind agent : Nat) (g : Granule) (alloc : Bool) :
    tracesOnly s (s.homeWrite tid kind agent g alloc) := by
  unfold State.homeWrite
  dsimp only
  have hreport := tracesOnly_trans (s.store_traces g alloc) (State.report_traces _ g.addr)
  refine tracesOnly_trans ?_ (State.watchHome_traces ..)
  exact tracesOnly_ite (tracesOnly_trans hreport (State.send_traces ..)) hreport

/-- Stores that reach their homes leave traces there. -/
theorem State.flush_traces (s : State) (p : Flight → Bool) :
    tracesOnly { s with flights := s.flights.filter fun f => !p f } (s.flush p) :=
  tracesOnly_foldl _ _ (fun t _ => tracesOnly_foldl _ _ (fun t _ => t.homeWrite_traces ..) t) _

theorem State.flush_keepsRegs (s : State) (p : Flight → Bool) : KeepsRegs s (s.flush p) :=
  keepsRegs_trans (t := { s with flights := s.flights.filter fun f => !p f }) (keepsRegs_of rfl rfl rfl rfl rfl)
    (s.flush_traces p).keepsRegs

/-! ### A cluster's state lost -/

/-- Contexts of a cluster that are changed one after the other. -/
theorem foldl_modCtx_getCtx (p n : Nat) (f : Context → Context) (s : State) (h : 32 * p + n ≤ 4096) (x : Nat) :
    ((List.range n).foldl (fun s i => s.modCtx (32 * p + i) f) s).getCtx x =
      if 32 * p ≤ x ∧ x < 32 * p + n then f (s.getCtx x) else s.getCtx x := by
  induction n generalizing x with
  | zero => rw [if_neg (by omega)]; rfl
  | succ n ih =>
    rw [List.range_succ, List.foldl_append, List.foldl_cons, List.foldl_nil, State.getCtx_modCtx _ _ _ _ (.inl (by omega)),
      ih (by omega), ih (by omega)]
    by_cases hx : x = 32 * p + n
    · subst hx
      rw [if_pos rfl, if_neg (by omega), if_pos (by omega)]
    · rw [if_neg hx]
      by_cases hr : 32 * p ≤ x ∧ x < 32 * p + n
      · rw [if_pos hr, if_pos (by omega)]
      · rw [if_neg hr, if_neg (by omega)]

theorem foldl_modCtx_only {β : Type} (l : List β) (i : β → Nat) (f : Context → Context) (s : State) : ∃ c cs ls,
    l.foldl (fun s x => s.modCtx (i x) f) s = { s with ctx := c, ctxs := cs, launches := ls } := by
  refine List.foldlRecOn (motive := fun t : State => ∃ c cs ls, t = { s with ctx := c, ctxs := cs, launches := ls }) _ _
    ⟨_, _, _, rfl⟩ ?_
  rintro t ⟨_, _, _, rfl⟩ x -
  obtain ⟨_, _, _, h⟩ := State.modCtx_only _ (i x) f
  exact ⟨_, _, _, h⟩

theorem foldl_setCore_only {β : Type} (l : List β) (i : β → Nat) (k : State → β → CoreState) (s : State) : ∃ c cs,
    l.foldl (fun s x => s.setCore (i x) (k s x)) s = { s with core := c, cores := cs } := by
  refine List.foldlRecOn (motive := fun t : State => ∃ c cs, t = { s with core := c, cores := cs }) _ _ ⟨_, _, rfl⟩ ?_
  rintro t ⟨_, _, rfl⟩ x -
  unfold State.setCore
  split <;> exact ⟨_, _, rfl⟩

/-- The memory of a cluster's scratchpad cleared. -/
def State.padCleared (s : State) (p : Nat) : State :=
  { s with
    mem := s.mem.filter fun x => !(decide (localPa p 0 ≤ x.1) && decide (x.1 < localPa p 0 + 0x1000000))
    memPoison := s.memPoison.filter fun x => !(decide (localPa p 0 / 8 ≤ x.1) && decide (x.1 < localPa p 0 / 8 + 0x200000)) }

theorem State.byte_padCleared (s : State) (p a : Nat) : (s.padCleared p).byte a =
    if localPa p 0 ≤ a ∧ a < localPa p 0 + 0x1000000 then 0 else s.byte a := by
  rw [s.byte_filter (s.padCleared p) _ (fun a => !(decide (localPa p 0 ≤ a) && decide (a < localPa p 0 + 0x1000000)))
    (fun _ => rfl) rfl]
  generalize localPa p 0 + 0x1000000 = e
  rw [← Bool.decide_and]
  by_cases h : localPa p 0 ≤ a ∧ a < e
  · rw [if_pos h, decide_eq_true h]; rfl
  · rw [if_neg h, decide_eq_false h]; rfl

/-- A context of a cluster that is cleared. -/
def Context.cleared (c : Context) : Context := { c with regs := { c.regs with v := [], vpoison := [] } }

/-- A core of a cluster that is cleared. -/
def CoreState.cleared (c : CoreState) : CoreState :=
  { c with array := { c.array with
    cp := [], gp := [], sp := [], live := .reset, shadow := .reset, klo := [], kih := [], acc := [], racc := []
    accPoison := [], raccPoison := [], oog := [], poison := [] } }

theorem State.clearCluster_eq (s : State) (p : Nat) : s.clearCluster p =
    State.padCleared ((List.range 8).foldl (fun s k => s.setCore (8 * p + k) (s.getCore (8 * p + k)).cleared)
      ((List.range 32).foldl (fun s i => s.modCtx (32 * p + i) Context.cleared) s)) p := rfl

/-- A cluster's contexts changed to `f` of what they were, its cores somehow, and nothing else. -/
structure InCluster (p : Nat) (f : Context → Context) (s t : State) : Prop where
  only : ∃ c cs ls k ks, t = { s with ctx := c, ctxs := cs, launches := ls, core := k, cores := ks }
  ctxs : ∀ x, t.getCtx x = if x / 32 = p then f (s.getCtx x) else s.getCtx x

theorem inCluster_foldl (s : State) (p : Nat) (hp : p < 128) (f : Context → Context) (k : State → Nat → CoreState) :
    InCluster p f s ((List.range 8).foldl (fun s i => s.setCore (8 * p + i) (k s i))
      ((List.range 32).foldl (fun s i => s.modCtx (32 * p + i) f) s)) := by
  have hg := foldl_modCtx_getCtx p 32 f s (by omega)
  obtain ⟨_, _, _, hctx⟩ := foldl_modCtx_only (List.range 32) (fun i => 32 * p + i) f s
  obtain ⟨_, _, hcore⟩ := foldl_setCore_only (List.range 8) (fun i => 8 * p + i) k
    ((List.range 32).foldl (fun s i => s.modCtx (32 * p + i) f) s)
  simp only [show ∀ x, (32 * p ≤ x ∧ x < 32 * p + 32) ↔ x / 32 = p by omega] at hg
  rw [hcore]
  generalize (List.range 32).foldl (fun s i => s.modCtx (32 * p + i) f) s = t at *
  refine ⟨⟨_, _, _, _, _, by rw [hctx]⟩, fun x => ?_⟩
  rw [← hg x]
  exact State.getCtx_congr rfl rfl rfl rfl x

/-- What the loss of a cluster's state leaves: its registers are as at reset, its scratchpad is cleared, and it has only what stands
then; the other clusters have what they had. -/
structure Lost (p : Nat) (u : ClusterState) (s t : State) : Prop where
  clus : ∀ q, t.getClu q = if q = p then u else s.getClu q
  regs : ∀ x, x < 4096 → (t.getCtx x).regs = if x / 32 = p then Regs.reset else (s.getCtx x).regs
  bytes : ∀ a, t.byte a = if localPa p 0 ≤ a ∧ a < localPa p 0 + 0x1000000 then 0 else s.byte a

theorem State.loseCluster_eq (s : State) (p : Nat) : s.loseCluster p =
    let t := (List.range 8).foldl (fun s k => s.setCore (8 * p + k) .reset) ((List.range 32).foldl (fun s i =>
      s.modCtx (32 * p + i) fun c => { c with regs := .reset }) (s.clearCluster p))
    t.setClu p (t.getClu p).lost := rfl

theorem State.getCtx_setClu (s : State) (p : Nat) (u : ClusterState) (x : Nat) : (s.setClu p u).getCtx x = s.getCtx x := by
  unfold State.setClu
  split <;> exact State.getCtx_congr rfl rfl rfl rfl x

/-- A cluster's scratchpad cleared, what its cores and contexts hold aside. -/
theorem State.clearCluster_leaves (s : State) (p : Nat) (hp : p < 128) : let t := s.clearCluster p
    (∀ q, t.getClu q = s.getClu q) ∧ (∀ x, x / 32 ≠ p → t.getCtx x = s.getCtx x) ∧
      ∀ a, t.byte a = if localPa p 0 ≤ a ∧ a < localPa p 0 + 0x1000000 then 0 else s.byte a := by
  have h := inCluster_foldl s p hp Context.cleared fun s i => (s.getCore (8 * p + i)).cleared
  rw [s.clearCluster_eq]
  generalize (List.range 8).foldl (fun s k => s.setCore (8 * p + k) (s.getCore (8 * p + k)).cleared)
    ((List.range 32).foldl (fun s i => s.modCtx (32 * p + i) Context.cleared) s) = t at *
  obtain ⟨⟨_, _, _, _, _, ht⟩, hctx⟩ := h
  refine ⟨fun q => ?_, fun x hx => ?_, fun a => ?_⟩
  · rw [ht]; rfl
  · exact (State.getCtx_congr rfl rfl rfl rfl x).trans ((hctx x).trans (if_neg hx))
  · rw [t.byte_padCleared p a, State.byte_congr (s := s) (by rw [ht]) a]

theorem State.loseCluster_lost (s : State) (p : Nat) (hp : p < 128) : Lost p (s.getClu p).lost s (s.loseCluster p) := by
  obtain ⟨hclu, hctx, hbyte⟩ := s.clearCluster_leaves p hp
  have h := inCluster_foldl (s.clearCluster p) p hp (fun c => { c with regs := .reset }) fun _ _ => .reset
  rw [s.loseCluster_eq]
  generalize (List.range 8).foldl (fun s k => s.setCore (8 * p + k) .reset) ((List.range 32).foldl (fun s i =>
      s.modCtx (32 * p + i) fun c => { c with regs := .reset }) (s.clearCluster p)) = t at *
  obtain ⟨⟨_, _, _, _, _, ht⟩, hregs⟩ := h
  have hclu' (q : Nat) : t.getClu q = s.getClu q := by rw [← hclu q, ht]; rfl
  refine ⟨fun q => ?_, fun x _ => ?_, fun a => ?_⟩
  · rw [State.getClu_setClu, hclu', hclu']
  · rw [State.getCtx_setClu, hregs x]
    by_cases hx : x / 32 = p
    · rw [if_pos hx, if_pos hx]
    · rw [if_neg hx, if_neg hx, hctx x hx]
  · rw [← hbyte a]
    exact State.byte_congr (by rw [State.setClu_mem, ht]) a

/-! ### Gating -/

/-- A cluster that has been gated: no translation, no RAMP and no register of its contexts is left. -/
structure Gated (q : Nat) (s : State) : Prop where
  gated : (s.getClu q).gated = true
  tlb : (s.getClu q).tlb = []
  ramp : (s.getClu q).ramp = []
  regs : ∀ x, x / 32 = q → (s.getCtx x).regs = Regs.reset

/-- The contexts of a cluster that run. -/
def State.liveIn (s : State) (p : Nat) : List Nat :=
  ((List.range 32).map (32 * p + ·)).filter fun id => (s.getCtx id).st != .retired

/-- What runs in a cluster given up. -/
def State.emptied (s : State) (p : Nat) : State :=
  ((s.liveIn p).foldl State.loseContext s).dropCopies fun c => !c.fw && c.cluster == p

theorem State.emptied_keepsRegs (s : State) (p : Nat) (hp : p < 128) : KeepsRegs s (s.emptied p) := by
  refine keepsRegs_trans (keepsRegs_foldl (s.liveIn p) State.loseContext (fun t id hid => t.loseContext_keepsRegs id ?_) s)
    (keepsRegs_of rfl rfl rfl rfl rfl)
  obtain ⟨i, hi, rfl⟩ := List.mem_map.mp (List.mem_of_mem_filter hid)
  have := List.mem_range.mp hi
  omega

/-- Gating is the loss of a cluster's state once what ran there has been given up and its stores have reached their homes. -/
theorem State.gate_eq (s : State) (p : Nat) : ∃ queues,
    let t : State := { (s.emptied p).flush (fun f => f.from_ / 32 == p) with queues := queues }
    s.gate p = (t.loseCluster p).setClu p { (t.loseCluster p).getClu p with gated := true } := ⟨_, rfl⟩

/-- Gating loses the state of its cluster and keeps that of the others. -/
theorem State.gate_lost (s : State) (p : Nat) (hp : p < 128) :
    (∀ q, (s.gate p).getClu q = if q = p then { (s.getClu p).lost with gated := true } else s.getClu q) ∧
      ∀ x, x < 4096 → ((s.gate p).getCtx x).regs = if x / 32 = p then Regs.reset else (s.getCtx x).regs := by
  obtain ⟨queues, heq⟩ := s.gate_eq p
  have hk : KeepsRegs s { (s.emptied p).flush (fun f => f.from_ / 32 == p) with queues := queues } :=
    keepsRegs_trans (keepsRegs_trans (s.emptied_keepsRegs p hp) (State.flush_keepsRegs ..)) (keepsRegs_of rfl rfl rfl rfl rfl)
  dsimp only at heq
  rw [heq]
  generalize ({ (s.emptied p).flush (fun f => f.from_ / 32 == p) with queues := queues } : State) = t at *
  have hl := t.loseCluster_lost p hp
  refine ⟨fun q => ?_, fun x hx => ?_⟩
  · rw [State.getClu_setClu, hl.clus, hl.clus, if_pos rfl, hk.getClu, hk.getClu]
    by_cases hq : q = p
    · rw [if_pos hq, if_pos hq]
    · rw [if_neg hq, if_neg hq, if_neg hq]
  · rw [State.getCtx_setClu, hl.regs x hx, hk.regs x hx]

theorem State.gate_gates (s : State) (p : Nat) (hp : p < 128) : Gated p (s.gate p) := by
  obtain ⟨hclu, hregs⟩ := s.gate_lost p hp
  have h := (hclu p).trans (if_pos rfl)
  refine ⟨by rw [h], by rw [h]; rfl, by rw [h]; rfl, fun x hx => ?_⟩
  rw [hregs x (by omega), if_pos hx]

/-- A cluster that has been gated stays so while others are. -/
theorem Gated.gate {s : State} {q : Nat} (h : Gated q s) (hq : q < 128) (p : Nat) (hp : p < 128) : Gated q (s.gate p) := by
  by_cases he : q = p
  · exact he ▸ s.gate_gates p hp
  · obtain ⟨hclu, hregs⟩ := s.gate_lost p hp
    have hsame := (hclu q).trans (if_neg he)
    refine ⟨by rw [hsame, h.gated], by rw [hsame, h.tlb], by rw [hsame, h.ramp], fun x hx => ?_⟩
    rw [hregs x (by omega), if_neg (by omega), h.regs x hx]

theorem foldl_gate_gates (l : List Nat) (hl : ∀ p ∈ l, p < 128) (s : State) (q : Nat) (hq : q ∈ l ∨ (q < 128 ∧ Gated q s)) :
    Gated q (l.foldl State.gate s) := by
  induction l generalizing s with
  | nil => exact (hq.resolve_left List.not_mem_nil).2
  | cons p l ih =>
    have hp := hl p List.mem_cons_self
    refine ih (fun x hx => hl x (List.mem_cons_of_mem _ hx)) (s.gate p) ?_
    obtain hm | ⟨hlt, hg⟩ := hq
    · obtain rfl | hm := List.mem_cons.mp hm
      · exact .inr ⟨hp, s.gate_gates q hp⟩
      · exact .inl hm
    · exact .inr ⟨hlt, hg.gate hlt p hp⟩

theorem foldl_gate_other (l : List Nat) (hl : ∀ p ∈ l, p < 128) (s : State) (q : Nat) (hq : q ∉ l) :
    (l.foldl State.gate s).getClu q = s.getClu q := by
  induction l generalizing s with
  | nil => rfl
  | cons p l ih =>
    obtain ⟨hp, hm⟩ := not_or.mp (mt List.mem_cons.mpr hq)
    refine (ih (fun x hx => hl x (List.mem_cons_of_mem _ hx)) (s.gate p) hm).trans ?_
    exact ((s.gate_lost p (hl p List.mem_cons_self)).1 q).trans (if_neg hp)

/-- What gating leaves of the clusters it is asked for: one that was not gated has lost its state, one that was has what it had. -/
theorem foldl_gate_asked (s : State) (l : List Nat) (hl : ∀ p ∈ l, p < 128) (p : Nat) (hp : p ∈ l) :
    let t := (l.filter fun p => !(s.getClu p).gated).foldl State.gate s
    (t.getClu p).gated = true ∧ (t.getClu p).tlb = (if (s.getClu p).gated then (s.getClu p).tlb else []) ∧
      ((s.getClu p).gated = false → (t.getClu p).ramp = [] ∧ ∀ x, x / 32 = p → (t.getCtx x).regs = Regs.reset) := by
  have hl' : ∀ p ∈ l.filter fun p => !(s.getClu p).gated, p < 128 := fun p hp => hl p (List.mem_of_mem_filter hp)
  dsimp only
  cases hg : (s.getClu p).gated with
  | true =>
    have hsame := foldl_gate_other _ hl' s p (by simp [hg])
    rw [hsame]
    exact ⟨hg, rfl, fun h => absurd h (by decide)⟩
  | false =>
    obtain ⟨hgated, htlb, hramp, hregs⟩ := foldl_gate_gates _ hl' s p (.inl (List.mem_filter.mpr ⟨hp, by simp [hg]⟩))
    exact ⟨hgated, htlb, fun _ => ⟨hramp, hregs⟩⟩

/-- The clusters that are gated are those named that were not. -/
theorem State.powerClusterGate_runs (s : State) (h : s.powered = true)
    (he : ∃ p, p < 128 ∧ s.arg.mask.getLsbD p = true ∧ (s.getClu p).gated = false) :
    exec .powerClusterGate s =
      .next (((s.namedClusters.filter fun p => !(s.getClu p).gated).foldl State.gate s).setPower .gated) := by
  obtain ⟨p, hp, hm, hg⟩ := he
  have hmem : p ∈ s.namedClusters.filter fun p => !(s.getClu p).gated := by simp [State.namedClusters, hp, hm, hg]
  show execPowerClusterGate s = _
  unfold execPowerClusterGate
  dsimp only
  rw [if_neg]
  rw [h, List.isEmpty_iff]
  exact fun hx => hx.elim (fun hx => absurd hx (by decide)) (List.ne_nil_of_mem hmem)

theorem State.namedClusters_mem (s : State) (p : Nat) : p ∈ s.namedClusters ↔ p < 128 ∧ s.arg.mask.getLsbD p = true := by
  simp [State.namedClusters]

/-! ### Ungating -/

/-- Ungating a cluster leaves the others, and clears its scratchpad. -/
theorem State.ungate_leaves (s : State) (p : Nat) (hp : p < 128) : let t := s.ungate p
    (t.getClu p).gated = false ∧ (∀ q, q ≠ p → t.getClu q = s.getClu q) ∧ (∀ a, s.byte a = 0 → t.byte a = 0) ∧
      ((s.getClu p).gated = true → ∀ a, localPa p 0 ≤ a → a < localPa p 0 + 0x1000000 → t.byte a = 0) := by
  dsimp only
  unfold State.ungate
  have hl := s.loseCluster_lost p hp
  cases hg : (s.getClu p).gated with
  | false => exact ⟨hg, fun _ _ => rfl, fun _ h => h, fun h => absurd h (by decide)⟩
  | true =>
    have hbyte (a : Nat) : ((s.loseCluster p).setClu p { (s.loseCluster p).getClu p with gated := false }).byte a = _ :=
      (State.byte_congr (State.setClu_mem ..) a).trans (hl.bytes a)
    rw [if_pos rfl]
    dsimp only
    refine ⟨?_, fun q hq => ?_, fun a ha => ?_, fun _ a ha ha' => ?_⟩
    · rw [State.getClu_setClu, if_pos rfl]
    · rw [State.getClu_setClu, if_neg hq, hl.clus, if_neg hq]
    · rw [hbyte a, ha, ite_self]
    · rw [hbyte a, if_pos ⟨ha, ha'⟩]

/-- What ungating the first `n` clusters leaves. -/
theorem foldl_ungate_leaves (s : State) (n : Nat) (hn : n ≤ 128) : let t := (List.range n).foldl State.ungate s
    (∀ p, n ≤ p → t.getClu p = s.getClu p) ∧ ∀ p, p < n → (t.getClu p).gated = false ∧
      ((s.getClu p).gated = true → ∀ a, localPa p 0 ≤ a → a < localPa p 0 + 0x1000000 → t.byte a = 0) := by
  induction n with
  | zero => exact ⟨fun _ _ => rfl, fun _ h => absurd h (Nat.not_lt_zero _)⟩
  | succ n ih =>
    obtain ⟨hother, hdone⟩ := ih (by omega)
    dsimp only at hother hdone ⊢
    rw [List.range_succ, List.foldl_append, List.foldl_cons, List.foldl_nil]
    generalize (List.range n).foldl State.ungate s = t at *
    obtain ⟨hgated, hkeep, hzero, hclear⟩ := t.ungate_leaves n (by omega)
    refine ⟨fun p hp => (hkeep p (by omega)).trans (hother p (by omega)), fun p hp => ?_⟩
    by_cases he : p = n
    · subst he
      rw [hother p (Nat.le_refl p)] at hclear
      exact ⟨hgated, hclear⟩
    · obtain ⟨hg, hb⟩ := hdone p (by omega)
      exact ⟨(congrArg ClusterState.gated (hkeep p he)).trans hg, fun h a ha ha' => hzero a (hb h a ha ha')⟩

theorem State.powerIdle_runs (s : State) (h : s.powered = true) : exec .powerIdle s =
    .next ((((List.range 128).filter fun p => !(s.getClu p).gated).foldl State.gate s).setPower .idle) := by
  show execPowerIdle s = _
  unfold execPowerIdle
  rw [h]
  rfl

theorem State.ungateOnDemand_runs (s : State) (h : s.powered = true) (hi : s.mgmt.power = .idle) (hl : s.launchWaits = true) :
    exec .ungateOnDemand s = .next (((List.range 128).foldl State.ungate s).setPower .on) := by
  show execUngateOnDemand s = _
  unfold execUngateOnDemand
  rw [h, hi, hl]
  rfl

/-- With every cluster named, ungating leaves none gated, and the power state is ON. -/
theorem State.clusterUngate_runs (s : State) (h : s.powered = true) (hg : s.mgmt.power = .gated)
    (hm : s.arg.mask = BitVec.allOnes 128) :
    exec .clusterUngate s = .next (((List.range 128).foldl State.ungate s).setPower .on) := by
  have hnamed : s.namedClusters = List.range 128 :=
    List.filter_eq_self.mpr fun p hp => by rw [hm, BitVec.getLsbD_allOnes]; exact decide_eq_true (List.mem_range.mp hp)
  have hnone : ((List.range 128).any fun p => (((List.range 128).foldl State.ungate s).getClu p).gated) = false :=
    List.any_eq_false.mpr fun p hp => by
      rw [((foldl_ungate_leaves s 128 (Nat.le_refl _)).2 p (List.mem_range.mp hp)).1]; decide
  show execClusterUngate s = _
  unfold execClusterUngate
  rw [h, hg, hnamed]
  dsimp only
  rw [hnone]
  rfl

end Sys2Proof.Machine
end

section
/-! ## What ends with a tenant (18 R429, R430, 03 R113) -/

namespace Sys2Proof.Machine

open Sys2Proof Sys2Proof.Claims

/-! ### Steps that bring no launch, copy, transaction or command of a tenant -/

/-- Every launch, copy and transaction of `t` is of a tenant that had one in `s`. -/
structure Sheds (s t : State) : Prop where
  launches : ∀ y ∈ t.launches, ∃ x ∈ s.launches, y.2.tid = x.2.tid
  copies : ∀ d ∈ t.copies, ∃ c ∈ s.copies, d.tid = c.tid
  txs : ∀ y ∈ t.txs, ∃ x ∈ s.txs, y.2.tid = x.2.tid

/-- Nor has a queue changed but in what its processor looks at. -/
structure Settles (s t : State) : Prop extends Sheds s t where
  queues : QueuesKept s.queues t.queues

theorem sheds_of {s t : State} (hl : t.launches = s.launches) (hc : t.copies = s.copies) (ht : t.txs = s.txs) : Sheds s t :=
  ⟨fun y hy => ⟨y, hl ▸ hy, rfl⟩, fun d hd => ⟨d, hc ▸ hd, rfl⟩, fun y hy => ⟨y, ht ▸ hy, rfl⟩⟩

theorem sheds_trans {s t u : State} (h : Sheds s t) (h' : Sheds t u) : Sheds s u := by
  refine ⟨fun z hz => ?_, fun z hz => ?_, fun z hz => ?_⟩
  · obtain ⟨y, hy, he⟩ := h'.launches z hz
    obtain ⟨x, hx, he'⟩ := h.launches y hy
    exact ⟨x, hx, he.trans he'⟩
  · obtain ⟨y, hy, he⟩ := h'.copies z hz
    obtain ⟨x, hx, he'⟩ := h.copies y hy
    exact ⟨x, hx, he.trans he'⟩
  · obtain ⟨y, hy, he⟩ := h'.txs z hz
    obtain ⟨x, hx, he'⟩ := h.txs y hy
    exact ⟨x, hx, he.trans he'⟩

theorem settles_of {s t : State} (hl : t.launches = s.launches) (hc : t.copies = s.copies) (ht : t.txs = s.txs)
    (hq : t.queues = s.queues) : Settles s t := ⟨sheds_of hl hc ht, hq ▸ queuesKept_refl _⟩

theorem settles_refl (s : State) : Settles s s := settles_of rfl rfl rfl rfl

theorem settles_trans {s t u : State} (h : Settles s t) (h' : Settles t u) : Settles s u :=
  ⟨sheds_trans h.toSheds h'.toSheds, queuesKept_trans h.queues h'.queues⟩

theorem settles_foldl {β : Type} (l : List β) (f : State → β → State) (hf : ∀ s x, Settles s (f s x)) (s : State) :
    Settles s (l.foldl f s) :=
  List.foldlRecOn l f (settles_refl s) fun _ h x _ => settles_trans h (hf _ x)

theorem settles_ite {s t u : State} {p : Prop} [Decidable p] (ht : Settles s t) (hu : Settles s u) :
    Settles s (if p then t else u) := by
  split
  · exact ht
  · exact hu

theorem tracesOnly.settles {s t : State} (h : tracesOnly s t) : Settles s t := by
  obtain ⟨_, _, _, _, _, _, _, _, _, _, _, _, _, hq, rfl⟩ := h
  exact ⟨sheds_of rfl rfl rfl, hq⟩

theorem NatMap.mem_of_find? {α : Type} {m : NatMap α} {k : Nat} {v : α} (h : NatMap.find? m k = some v) : (k, v) ∈ m := by
  induction m with
  | nil => cases h
  | cons e t ih =>
    obtain ⟨j, u⟩ := e
    rw [NatMap.find?] at h
    split at h
    · next he => cases h; cases he; exact List.mem_cons_self
    · exact List.mem_cons_of_mem _ (ih h)

theorem NatMap.mem_put {α : Type} {m : NatMap α} {k : Nat} {v : α} {x : Nat × α} (h : x ∈ NatMap.put m k v) : x = (k, v) ∨ x ∈ m :=
  (mem_ins h).imp id List.mem_of_mem_filter

/-- A transaction put in the table that is of the tenant of one that was there. -/
theorem Settles.putTx {s u : State} (h : Settles s u) (n k : Nat) (x y : Tx) (hx : NatMap.find? s.txs k = some x)
    (hy : y.tid = x.tid) : Settles s { u with txs := NatMap.put u.txs n y } := by
  refine ⟨⟨h.launches, h.copies, fun z hz => ?_⟩, h.queues⟩
  obtain rfl | hz := NatMap.mem_put hz
  · exact ⟨_, NatMap.mem_of_find? hx, hy⟩
  · exact h.txs z hz

theorem State.modCtx_settles (s : State) (i : Nat) (f : Context → Context) : Settles s (s.modCtx i f) := by
  unfold State.modCtx State.setCtx
  split
  · exact settles_of rfl rfl rfl rfl
  · split
    · split
      · next l h =>
        refine ⟨⟨fun z hz => ?_, fun z hz => ⟨z, hz, rfl⟩, fun z hz => ⟨z, hz, rfl⟩⟩, queuesKept_refl _⟩
        obtain rfl | hz := NatMap.mem_put hz
        · exact ⟨_, NatMap.mem_of_find? h, rfl⟩
        · exact ⟨z, hz, rfl⟩
      · exact settles_refl s
    · exact settles_of rfl rfl rfl rfl

theorem State.setClu_settles (s : State) (p : Nat) (u : ClusterState) : Settles s (s.setClu p u) := by
  unfold State.setClu
  split <;> exact settles_of rfl rfl rfl rfl

/-! ### Transactions that end -/

theorem CopyCmd.orphaned_tid (t : Nat) (c : CopyCmd) : (c.orphaned t).tid = c.tid := by
  unfold CopyCmd.orphaned
  split <;> rfl

theorem State.orphanCopies_settles (s : State) (t : Nat) : Settles s { s with copies := s.copies.map (CopyCmd.orphaned t) } := by
  refine ⟨⟨fun z hz => ⟨z, hz, rfl⟩, fun z hz => ?_, fun z hz => ⟨z, hz, rfl⟩⟩, queuesKept_refl _⟩
  obtain ⟨c, hc, rfl⟩ := List.mem_map.mp hz
  exact ⟨c, hc, c.orphaned_tid t⟩

theorem State.dropRecords_settles (s : State) (t : Nat) : Settles s (s.dropRecords t) :=
  settles_trans (t := { s with dir := s.dir.map fun x => (x.1, x.2.without t) }) (settles_of rfl rfl rfl rfl)
    (s.dropRecords_only t).traces.settles

theorem State.delTx_settles (s : State) (t : Nat) : Settles s { s with txs := NatMap.del s.txs t } :=
  ⟨⟨fun z hz => ⟨z, hz, rfl⟩, fun z hz => ⟨z, hz, rfl⟩, fun z hz => ⟨z, List.mem_of_mem_filter hz, rfl⟩⟩, queuesKept_refl _⟩

theorem State.unregister_settles (s : State) (t cid : Nat) : Settles s (s.unregister t cid) := by
  unfold State.unregister
  dsimp only
  rw [State.orphan_eq]
  refine settles_trans (s.dropRecords_settles t) (settles_trans (State.orphanCopies_settles _ t) ?_)
  refine settles_trans (State.modCtx_settles _ cid (Context.orphaned t)) ?_
  exact settles_trans (State.delTx_settles _ t) (State.modCtx_settles _ cid _)

theorem State.endTx_settles (s : State) (t cid land cause word : Nat) (ok : Bool) :
    Settles s (s.endTx t cid land cause word ok) := by
  unfold State.endTx State.answer
  exact settles_trans (s.unregister_settles t cid) (State.modCtx_settles _ cid _)

theorem State.trimmed_settles (s : State) : Settles s s.trimmed := by
  refine ⟨⟨fun z hz => ?_, fun z hz => ⟨z, hz, rfl⟩, fun z hz => ⟨z, hz, rfl⟩⟩, queuesKept_refl _⟩
  obtain ⟨x, hx, rfl⟩ := List.mem_map.mp hz
  exact ⟨x, hx, rfl⟩

theorem State.advance_settles (s : State) : Settles s s.advance := by
  refine settles_trans s.trimmed_settles (settles_foldl s.txs _ (fun t x => ?_) s.trimmed)
  split
  · exact settles_ite (t.endTx_settles ..) (settles_refl t)
  · exact settles_refl t

/-! ### Lines published -/

theorem State.visitLine_traces (s : State) (l : Nat) (wr alloc : Bool) : tracesOnly s (s.visitLine l wr alloc) :=
  tracesOnly_foldl _ _ (fun s k => s.visit_traces (128 * l + 8 * k) wr alloc) s

theorem State.mergePoison_traces (s : State) (t l : Nat) (bad : BitVec 16) : tracesOnly s (s.mergePoison t l bad) := by
  unfold State.mergePoison
  dsimp only
  refine tracesOnly_ite (tracesOnly_refl s) ?_
  split
  · exact tracesOnly_trans (State.logError_traces ..) (State.post_traces ..)
  · exact State.logError_traces ..

theorem State.setLine_settles (s : State) (l : Nat) (e : LineEntry) : Settles s (s.setLine l e) := settles_of rfl rfl rfl rfl

theorem State.supersede_settles (s : State) (l k : Nat) : Settles s (s.supersede l k) :=
  settles_ite (settles_refl s) (s.setLine_settles ..)

theorem State.putImage_settles (s : State) (l : Nat) (d : BitVec 1024) (po : BitVec 16) :
    Settles s ((s.setImage l d po).report (128 * l)) :=
  (tracesOnly_trans (s.setImage_traces l d po) (State.report_traces ..)).settles

theorem State.snooped_traces (s : State) (l : Nat) (y : Bool) : tracesOnly s
    (if y then [128 * l, 128 * l + 64].foldl (fun (s : State) p => s.recall p (.cxlSnoop p)) s else s) :=
  tracesOnly_ite (tracesOnly_foldl _ _ (fun s p => s.recall_traces p _) s) (tracesOnly_refl s)

theorem State.publishLine_settles (s : State) (t l k : Nat) : Settles s (s.publishLine t l k) := by
  have hv := (s.visitLine_traces l true false).settles
  have hput (u v : State) (e : LineEntry) (d : BitVec 1024) (po : BitVec 16) (hu : Settles s u)
      (hv : (u.supersede l k).setLine l e = v) : Settles s ((v.setImage l d po).report (128 * l)) := by
    subst hv
    exact settles_trans (settles_trans hu (u.supersede_settles l k))
      (settles_trans (State.setLine_settles ..) (State.putImage_settles ..))
  unfold State.publishLine
  dsimp only
  cases NatMap.find? (s.lineEntry l).recs t with
  | none => exact hput _ _ _ _ _ hv rfl
  | some r =>
    cases r with
    | tentative d po => exact hput _ _ _ _ _ hv rfl
    | delta ety op vals m y =>
      have hm (bad : BitVec 16) := settles_trans hv
        (tracesOnly_trans (State.snooped_traces _ l y) (State.mergePoison_traces _ t l bad)).settles
      cases y with
      | true => exact hput _ _ _ _ _ (hm _) rfl
      | false =>
        refine settles_ite ?_ (hput _ _ _ _ _ (hm _) rfl)
        refine settles_trans (settles_trans (hm _) (State.supersede_settles _ l k)) (settles_of rfl rfl rfl rfl)

theorem State.publish_settles (s : State) (t h : Nat) : Settles s (s.publish t h) := by
  unfold State.publish
  split
  · next cid tid st dm land stamp done heq =>
    dsimp only
    refine settles_ite (settles_refl s) ?_
    have hput := (settles_foldl (s.txLines t h) (fun s l => s.publishLine t l stamp)
      (fun s l => s.publishLine_settles t l stamp) s).putTx t t _ ⟨cid, tid, st, dm, .stamped land stamp (done ++ [h])⟩ heq rfl
    refine settles_ite ?_ hput
    refine settles_trans (settles_trans hput ?_) (State.advance_settles _)
    exact settles_of rfl rfl rfl rfl
  · exact settles_refl s

theorem State.publishAll_settles (s : State) : Settles s s.publishAll :=
  settles_foldl _ _ (fun s t => settles_foldl _ _ (fun s h => s.publish_settles t h) s) s

end Sys2Proof.Machine
end

section
/-! ## The reset of a tenant (18 R429, R430, 21 R465) -/

namespace Sys2Proof.Machine

open Sys2Proof Sys2Proof.Claims

/-! ### A processor's write of a completion word -/

theorem State.joinQueue_settles (s : State) (q tid pa : Nat) (gs : List Granule) (alloc : Bool) :
    Settles s (s.joinQueue q tid pa gs alloc) := by
  unfold State.joinQueue
  dsimp only
  split <;> exact settles_of rfl rfl rfl rfl

/-- A request sent to a peer waits at its port. -/
theorem State.askPeer_settles (s t : State) (hub dev tid kind pa len : Nat) (data : List Granule) (who : PeerFor)
    (h : s.askPeer hub dev tid kind pa len data who = .sent t) : Settles s t := by
  unfold State.askPeer at h
  dsimp only at h
  generalize (if kind = 2 then 2 else 1) = vl at h
  split at h
  · cases h
  · split at h
    · cases h
    · split at h
      · cases h
      · split at h
        · cases h
        · cases h
          exact settles_of rfl rfl rfl rfl

theorem State.cpWrite_settles (s : State) (q tid va : Nat) (l : List Byte) : Settles s (s.cpWrite q tid va l).1 := by
  unfold State.cpWrite
  dsimp only
  split
  · exact settles_refl s
  · split
    · exact settles_refl s
    · refine List.foldlRecOn (motive := fun a : State × CpRes => Settles s a.1) _ _ (settles_refl s) fun a ha x _ => ?_
      have ht := settles_trans ha (a.1.translate_none tid none x.1 .write).settles
      split
      · exact ha
      · split
        · next h => rw [h] at ht; exact ht
        · next u pa leaf h =>
          rw [h] at ht
          dsimp only at ht ⊢
          split
          · split
            · next h => exact settles_trans ht (u.askPeer_settles _ _ _ _ _ _ _ _ _ h)
            · exact ht
            · exact ht
          · split
            · exact settles_trans ht (u.joinQueue_settles ..)
            · exact settles_trans ht (tracesOnly_foldl _ _ (fun t _ => t.homeWrite_traces ..) u).settles

theorem State.release1_settles (s : State) (q : Nat) (c : Command) (code : Nat) : Settles s (s.release1 q c code).1  := by
  unfold State.release1
  dsimp only
  split
  · exact settles_refl s
  · exact s.cpWrite_settles ..

/-- Only a completion word that is written can wait. -/
theorem State.release1_wait (s : State) (q : Nat) (c : Command) (code : Nat) (h : (s.release1 q c code).2 = .wait) :
    c.word 1 ≠ 0 := by
  intro hw
  unfold State.release1 at h
  rw [if_pos hw] at h
  cases h

theorem State.unreserve_settles (s : State) (c : Command) : Settles s (s.unreserve c) :=
  settles_ite (settles_foldl _ _ (fun s p => s.setClu_settles p _) s) (settles_refl s)

/-! ### Queues -/

/-- A command whose completion word cannot be written yet, kept failed with FCODE RESET. -/
def Command.held (c : Command) : Prop := c.done = true ∧ c.fail = 9 ∧ c.word 1 ≠ 0

/-- A queue that has been reset. -/
def WQueue.wasReset (w : WQueue) : Prop := w.en = false ∧ ∀ c ∈ w.cmds, c.held

/-- Every queue of tenant `t` but those still to be reset has been. -/
def State.queuesReset (s : State) (t : Nat) (rest : List Nat) : Prop :=
  ∀ x ∈ s.queues, x.2.tid = t → x.1 ∈ rest ∨ x.2.wasReset

theorem State.queuesReset_settles {s u : State} {t : Nat} {rest : List Nat} (h : s.queuesReset t rest) (hu : Settles s u) :
    u.queuesReset t rest := by
  intro y hy ht
  obtain ⟨x, hx, hk, htid, hen, hcmds⟩ := hu.queues y hy
  obtain hr | ⟨hoff, hheld⟩ := h x hx (htid ▸ ht)
  · exact .inl (hk ▸ hr)
  · refine .inr ⟨hen.trans hoff, fun e he => ?_⟩
    obtain ⟨c, hc, hdone, hfail, hwords⟩ := hcmds e he
    obtain ⟨h1, h2, h3⟩ := hheld c hc
    refine ⟨hdone.trans h1, hfail.trans h2, ?_⟩
    unfold Command.word at h3 ⊢
    rw [hwords]
    exact h3

theorem State.setQueue_sheds (s : State) (q : Nat) (w : WQueue) : Sheds s (s.setQueue q w) := sheds_of rfl rfl rfl

/-- A queue still to be reset may be put at anything. -/
theorem State.queuesReset_setQueue {s : State} {t q : Nat} {rest : List Nat} (h : s.queuesReset t rest) (hq : q ∈ rest)
    (w : WQueue) : (s.setQueue q w).queuesReset t rest := by
  intro y hy ht
  obtain ⟨rfl, -⟩ | ⟨hy, -⟩ := NatMap.mem_set hy
  · exact .inl hq
  · exact h y hy ht

/-- A queue that has been reset is not to be reset again. -/
theorem State.queuesReset_done {s : State} {t q : Nat} {rest : List Nat} (h : s.queuesReset t (q :: rest)) (w : WQueue)
    (hw : w.wasReset) : (s.setQueue q w).queuesReset t rest := by
  intro y hy ht
  obtain ⟨rfl, -⟩ | ⟨hy, hne⟩ := NatMap.mem_set hy
  · exact .inr hw
  · exact (h y hy ht).imp (fun hm => (List.mem_cons.mp hm).resolve_left hne) id

/-- Step 3 for one command of a queue: its word is written, or it stays until it can be. -/
def State.resetCommand (q : Nat) (a : State × List Command) (c : Command) : State × List Command :=
  let s := a.1.unreserve c
  let left (s : State) : State := s.setQueue q { s.queue q with fseq := bits (c.word 2) 0 32, fcode := 9 }
  match s.release1 q c 9 with
  | (_, .wait) => (left s, a.2 ++ [{ c with started := true, done := true, fail := 9, phase := 0, launch := none }])
  | (s, _) => (left s, a.2)

/-- Step 3 for one queue. -/
def State.resetQueue (s : State) (q : Nat) : State :=
  let r := ((s.queue q).cmds.filter fun c => c.phase != 2).foldl (State.resetCommand q) (s, [])
  r.1.setQueue q { r.1.queue q with en := false, cmds := r.2 }

theorem State.resetQueues_eq (s : State) (t : Nat) : s.resetQueues t =
    ((s.queues.filter fun x => x.2.tid == t).map Prod.fst).foldl State.resetQueue s := rfl

/-- What holds while the commands of a queue are reset. -/
structure Resetting (t : Nat) (rest : List Nat) (s : State) (a : State × List Command) : Prop where
  sheds : Sheds s a.1
  queues : a.1.queuesReset t rest
  held : ∀ c ∈ a.2, c.held

theorem resetCommand_keeps {t q : Nat} {rest : List Nat} {s : State} {a : State × List Command} (h : Resetting t rest s a)
    (hq : q ∈ rest) (c : Command) : Resetting t rest s (State.resetCommand q a c) := by
  have hu := a.1.unreserve_settles c
  have hr := settles_trans hu ((a.1.unreserve c).release1_settles q c 9)
  have hput (u : State) (hu : Settles a.1 u) (l : List Command) (hl : ∀ c ∈ l, c.held) :
      Resetting t rest s (u.setQueue q { u.queue q with fseq := bits (c.word 2) 0 32, fcode := 9 }, l) :=
    ⟨sheds_trans (sheds_trans h.sheds hu.toSheds) (u.setQueue_sheds ..),
      State.queuesReset_setQueue (State.queuesReset_settles h.queues hu) hq _, hl⟩
  unfold State.resetCommand
  dsimp only
  split
  · next hw =>
    refine hput _ hu _ fun d hd => ?_
    obtain hd | hd := List.mem_append.mp hd
    · exact h.held d hd
    · rw [List.mem_singleton.mp hd]
      exact ⟨rfl, rfl, State.release1_wait _ q c 9 (by rw [hw])⟩
  · next hw =>
    rw [hw] at hr
    exact hput _ hr _ h.held

theorem State.resetQueue_resets (s : State) (t q : Nat) (rest : List Nat) (h : s.queuesReset t (q :: rest)) :
    Sheds s (s.resetQueue q) ∧ (s.resetQueue q).queuesReset t rest := by
  have hr : Resetting t (q :: rest) s (((s.queue q).cmds.filter fun c => c.phase != 2).foldl (State.resetCommand q) (s, [])) :=
    List.foldlRecOn _ _ ⟨(settles_refl s).toSheds, h, fun _ hc => absurd hc List.not_mem_nil⟩
      fun _ ha c _ => resetCommand_keeps ha List.mem_cons_self c
  exact ⟨sheds_trans hr.sheds (State.setQueue_sheds ..), State.queuesReset_done hr.queues _ ⟨rfl, hr.held⟩⟩

theorem foldl_resetQueue (t : Nat) (l : List Nat) (s : State) (h : s.queuesReset t l) :
    Sheds s (l.foldl State.resetQueue s) ∧ (l.foldl State.resetQueue s).queuesReset t [] := by
  induction l generalizing s with
  | nil => exact ⟨(settles_refl s).toSheds, h⟩
  | cons q l ih =>
    obtain ⟨hs, hq⟩ := s.resetQueue_resets t q l h
    obtain ⟨hs', hq'⟩ := ih (s.resetQueue q) hq
    exact ⟨sheds_trans hs hs', hq'⟩

/-- After step 3 every queue of the tenant is disabled, and what it holds has failed with FCODE RESET. -/
theorem State.resetQueues_resets (s : State) (t : Nat) : Sheds s (s.resetQueues t) ∧ (s.resetQueues t).queuesReset t [] := by
  rw [s.resetQueues_eq]
  refine foldl_resetQueue t _ s fun x hx ht => .inl ?_
  exact List.mem_map_of_mem (List.mem_filter.mpr ⟨hx, by simp [ht]⟩)

/-! ### Version state, translations, links -/

/-- Transactions that are no longer in the table. -/
theorem foldl_unregister (l : List (Nat × Nat)) (s : State) : let t := l.foldl (fun s n => s.unregister n.1 n.2) s
    Settles s t ∧ ∀ x ∈ t.txs, x ∈ s.txs ∧ x.1 ∉ l.map Prod.fst := by
  induction l generalizing s with
  | nil => exact ⟨settles_refl s, fun x hx => ⟨hx, List.not_mem_nil⟩⟩
  | cons n l ih =>
    obtain ⟨hs, hx⟩ := ih (s.unregister n.1 n.2)
    obtain ⟨_, _, _, _, _, _, hu⟩ := s.unregister_only n.1 n.2
    refine ⟨settles_trans (s.unregister_settles ..) hs, fun x hm => ?_⟩
    obtain ⟨hin, hnot⟩ := hx x hm
    rw [hu] at hin
    obtain ⟨hin, hne⟩ := List.mem_filter.mp hin
    exact ⟨hin, fun h => (List.mem_cons.mp h).elim (by simpa using hne) hnot⟩

/-- After step 4 the tenant has no transaction. -/
theorem State.resetVersions_ends (s : State) (t : Nat) :
    Settles s (s.resetVersions t) ∧ ∀ x ∈ (s.resetVersions t).txs, x.2.tid ≠ t := by
  obtain ⟨hs, htxs⟩ := foldl_unregister ((s.publishAll.txs.filter fun x => x.2.tid == t).map fun x => (x.1, x.2.cid)) s.publishAll
  unfold State.resetVersions
  dsimp only at hs htxs ⊢
  refine ⟨settles_trans (settles_trans s.publishAll_settles hs) (settles_of rfl rfl rfl rfl), fun x hx ht => ?_⟩
  obtain ⟨hin, hnot⟩ := htxs x hx
  refine hnot (List.mem_map.mpr ⟨(x.1, x.2.cid), List.mem_map.mpr ⟨x, List.mem_filter.mpr ⟨hin, by simp [ht]⟩, rfl⟩, rfl⟩)

theorem State.dropTlb_settles (s : State) (tids : Nat → Bool) (p : Nat → Nat → Nat → Bool) : Settles s (s.dropTlb tids p) := by
  unfold State.dropTlb
  dsimp only
  have hf : Settles s (s.flush fun f => tids f.tid) :=
    settles_trans (t := { s with flights := s.flights.filter fun f => !tids f.tid }) (settles_of rfl rfl rfl rfl)
      (s.flush_traces fun f => tids f.tid).settles
  refine settles_trans hf (settles_trans ?_ (settles_foldl _ _ (fun s c => s.setClu_settles c _) _))
  exact settles_of rfl rfl rfl rfl

end Sys2Proof.Machine
end

section
/-! ## The statement about starts, power states and the reset of a tenant -/

namespace Sys2Proof.Machine

open Sys2Proof Sys2Proof.Claims

/-- A flit sent or put behind others changes ports and what has been sent, and no more. -/
theorem State.sendVl0_only (s : State) (n kind tag len tid : Nat) (m : Option Message) : ∃ ports outbox,
    s.sendVl0 n kind tag len tid m = { s with ports := ports, outbox := outbox } := by
  unfold State.sendVl0
  dsimp only
  split
  · exact ⟨_, _, rfl⟩
  · unfold State.vl0Flit
    cases m <;> exact ⟨_, _, rfl⟩

theorem State.sendMarkers_only (s : State) (t : Nat) : ∃ ports outbox discard,
    s.sendMarkers t = { s with ports := ports, outbox := outbox, discard := discard } := by
  have h (l : List Nat) : ∃ ports outbox,
      l.foldl (fun s n => s.sendVl0 n 7 0 0 t none) s = { s with ports := ports, outbox := outbox } := by
    refine List.foldlRecOn (motive := fun u : State => ∃ ports outbox, u = { s with ports := ports, outbox := outbox }) _ _
      ⟨_, _, rfl⟩ ?_
    rintro _ ⟨_, _, rfl⟩ n -
    obtain ⟨_, _, h⟩ := State.sendVl0_only _ n 7 0 0 t none
    exact ⟨_, _, h⟩
  obtain ⟨_, _, hl⟩ := h s.upPorts
  unfold State.sendMarkers
  dsimp only
  rw [hl]
  exact ⟨_, _, _, rfl⟩

/-- The contexts, launches and copies of a tenant given up. -/
def State.givenUp (s : State) (t : Nat) : State := (s.stopTenant t).dropCopies fun c => c.tid == t

theorem State.givenUp_ends (s : State) (t : Nat) :
    (∀ x ∈ (s.givenUp t).launches, x.2.tid ≠ t) ∧ ∀ c ∈ (s.givenUp t).copies, c.tid ≠ t :=
  ⟨fun _ hx => bne_iff_ne.mp (List.mem_filter.mp hx).2, fun c hc => by simpa using (List.mem_filter.mp hc).2⟩

/-- The tenant's state dropped, before the markers are sent. -/
def State.dropped (s : State) (t : Nat) : State :=
  (((s.givenUp t).resetQueues t).resetVersions t).dropTlb (· == t) fun i _ _ => i == t

theorem State.resetTenant_only (s : State) (t : Nat) : ∃ ports outbox discard colls, s.resetTenant t = { s.dropped t with
    fqOver := (s.dropped t).fqOver.filter fun r => r.tid != t
    ports := ports, outbox := outbox, discard := discard, colls := colls } := by
  obtain ⟨_, _, _, h⟩ := State.sendMarkers_only { s.dropped t with
    fqOver := (s.dropped t).fqOver.filter fun r => r.tid != t
    colls := (s.dropped t).colls.filter fun c => c.tid != t
    ports := (s.dropped t).ports.map fun p => (p.1, p.2.holding (p.2.held.filter fun x => bits x.hdr 20 8 != t)) } t
  exact ⟨_, _, _, _, h⟩

/-- What is dropped of a tenant: nothing of it is left but queues that are disabled, with commands that have failed and whose words
are still to be written. -/
theorem State.dropped_ends (s : State) (t : Nat) : let r := s.dropped t
    (∀ x ∈ r.launches, x.2.tid ≠ t) ∧ (∀ c ∈ r.copies, c.tid ≠ t) ∧ r.queuesReset t [] ∧ ∀ x ∈ r.txs, x.2.tid ≠ t := by
  obtain ⟨hlaunches, hcopies⟩ := s.givenUp_ends t
  obtain ⟨hq, hreset⟩ := (s.givenUp t).resetQueues_resets t
  obtain ⟨hv, htxs⟩ := ((s.givenUp t).resetQueues t).resetVersions_ends t
  have hd := (((s.givenUp t).resetQueues t).resetVersions t).dropTlb_settles (· == t) fun i _ _ => i == t
  have hall := sheds_trans hq (settles_trans hv hd).toSheds
  refine ⟨fun y hy => ?_, fun d hd => ?_, State.queuesReset_settles hreset (settles_trans hv hd), fun y hy => ?_⟩
  · obtain ⟨x, hx, he⟩ := hall.launches y hy
    exact he ▸ hlaunches x hx
  · obtain ⟨c, hc, he⟩ := hall.copies d hd
    exact he ▸ hcopies c hc
  · obtain ⟨x, hx, he⟩ := hd.txs y hy
    exact he ▸ htxs x hx

theorem State.functionLevelReset_runs (s : State) (hs : s.mgmt.starting = false) (hp : s.mgmt.power ≠ .off) (ha : s.arg.a < 256) :
    exec .functionLevelReset s = .next (s.resetTenant s.arg.a) := by
  show execFunctionLevelReset s = _
  unfold execFunctionLevelReset State.tenantArg
  rw [Nat.mod_eq_of_lt ha, if_neg (by simp [hs, hp])]

theorem State.functionLevelReset_refused (s : State) (h : s.mgmt.starting = true ∨ s.mgmt.power = .off) :
    exec .functionLevelReset s = .next s := by
  show execFunctionLevelReset s = _
  unfold execFunctionLevelReset
  rw [if_pos (by simpa using h)]

theorem State.warmStart_runs (s : State) (hs : s.mgmt.starting = true) (hp : s.mgmt.power ≠ .off) (hg : s.mgmt.goWarm = true) :
    exec .warmStart s = .next (if s.arg.flag then s.coldStart true else s.start true false) := by
  show execWarmStart s = _
  unfold execWarmStart
  rw [if_neg (by simp [hs, hp, hg])]

theorem State.moduleLeavesOff_runs (s : State) (h : s.mgmt.power = .off) :
    exec .moduleLeavesOff s = .next (s.coldStart (s.mgmt.stkind == 2)) := by
  show execModuleLeavesOff s = _
  unfold execModuleLeavesOff
  rw [h]
  rfl

/-- With power lost every memory of the package reads 0. -/
theorem State.byte_wiped (s : State) (a : Nat) : s.wiped.byte a = if 4 * spaceSize ≤ a then s.byte a else 0 := by
  rw [s.byte_filter s.wiped _ (fun a => decide (4 * spaceSize ≤ a)) (fun _ => rfl) rfl]
  simp only [decide_eq_true_eq]

theorem localPa_from (p a : Nat) : localPa p a = localPa p 0 + a := by
  unfold localPa
  rw [Nat.add_zero]

theorem State.byte_setPower (s : State) (p : Power) (a : Nat) : (s.setPower p).byte a = s.byte a := rfl

/-- Settles O51: each clause is what the lemmas about its event say. -/
theorem startsAndPower : Obligations.StartsAndPower := by
  unfold Obligations.StartsAndPower
  intro s
  refine ⟨fun hs hp => ⟨?cold, ?links, ?fails, ?warm, ?fallback⟩,
    ?off, ?loss, ?powerOff, ?gate, ?idle, ?demand, ?ungate, ?refused, ?reset⟩
  case cold =>
    intro hg hc hm hd
    obtain ⟨hready, hstart, hdebug, hregs, hrepair, hfloor, hbudget, hdem, hfails, -⟩ := s.mgmt_coldStart false hc
    obtain ⟨u, us, he, -⟩ := s.coldStart_ready false hc
    refine ⟨_, s.coldStart_runs hs hp hg, s.coldStart_reset false hc hm hd, fun a ha => ?_, fun a ha => ?_, by rw [he]; rfl,
      hready, hstart, hdebug, hregs, hrepair, hfloor, hbudget, hdem, hfails⟩
    · rw [s.byte_coldStart false hc, if_pos ha]
    · rw [s.byte_coldStart false hc, if_neg (by unfold spaceSize at ha ⊢; omega)]
  case links =>
    intro hg hc
    exact ⟨_, s.coldStart_runs hs hp hg, s.coldStart_links false hc⟩
  case fails =>
    intro hg hc hc' hf hr
    exact ⟨_, s.coldStart_runs hs hp hg, s.coldStart_fails false hc hc' hf hr⟩
  case warm =>
    intro hg hflag hc ht hu
    have hrun := s.warmStart_runs hs hp hg
    rw [hflag, if_neg Bool.false_ne_true] at hrun
    exact ⟨_, hrun, s.start_warm hc ht hu⟩
  case fallback =>
    intro hg hflag hc
    obtain ⟨hready, -, -, -, -, -, -, -, -, hwarm, hfall, -⟩ := s.mgmt_coldStart true hc
    have hrun := s.warmStart_runs hs hp hg
    rw [hflag, if_pos rfl] at hrun
    exact ⟨_, hrun, fun a ha => (s.byte_coldStart true hc a).trans (if_pos ha), hwarm, hfall, hready⟩
  case off =>
    intro hoff hc
    obtain ⟨hready, -, -, -, -, -, -, -, -, -, hfall, hon⟩ := s.mgmt_coldStart (s.mgmt.stkind == 2) hc
    exact ⟨_, s.moduleLeavesOff_runs hoff, hon, hready, hfall, fun a ha => (s.byte_coldStart _ hc a).trans (if_pos ha)⟩
  case loss =>
    refine ⟨_, rfl, rfl, rfl, rfl, rfl, rfl, rfl, fun a ha => ?_, rfl⟩
    exact (State.byte_congr rfl a).trans ((s.byte_wiped a).trans (if_neg (Nat.not_le.mpr ha)))
  case powerOff =>
    refine ⟨_, rfl, rfl, rfl, rfl, rfl, fun a ha => ?_, rfl⟩
    exact (State.byte_congr rfl a).trans ((s.byte_wiped a).trans (if_neg (Nat.not_le.mpr ha)))
  case gate =>
    intro hpow he
    refine ⟨_, s.powerClusterGate_runs hpow he, rfl, fun p hp hm => ?_⟩
    exact foldl_gate_asked s s.namedClusters (fun q hq => ((s.namedClusters_mem q).mp hq).1) p
      ((s.namedClusters_mem p).mpr ⟨hp, hm⟩)
  case idle =>
    intro hpow
    refine ⟨_, s.powerIdle_runs hpow, rfl, fun p hp => ?_⟩
    exact (foldl_gate_asked s (List.range 128) (fun q hq => List.mem_range.mp hq) p (List.mem_range.mpr hp)).1
  case demand =>
    intro hpow hi hl
    refine ⟨_, s.ungateOnDemand_runs hpow hi hl, rfl, fun p hp => ?_⟩
    exact ((foldl_ungate_leaves s 128 (Nat.le_refl _)).2 p hp).1
  case ungate =>
    intro hpow hg hm
    refine ⟨_, s.clusterUngate_runs hpow hg hm, rfl, fun p hp => ?_⟩
    rw [localPa_from p 0x1000000]
    obtain ⟨hgated, hpad⟩ := (foldl_ungate_leaves s 128 (Nat.le_refl _)).2 p hp
    exact ⟨hgated, fun h a ha ha' => (State.byte_setPower _ .on a).trans (hpad h a ha ha')⟩
  case refused => exact s.functionLevelReset_refused
  case reset =>
    intro hs hp ha
    obtain ⟨hlaunches, hcopies, hqueues, htxs⟩ := s.dropped_ends s.arg.a
    obtain ⟨_, _, _, _, he⟩ := s.resetTenant_only s.arg.a
    refine ⟨_, s.functionLevelReset_runs hs hp ha, ?_⟩
    rw [he]
    refine ⟨hlaunches, hcopies, fun x hx ht => (hqueues x hx ht).resolve_left List.not_mem_nil, fun r hr => ?_, htxs⟩
    exact bne_iff_ne.mp (List.mem_filter.mp hr).2

end Sys2Proof.Machine
end

section
/-! ## A store to the local window performing at its bank (02 R50 to R54, 05 R149, R150, 10 R296) -/

namespace Sys2Proof.Machine

open Sys2Proof

/-! ### Where a window address lies (01 R12, 02 R50, R51) -/

/-- The SWZ view permutes addresses within the window. -/
theorem swizzle_lt (a : Nat) (h : a < 0x1000000) : swizzle a < 0x1000000 := by
  have hx : nbits a 12 4 <<< 6 < 2 ^ 24 := by
    have : nbits a 12 4 < 2 ^ 4 := Nat.mod_lt _ (by decide)
    rw [Nat.shiftLeft_eq]
    omega
  exact Nat.xor_lt_two_pow (n := 24) h hx

theorem viewAddr_lt (swz : Bool) (a : Nat) (h : a < 0x1000000) : viewAddr swz a < 0x1000000 := by
  unfold viewAddr
  split
  · exact swizzle_lt a h
  · exact h

/-- A window address lies in the scratchpad space. -/
theorem localPa_space (p a : Nat) (hp : p < 128) (ha : a < 0x1000000) : localPa p a / spaceSize = 2 := by
  unfold localPa spaceSize
  omega

/-- A window address lies in the scratchpad of its cluster. -/
theorem localPa_cluster (p a : Nat) (hp : p < 128) (ha : a < 0x1000000) : nbits (localPa p a) 24 7 = p := by
  unfold nbits localPa spaceSize
  rw [Nat.shiftRight_eq_div_pow]
  omega

/-- Where no request of the tick was denied, every bank of the focused cluster grants (02 R53, R54). -/
theorem State.bankDenied_free (s : State) (req a : Nat) (hc : s.clusterId < 128) (ha : a < 0x1000000) (hd : s.clu.denied = []) :
    s.bankDenied req (localPa s.clusterId a) = false := by
  unfold State.bankDenied
  rw [localPa_cluster _ _ hc ha, s.getClu_own, hd]
  exact Bool.and_false _

/-! ### A granule written outside the cellar -/

/-- Where no error waits, a granule stored outside the cellar is written, and nothing else happens: no cache stands before it. -/
theorem State.store_uncached (s : State) (g : Granule) (alloc : Bool) (hu : s.upsets = []) (hg : g.addr / spaceSize ≠ 0) :
    s.store g alloc = s.writeG g := by
  have hs : ({ s with upsets := [] } : State) = s := by rw [← hu]
  have hv : (s.visit g.addr true alloc).1 = s := by
    unfold State.visit State.findUpset
    rw [s.findAt_none _ hu]
    exact congrArg Prod.fst (if_pos hg)
  unfold State.store
  simp only [hu, List.filter_nil, hs, ite_self, hv]

theorem State.writeG_ctx (s : State) (g : Granule) : (s.writeG g).ctx = s.ctx := by
  obtain ⟨_, _, _, _, _, _, _, _, _, _, _, _, _, _, h⟩ := s.writeG_traces g
  rw [h]

/-- A granule written with poison reads as poison (02 R77). -/
theorem State.granule_writeG_poison (s : State) (g : Granule) (hd : g.data = none) : (s.writeG g).granule g.addr = none := by
  unfold State.writeG State.granule
  rw [hd]
  exact if_pos (NatMap.get_set_same false s.memPoison (g.addr / 8) true)

/-! ### A store of one granule at its bank -/

/-- A granule of a local store at its bank, in the store's view. -/
def State.atBank (s : State) (swz : Bool) (g : Granule) : Granule := { g with addr := localPa s.clusterId (viewAddr swz g.addr) }

/-- Of a store of one granule an act picks that one, whatever the event's argument. -/
theorem State.localStore_pick (s : State) (e : StoreEntry) (g : Granule) (pick : Option Nat) :
    s.localStore e [g] pick = s.localStore e [g] none := by
  match pick with
  | none => rfl
  | some 0 =>
    have hfind : [g].find? (fun h => h.addr == g.addr) = some g := List.find?_cons_of_pos (beq_self_eq_true g.addr)
    unfold State.localStore
    simp only [List.getElem?_cons_zero, hfind, Option.toList_some]
  | some (k + 1) => rfl

/-- A local store of one granule leaves its queue and writes that granule at its bank, where the bank grants it, no error waits and
no store is on its way. -/
theorem State.localStore_single (s : State) (e : StoreEntry) (g : Granule) (pick : Option Nat) (hc : s.clusterId < 128)
    (hg : g.addr < 0x1000000) (hd : s.clu.denied = []) (hu : s.upsets = []) (hf : s.flights = []) :
    s.localStore e [g] pick = (s.popStore e.id).writeG (s.atBank e.swz g) := by
  have hv := viewAddr_lt e.swz g.addr hg
  have hspace : (s.atBank e.swz g).addr / spaceSize ≠ 0 := by
    rw [State.atBank, localPa_space _ _ hc hv]; decide
  have hstore := (s.popStore e.id).store_uncached (s.atBank e.swz g) false hu hspace
  have hflush : s.flushAt (s.atBank e.swz g).addr = s := s.flush_none _ hf
  unfold State.atBank at hstore hflush ⊢
  rw [s.localStore_pick]
  unfold State.localStore
  simp only [List.map_cons, List.map_nil, List.any_cons, List.any_nil, s.bankDenied_free _ _ hc hv hd, Bool.or_false,
    Bool.false_eq_true, if_false, List.foldl_cons, List.foldl_nil, List.erase_cons_head, List.isEmpty_nil, if_true, hflush, hstore]

/-- A store that may act, in a core that stands still for no correction, goes to its bank where it is to the local window. -/
theorem State.act_local (s : State) (e : StoreEntry) (g : Granule) (rel : Option Nat) (stop : Nat) (pick : Option Nat)
    (hk : e.kind = .store [g] rel) (hl : e.local_ = true) (hr : s.storeReady e = true) (hecc : s.core.ecc = false) :
    s.act e stop pick = s.localStore e [g] pick := by
  unfold State.act
  simp only [hr, hecc, hk, hl, Bool.not_true, Bool.or_self, Bool.false_eq_true, if_false, if_true, List.isEmpty_cons]

/-- The event at which a store acts: a release store has its own (10 R296). -/
def performEvent (rel : Option Nat) : Instr := if rel.isSome then .strelPerform else .storePerform

/-- A store of the queue acts at its event. -/
theorem exec_performEvent (s : State) (e : StoreEntry) (ws : List Granule) (rel : Option Nat)
    (hq : s.ctx.q.sq.find? (fun x => x.id == s.arg.a) = some e) (hk : e.kind = .store ws rel) (hb : s.arg.b = 0) :
    exec (performEvent rel) s = .next (s.act e s.stopAt s.pickOf) := by
  cases rel with
  | none =>
    change execStorePerform s = _
    unfold execStorePerform
    simp only [hb, hq, hk, Nat.zero_ne_one, if_false, OfNat.zero_ne_ofNat]
  | some sc =>
    change execStrelPerform s = _
    unfold execStrelPerform
    simp only [hq, hk]

/-- Settles O32: the store's event leaves the store out of its queue and its granule written at its bank; the rest is what a
granule write says of bytes and of poison. -/
theorem localStoresPerform : Obligations.LocalStoresPerform := by
  unfold Obligations.LocalStoresPerform
  intro s e g rel hq hk hl hr _ hg hb hcur hecc hd hu hf
  have hc : s.clusterId < 128 := by unfold State.clusterId; omega
  have hrun : exec (performEvent rel) s = .next ((s.popStore e.id).writeG (s.atBank e.swz g)) := by
    rw [exec_performEvent s e [g] rel hq hk hb, s.act_local e g rel _ _ hk hl hr hecc,
      s.localStore_single e g _ hc hg hd hu hf]
  have hctx := (s.popStore e.id).writeG_ctx (s.atBank e.swz g)
  refine ⟨_, hrun, by rw [hctx]; rfl, by rw [hctx]; rfl, fun d hdata => ⟨fun i hi => ?bytes, fun a ha => ?rest⟩,
    fun hpoison => ⟨?mem, ?granule⟩⟩
  case bytes => exact (s.popStore e.id).byte_writeG (s.atBank e.swz g) d i hdata hi
  case rest => exact (s.popStore e.id).byte_writeG_other (s.atBank e.swz g) a ha
  case mem => exact (s.popStore e.id).mem_writeG_poison (s.atBank e.swz g) hpoison
  case granule => exact (s.popStore e.id).granule_writeG_poison (s.atBank e.swz g) hpoison

end Sys2Proof.Machine
end

section
/-! ## Settings and the operating points they ask for (07 R202, R208, R211, 09 R253, R266) -/

namespace Sys2Proof.Machine

open Sys2Proof Sys2Proof.Claims

/-! ### A step of an operating point begins (07 R208) -/

theorem Oper.begin_at (o : Oper) (tick tgt : Nat) (m : Bool) (h : o.cur = tgt) :
    o.begin tick tgt m = { o with tgt := tgt, settling := false, byMgmt := false, step := tgt } := if_pos h

/-- A step up runs at the point it leaves. -/
theorem Oper.begin_up (o : Oper) (tick tgt : Nat) (m : Bool) (h : o.cur < tgt) :
    o.begin tick tgt m = { o with
      tgt := tgt, settling := true, byMgmt := m, step := o.cur + 1, due := tick + Config.settleTicks o.cur } := by
  unfold Oper.begin
  simp only [if_neg (Nat.ne_of_lt h), if_pos h, Nat.min_eq_left (Nat.le_succ o.cur)]

/-- A step down runs at the point it goes to. -/
theorem Oper.begin_down (o : Oper) (tick tgt : Nat) (m : Bool) (h : tgt < o.cur) :
    o.begin tick tgt m = { o with
      cur := o.cur - 1, tgt := tgt, settling := true, byMgmt := m, step := o.cur - 1
      due := tick + Config.settleTicks (o.cur - 1) } := by
  unfold Oper.begin
  simp only [if_neg (Nat.ne_of_gt h), if_neg (Nat.lt_asymm h), Nat.min_eq_right (Nat.sub_le o.cur 1)]

/-! ### Writes of control registers wait, and take effect when they are due (07 R202, R211) -/

theorem State.set_setting (s : State) (n : Nat) (v : Word) : s.set n v = setting s n v (settingDelay n) := rfl

theorem State.setFmt_ok (s : State) (v : Word) (h : fmtWordOk v = true) : s.setFmt v = setting s 1 v 4 := if_pos h

/-- CWR of any register but FMT waits for its bundle. -/
theorem State.set_cwr (s : State) (cr : BitVec 10) (v : Word) (h : cr ≠ 1) :
    s.set cr.toNat v = setting s cr.toNat v (if cr = 2 ∨ cr = 3 then 4 else 1) := by
  have hd : settingDelay cr.toNat = if cr = 2 ∨ cr = 3 then 4 else 1 := by
    unfold settingDelay
    simp only [ne_eq, ← BitVec.toNat_inj] at h ⊢
    exact if_congr (or_iff_right h) rfl rfl
  rw [s.set_setting, hd]

/-- The only waiting write is due and named: it takes effect. -/
theorem State.settle_due (s : State) (p : Nat → Bool) (n : Nat) (v : Word) (h : s.ctx.settings = [⟨n, v, 0⟩]) (hp : p n = true) :
    s.settle p = { s with ctx := { s.ctx with settings := [], c := s.ctx.c.put n v } } := by
  unfold State.settle
  simp [h, hp]

/-- The only waiting write is not due: it waits on. -/
theorem State.settle_waits (s : State) (p : Nat → Bool) (n : Nat) (v : Word) (k : Nat) (h : s.ctx.settings = [⟨n, v, k + 1⟩]) :
    s.settle p = s := by
  have hs : s = { s with ctx := { s.ctx with settings := [⟨n, v, k + 1⟩] } } := by rw [← h]
  unfold State.settle
  rw [hs]
  simp

/-! ### The words -/

theorem exec_fmtset_clean (s : State) (r : BitVec 6) (h : s.pred = true) (hr : s.spois r.toNat = false) :
    exec (.fmtset r) s = .next (s.setFmt (s.sreg r.toNat)) := by
  change execFmtset r s = _
  rw [execFmtset, State.scalar_true _ _ h, State.consume_clean _ _ _ (by simp [hr])]

theorem exec_cwr_clean (s : State) (r : BitVec 6) (cr : BitVec 10) (h : s.pred = true) (hr : s.spois r.toNat = false) :
    exec (.cwr r cr) s = .next (if cr = 1 then s.setFmt (s.sreg r.toNat) else s.set cr.toNat (s.sreg r.toNat)) := by
  change execCwr r cr s = _
  rw [execCwr, State.scalar_true _ _ h, State.consume_clean _ _ _ (by simp [hr])]

/-- OPSET queues its target while another transition holds the cluster's point. -/
theorem exec_opset_queues (s : State) (t : BitVec 3) (h : s.pred = true) (ho : s.clu.oper.settling = true ∨
      s.clu.oper.mgmt.isSome = true ∨ s.clu.oper.back.isSome = true) :
    exec (.opset t) s = .next { s with clu := { s.clu with oper := { s.clu.oper with queued := some t.toNat } } } := by
  change execOpset t s = _
  have hq : (s.clu.oper.settling || s.clu.oper.mgmt.isSome || s.clu.oper.back.isSome) = true := by
    simpa only [Bool.or_eq_true, or_assoc] using ho
  rw [execOpset, State.scalar_true _ _ h]
  simp only [hq, if_true]

/-- OPSET begins a step where nothing holds the cluster's point. -/
theorem exec_opset_begins (s : State) (t : BitVec 3) (h : s.pred = true) (hs : s.clu.oper.settling = false)
    (hm : s.clu.oper.mgmt = none) (hb : s.clu.oper.back = none) :
    exec (.opset t) s = .next { s with clu := { s.clu with oper := s.clu.oper.begin s.clu.tick t.toNat false } } := by
  change execOpset t s = _
  rw [execOpset, State.scalar_true _ _ h]
  simp only [hs, hm, hb, Option.isSome_none, Bool.or_self, Bool.false_eq_true, if_false]

/-- Settles O14: each word by what it leaves waiting, OPSET by the step that begins, each event by what is due. -/
theorem settingsWaitAndTakeEffect : Obligations.SettingsWaitAndTakeEffect := by
  unfold Obligations.SettingsWaitAndTakeEffect
  refine ⟨fun s r cr i23 a w t hp => ⟨?fmtset64, ?balset, ?walset, fun hr => ⟨?fmt, ?cwr⟩,
    exec_opset_queues s t hp, ?same, ?up, ?down⟩, fun s v k => ⟨?bal, ?wal, ?dueFmt, ?waits, ?waitsFmt⟩⟩
  case fmtset64 => exact s.scalar_true (fun s => s.set 1 (i23.setWidth 64)) hp
  case balset => exact s.scalar_true (fun s => s.set 2 (a.setWidth 64)) hp
  case walset => exact s.scalar_true (fun s => s.set 3 (w.setWidth 64)) hp
  case fmt =>
    intro hv
    rw [exec_fmtset_clean s r hp hr, exec_cwr_clean s r 1 hp hr, if_pos rfl, s.setFmt_ok _ hv]
    exact ⟨rfl, rfl⟩
  case cwr =>
    intro hcr
    rw [exec_cwr_clean s r cr hp hr, if_neg hcr, s.set_cwr cr _ hcr]
  case same =>
    intro hs hm hb ht
    rw [exec_opset_begins s t hp hs hm hb, Oper.begin_at _ _ _ _ ht]
  case up =>
    intro hs hm hb ht
    rw [exec_opset_begins s t hp hs hm hb, Oper.begin_up _ _ _ _ ht]
  case down =>
    intro hs hm hb ht
    rw [exec_opset_begins s t hp hs hm hb, Oper.begin_down _ _ _ _ ht]
  case bal =>
    intro h
    exact congrArg Host.Outcome.next (s.settle_due _ 2 v h rfl)
  case wal =>
    intro h
    exact congrArg Host.Outcome.next (s.settle_due _ 3 v h rfl)
  case dueFmt =>
    intro h
    exact congrArg Host.Outcome.next (s.settle_due _ 1 v h rfl)
  case waits =>
    rintro (h | h) <;> exact congrArg Host.Outcome.next (s.settle_waits _ _ v k h)
  case waitsFmt =>
    intro h
    exact congrArg Host.Outcome.next (s.settle_waits _ 1 v k h)

end Sys2Proof.Machine
end

section
/-! ## Groups, markers, joins and fences (07 R191 to R193, 05 R157, R160, 09 R254 to R256) -/

namespace Sys2Proof.Machine

open Sys2Proof Sys2Proof.Claims

/-- A change to a context by number reaches the focused one where the number is its own. -/
theorem State.ctx_modCtx (s : State) (i : Nat) (f : Context → Context) :
    (s.modCtx i f).ctx = if i = s.cur then f s.ctx else s.ctx := by
  by_cases h : i = s.cur
  · rw [if_pos h, s.modCtx_of_cur f h.symm]
  · rw [if_neg h]
    unfold State.modCtx State.setCtx
    rw [if_neg h]
    split
    · split <;> rfl
    · rfl

/-- The members that remain are counted one fewer; the control registers and registers of the focused context stay. -/
theorem foldl_members_keeps (l : List Nat) (s : State) :
    let t := l.foldl (fun s id => s.modCtx id fun c => { c with members := c.members - 1 }) s
    t.ctx.c = s.ctx.c ∧ t.ctx.regs = s.ctx.regs ∧ t.mem = s.mem := by
  refine List.foldlRecOn (motive := fun t : State => t.ctx.c = s.ctx.c ∧ t.ctx.regs = s.ctx.regs ∧ t.mem = s.mem) l _
    ⟨rfl, rfl, rfl⟩ ?_
  rintro t ⟨hc, hregs, hmem⟩ i -
  have hk : (t.modCtx i fun c => { c with members := c.members - 1 }).mem = t.mem := (t.modCtx_keepsClu i _).2.2.2
  rw [t.ctx_modCtx, hk]
  split <;> exact ⟨hc, hregs, hmem⟩

/-- A context that leaves its group has no GID, waits for no member, and is not frozen by the group any more (07 R193). -/
theorem State.leaveGroup_member (s : State) (h : s.ctx.c.gid.getLsbD 9 = true) :
    s.leaveGroup.ctx.c = { s.ctx.c with gid := 0 } ∧ s.leaveGroup.ctx.members = 0 ∧
      Freeze.lockstep ∉ s.leaveGroup.ctx.freezes ∧ s.leaveGroup.ctx.regs = s.ctx.regs ∧ s.leaveGroup.mem = s.mem := by
  obtain ⟨hc, hregs, hmem⟩ := foldl_members_keeps (s.memberIds (s.tidOf s.ctx) (bits s.ctx.c.gid 0 8)) s
  unfold State.leaveGroup
  rw [if_pos h]
  exact ⟨congrArg (fun c : CRegs => { c with gid := 0 }) hc, rfl, by simp, hregs, hmem⟩

theorem State.leaveGroup_alone (s : State) (h : s.ctx.c.gid.getLsbD 9 = false) : s.leaveGroup = s :=
  if_neg (by rw [h]; exact Bool.false_ne_true)

/-! ### The words -/

/-- GJOIN joins where neither its context nor another of its core is a member. -/
theorem exec_gjoin_joins (s : State) (g : BitVec 8) (c : BitVec 4) (k : BitVec 3) (h : s.pred = true)
    (hg : s.ctx.c.gid.getLsbD 9 = false) (hm : s.coreHasMember = false) :
    exec (.gjoin g c k) s = .next { s with ctx := { (owingK s k.toNat true false).ctx with
      c := { s.ctx.c with gid := BitVec.ofNat 64 (512 + g.toNat) }, members := c.toNat + 1 } } := by
  change execGjoin g c k s = _
  rw [execGjoin, State.scalar_true _ _ h, if_neg (by rw [hg, hm]; exact Bool.false_ne_true)]
  rfl

theorem exec_gjoin_refuses (s : State) (g : BitVec 8) (c : BitVec 4) (k : BitVec 3) (h : s.pred = true)
    (hm : s.ctx.c.gid.getLsbD 9 = true ∨ s.coreHasMember = true) :
    exec (.gjoin g c k) s = .next (owingK s k.toNat false false) := by
  change execGjoin g c k s = _
  rw [execGjoin, State.scalar_true _ _ h, if_pos (by simpa using hm)]
  rfl

theorem exec_gleave (s : State) (h : s.pred = true) : exec .gleave s = .next s.leaveGroup :=
  s.scalar_true State.leaveGroup h

theorem exec_vjoin (s : State) (h : s.pred = true) :
    exec .vjoin s = .next (if s.joined s.ctx.q.nextId then s else frozenBy s (.vjoin s.ctx.q.nextId)) :=
  s.scalar_true (fun s => if s.joined s.ctx.q.nextId then s else s.freeze (.vjoin s.ctx.q.nextId)) h

theorem exec_fence (s : State) (c : BitVec 3) (h : s.pred = true) :
    exec (.fence c) s = .next (if s.fenced (scope s c.toNat) s.ctx.q.nextId then s
      else frozenBy s (.fence (scope s c.toNat) s.ctx.q.nextId)) :=
  s.scalar_true (fun s => if s.fenced (s.scopeOf c.toNat) s.ctx.q.nextId then s
    else s.freeze (.fence (s.scopeOf c.toNat) s.ctx.q.nextId)) h

theorem exec_fencep (s : State) (d : BitVec 3) (h : s.pred = true) :
    exec (.fencep d) s = .next (if s.dieDrained d.toNat s.ctx.q.nextId then s
      else frozenBy s (.fencep d.toNat s.ctx.q.nextId)) :=
  s.scalar_true (fun s => if s.dieDrained d.toNat s.ctx.q.nextId then s
    else s.freeze (.fencep d.toNat s.ctx.q.nextId)) h

/-- QMARK enters both queues under one number. -/
theorem exec_qmark (s : State) (c : BitVec 3) (h : s.pred = true) :
    exec (.qmark c) s = .next (withQ s { s.ctx.q with
      nextId := s.ctx.q.nextId + 1
      sq := s.ctx.q.sq ++ [storeEntry s (.mark (scope s c.toNat)) false false]
      lq := s.ctx.q.lq ++ [{ loadEntry s (.mark (scope s c.toNat)) false [] (.lines []) 0 none with snp := 0 }] }) := by
  change execQmark c s = _
  rw [execQmark, State.scalar_true _ _ h]
  rfl

/-- Settles O16: each word by its two cases. -/
theorem groupsJoinsFences : Obligations.GroupsJoinsFences := by
  unfold Obligations.GroupsJoinsFences
  intro s g c4 k c hp
  dsimp only
  rw [exec_gleave s hp, exec_vjoin s hp, exec_fence s c hp, exec_fencep s c hp]
  refine ⟨exec_gjoin_joins s g c4 k hp, exec_gjoin_refuses s g c4 k hp, fun hg => ?alone,
    fun hg => ⟨_, rfl, s.leaveGroup_member hg⟩, exec_qmark s c hp, ?_, ?_, ?_, ?_, ?_, ?_⟩
  case alone => rw [s.leaveGroup_alone hg]
  all_goals
    intro h
    rw [h]
    rfl

end Sys2Proof.Machine
end

section
/-! ## Operating points, ramps, ceilings and demand (07 R208 to R210, 21 R456, R458) -/

namespace Sys2Proof.Machine

open Sys2Proof Sys2Proof.Claims

/-! ### One cluster put in its place -/

theorem State.setClu_cluSet (s : State) (p : Nat) (u : ClusterState) : cluSet s (s.setClu p u) p u := by
  refine ⟨by rw [s.getClu_setClu, if_pos rfl], fun q hq => by rw [s.getClu_setClu, if_neg hq], s.setClu_ctx p u, ?_,
    s.setClu_mem p u, ?_⟩
  all_goals
    unfold State.setClu
    split <;> rfl

theorem State.setClu_mgmt (s : State) (p : Nat) (u : ClusterState) : (s.setClu p u).mgmt = s.mgmt :=
  have ⟨_, _, _, _, _, h⟩ := s.setClu_cluSet p u
  h

/-! ### What follows a step that has settled (07 R208, R210) -/

theorem Oper.onward_begins (o : Oper) (tick : Nat) (h : o.cur ≠ o.tgt) : o.onward tick = o.begin tick o.tgt o.byMgmt :=
  if_neg h

theorem Oper.settled_onward (o : Oper) (tick : Nat) (h : o.mgmt = none) :
    o.settled tick = { o with cur := o.step }.onward tick := by
  unfold Oper.settled
  simp only [h]

/-- At its target a transition ends where none is queued. -/
theorem Oper.settled_there (o : Oper) (tick : Nat) (hm : o.mgmt = none) (ht : o.step = o.tgt) (hq : o.queued = none) :
    o.settled tick = { o with cur := o.step, settling := false, byMgmt := false } := by
  rw [o.settled_onward tick hm]
  unfold Oper.onward
  simp only [ht, if_true, Oper.begin_at, hq]

theorem Oper.settled_up (o : Oper) (tick : Nat) (hm : o.mgmt = none) (hs : o.settling = true) (ht : o.step < o.tgt) :
    o.settled tick = { o with cur := o.step, step := o.step + 1, due := tick + Config.settleTicks o.step } := by
  rw [o.settled_onward tick hm, Oper.onward_begins _ _ (Nat.ne_of_lt ht), Oper.begin_up _ _ _ _ ht, hs]

theorem Oper.settled_down (o : Oper) (tick : Nat) (hm : o.mgmt = none) (hs : o.settling = true) (ht : o.tgt < o.step) :
    o.settled tick = { o with
      cur := o.step - 1, step := o.step - 1, due := tick + Config.settleTicks (o.step - 1) } := by
  rw [o.settled_onward tick hm, Oper.onward_begins _ _ (Nat.ne_of_gt ht), Oper.begin_down _ _ _ _ ht, hs]

/-! ### The ticks of a settling step pass (07 R208) -/

/-- The operating point after one tick: a settling that has lasted its ticks ends. -/
theorem ClusterState.pass_oper (c : ClusterState) : c.pass.oper =
    if c.oper.settling = true ∧ c.oper.due ≤ c.tick + 1 then c.oper.settled (c.tick + 1) else c.oper := by
  have he : (if c.tick % 4 = 3 then c.endStep else c).oper = c.oper ∧ (if c.tick % 4 = 3 then c.endStep else c).tick = c.tick := by
    split <;> exact ⟨rfl, rfl⟩
  obtain ⟨ho, ht⟩ := he
  unfold ClusterState.pass
  generalize (if c.tick % 4 = 3 then c.endStep else c) = d at ho ht
  simp only [ho, ht, Bool.and_eq_true, decide_eq_true_eq, apply_ite ClusterState.oper]

theorem ClusterState.passN_succ (c : ClusterState) (n : Nat) : c.passN (n + 1) = (c.passN n).pass := by
  unfold ClusterState.passN
  rw [List.range_succ, List.foldl_append]
  rfl

theorem ClusterState.passN_tick (c : ClusterState) (n : Nat) : (c.passN n).tick = c.tick + n := by
  induction n with
  | zero => rfl
  | succ n ih => rw [c.passN_succ, (c.passN n).pass_frame.2, ih, Nat.add_assoc]

/-- Before a step is due its point stays. -/
theorem ClusterState.passN_early (c : ClusterState) (n : Nat) (h : c.tick + n < c.oper.due) : (c.passN n).oper = c.oper := by
  induction n with
  | zero => rfl
  | succ n ih =>
    have ho := ih (by omega)
    rw [c.passN_succ, ClusterState.pass_oper, ho, c.passN_tick, if_neg (by omega)]

/-- With the tick a step is due at it has settled. -/
theorem ClusterState.passN_due (c : ClusterState) (hs : c.oper.settling = true) (h : c.tick < c.oper.due) :
    (c.passN (c.oper.due - c.tick)).oper = c.oper.settled c.oper.due := by
  obtain ⟨n, hn⟩ : ∃ n, c.oper.due - c.tick = n + 1 := ⟨c.oper.due - c.tick - 1, by omega⟩
  have hd : c.tick + n + 1 = c.oper.due := by omega
  rw [hn, c.passN_succ, ClusterState.pass_oper, c.passN_early n (by omega), c.passN_tick, hd, if_pos ⟨hs, le_refl _⟩]

/-- A step whose ticks have nothing in them has settled at the tick it is due at, or at the present one. -/
theorem exec_opsetSettleStep_settles (s : State) (ha : s.arg.a < 128) (hs : (s.getClu s.arg.a).oper.settling = true)
    (hd : s.settleDue s.arg.a = true) : ∃ u, exec .opsetSettleStep s = .next (s.setClu s.arg.a u) ∧
      u.tick = max (s.getClu s.arg.a).tick (s.getClu s.arg.a).oper.due ∧ u.oper = (s.getClu s.arg.a).oper.settled u.tick := by
  change ∃ u, execOpsetSettleStep s = _ ∧ _
  unfold execOpsetSettleStep
  simp only [Nat.mod_eq_of_lt ha, hs, hd, Bool.and_self, if_true]
  refine ⟨_, rfl, ?_⟩
  generalize s.getClu s.arg.a = u at hs
  by_cases h : u.oper.due ≤ u.tick
  · rw [if_pos h]
    exact ⟨(Nat.max_eq_left h).symm, rfl⟩
  · have h := Nat.lt_of_not_le h
    rw [if_neg (Nat.not_le_of_lt h), u.passN_tick, u.passN_due hs h, Nat.max_eq_right h.le, Nat.add_sub_cancel' h.le]
    exact ⟨rfl, rfl⟩

/-! ### The management processor's transitions (07 R210) -/

theorem exec_mgmtOpTransition_held (s : State) (b : Nat) (ha : s.arg.a < 128) (hb : s.arg.b < 8)
    (h : (s.getClu s.arg.a).oper.back = some b) : exec .mgmtOpTransition s = .next (s.setClu s.arg.a { s.getClu s.arg.a with
      oper := { (s.getClu s.arg.a).oper with back := some s.arg.b } }) := by
  change execMgmtOpTransition s = _
  unfold execMgmtOpTransition
  simp only [Nat.mod_eq_of_lt ha, Nat.mod_eq_of_lt hb, h, Option.isSome_some, if_true]

theorem exec_mgmtOpTransition_asks (s : State) (ha : s.arg.a < 128) (hb : s.arg.b < 8)
    (h : (s.getClu s.arg.a).oper.back = none) : exec .mgmtOpTransition s = .next (s.setClu s.arg.a { s.getClu s.arg.a with
      oper := (s.getClu s.arg.a).oper.ask (s.getClu s.arg.a).tick s.arg.b }) := by
  change execMgmtOpTransition s = _
  unfold execMgmtOpTransition
  simp only [Nat.mod_eq_of_lt ha, Nat.mod_eq_of_lt hb, h, Option.isSome_none, Bool.false_eq_true, if_false]

theorem Oper.ask_settling (o : Oper) (tick t : Nat) (h : o.settling = true) : o.ask tick t = { o with mgmt := some t } := if_pos h

theorem Oper.ask_settled (o : Oper) (tick t : Nat) (h : o.settling = false) :
    o.ask tick t = { o with tgt := t, byMgmt := true }.onward tick := if_neg (by rw [h]; exact Bool.false_ne_true)

theorem Oper.ask_up (o : Oper) (tick t : Nat) (h : o.settling = false) (ht : o.cur < t) : o.ask tick t = { o with
    tgt := t, settling := true, byMgmt := true, step := o.cur + 1, due := tick + Config.settleTicks o.cur } := by
  rw [o.ask_settled tick t h, Oper.onward_begins _ _ (Nat.ne_of_lt ht)]
  exact Oper.begin_up { o with tgt := t, byMgmt := true } tick t true ht

/-! ### Ramps (07 R205) -/

/-- Where nothing was set a table reads its default, and a default set leaves it so; every other key reads as before. -/
theorem NatMap.get_set_ne {α : Type} [DecidableEq α] (d e : α) (m : NatMap α) (k j : Nat) (v : α) (h : j ≠ k) :
    NatMap.get d (NatMap.set e m k v) j = NatMap.get d m j := by
  unfold NatMap.get NatMap.set
  split
  · rw [NatMap.find?_del, if_neg h]
  · rw [NatMap.find?_put, if_neg h]

/-- A ramp register written reads so, and the others as before. -/
theorem ClusterState.rampOf_set (u : ClusterState) (n j : Nat) (v : Word) :
    ClusterState.rampOf { u with ramp := NatMap.set (wd (Config.rampReset n * 65537)) u.ramp n v } j =
      if j = n then v else u.rampOf j := by
  unfold ClusterState.rampOf
  by_cases h : j = n
  · have hd : Config.rampReset n * 65537 = Config.rampReset n * 65536 + Config.rampReset n := by omega
    rw [if_pos h, h, hd, NatMap.get_set_same]
  · rw [if_neg h, NatMap.get_set_ne _ _ _ _ _ _ h]

theorem exec_rampWrite_sets (s : State) (ha : s.arg.a < 128) (hb : s.arg.b < 8) : exec .rampWrite s = .next
    (s.setClu s.arg.a { s.getClu s.arg.a with
      ramp := NatMap.set (wd (Config.rampReset s.arg.b * 65537)) (s.getClu s.arg.a).ramp s.arg.b (s.arg.w &&& 0xFFFFFFFF) }) := by
  change execRampWrite s = _
  unfold execRampWrite
  simp only [Nat.mod_eq_of_lt ha, Nat.mod_eq_of_lt hb]

/-! ### Ceilings (21 R458) -/

/-- Changing clusters one after another by what the management processor holds: it holds the same throughout. -/
theorem foldl_setClu_mgmt (f : Mgmt → ClusterState → ClusterState) (l : List Nat) (s : State) :
    l.foldl (fun t p => t.setClu p (f t.mgmt (t.getClu p))) s =
      l.foldl (fun t p => t.setClu p (f s.mgmt (t.getClu p))) s := by
  induction l generalizing s with
  | nil => rfl
  | cons p l ih => rw [List.foldl_cons, List.foldl_cons, ih, s.setClu_mgmt]

/-- A cluster with the ceiling of a budget. -/
def ClusterState.budgeted (b : Nat) (u : ClusterState) : ClusterState :=
  { u with budgetCeil := budgetWin b u.oper.cur }.ceiled

theorem exec_ceilUpdate_runs (s : State) (h : s.mgmt.power ≠ .off) : exec .ceilUpdate s = .next
    ((List.range 128).foldl (fun t p => t.setClu p ((t.getClu p).budgeted s.mgmt.budget)) s) := by
  change execCeilUpdate s = _
  unfold execCeilUpdate
  rw [if_neg (by simpa using h)]
  exact congrArg Host.Outcome.next (foldl_setClu_mgmt (fun m => ClusterState.budgeted m.budget) (List.range 128) s)

/-! ### Demand (21 R456) -/

/-- The declared weight of one cluster: free, at most 8,191 wu a core, and 0 with no launch on it. -/
theorem State.declared_draws (s : State) (p : Nat) : ∃ n w, s.declared p = ({ s with draws := s.draws + n }, w) ∧
    w ≤ 8 * 8191 ∧ (s.holders p [] = [] → w = 0) := by
  unfold State.declared
  split
  · exact ⟨0, 0, rfl, Nat.zero_le _, fun _ => rfl⟩
  · next h => exact ⟨1, _, rfl, Nat.le_of_lt_succ (Nat.mod_lt _ (by omega)), fun he => absurd (List.isEmpty_iff.mpr he) h⟩

/-- What DEMAND_UPDATE adds up, cluster after cluster. -/
def State.demandOf (a : State × Nat) (p : Nat) : State × Nat :=
  let d := a.1.declared p
  (d.1, a.2 + wattsOf d.2 (d.1.getClu p).oper.cur)

/-- What a cluster's declared weights draw at its point, of the first `n` clusters. -/
def State.drawn (s : State) (w : Nat → Nat) (n : Nat) : Nat :=
  ((List.range n).map fun p => wattsOf (w p) (s.getClu p).oper.cur).sum

theorem foldl_demandOf (s : State) (k : Nat) : ∃ n w,
    (∀ p, w p ≤ 8 * 8191 ∧ (s.holders p [] = [] → w p = 0)) ∧
    (List.range k).foldl State.demandOf (s, 0) = ({ s with draws := s.draws + n }, s.drawn w k) := by
  induction k with
  | zero => exact ⟨0, fun _ => 0, fun _ => ⟨Nat.zero_le _, fun _ => rfl⟩, rfl⟩
  | succ k ih =>
    obtain ⟨n, w, hw, he⟩ := ih
    obtain ⟨m, v, hd, hv, hz⟩ := State.declared_draws { s with draws := s.draws + n } k
    refine ⟨n + m, Function.update w k v, fun p => ?_, ?_⟩
    · by_cases hp : p = k
      · rw [hp, Function.update_self]
        exact ⟨hv, hz⟩
      · rw [Function.update_of_ne hp]
        exact hw p
    · have hsum : s.drawn (Function.update w k v) k = s.drawn w k :=
        congrArg List.sum (List.map_congr_left fun p hp => by
          rw [Function.update_of_ne (Nat.ne_of_lt (List.mem_range.mp hp))])
      have hnext : s.drawn (Function.update w k v) (k + 1) = s.drawn w k + wattsOf v (s.getClu k).oper.cur := by
        rw [← hsum]
        unfold State.drawn
        rw [List.range_succ, List.map_append, List.sum_append]
        simp only [List.map_cons, List.map_nil, List.sum_cons, List.sum_nil, Function.update_self, Nat.add_zero]
      rw [List.range_succ, List.foldl_append, he, hnext, List.foldl_cons, List.foldl_nil]
      unfold State.demandOf
      rw [hd, Nat.add_assoc]
      rfl

theorem exec_demandUpdate_draws (s : State) (h : s.mgmt.power ≠ .off) : ∃ n w,
    (∀ p, w p ≤ 8 * 8191 ∧ (s.holders p [] = [] → w p = 0)) ∧
    exec .demandUpdate s = .next { s with
      draws := s.draws + n, mgmt := { s.mgmt with dem := min 4095 (1520 + s.drawn w 128 / 160000000) } } := by
  obtain ⟨n, w, hw, he⟩ := foldl_demandOf s 128
  refine ⟨n, w, hw, ?_⟩
  change execDemandUpdate s = _
  unfold execDemandUpdate
  rw [if_neg (by simpa using h)]
  generalize List.range 128 = l at he ⊢
  exact congrArg (fun r : State × Nat => Host.Outcome.next
    { r.1 with mgmt := { r.1.mgmt with dem := min 4095 (1520 + r.2 / 160000000) } }) he

end Sys2Proof.Machine
end

section
/-! ## Cooling, and the statement about operating points (21 R460, R461) -/

namespace Sys2Proof.Machine

open Sys2Proof Sys2Proof.Claims

/-! ### The clusters of a die changed -/

/-- The first `n` clusters of a die changed one after another: each is changed by its own state, and no other cluster is. -/
theorem foldl_die_getClu (d : Nat) (f : ClusterState → ClusterState) (n : Nat) (s : State) (p : Nat) :
    ((List.range n).foldl (fun s i => s.setClu (16 * d + i) (f (s.getClu (16 * d + i)))) s).getClu p =
      if 16 * d ≤ p ∧ p < 16 * d + n then f (s.getClu p) else s.getClu p := by
  induction n generalizing p with
  | zero => rw [if_neg (by omega)]; rfl
  | succ n ih =>
    rw [List.range_succ, List.foldl_append, List.foldl_cons, List.foldl_nil, State.getClu_setClu, ih, ih,
      if_neg (show ¬ (16 * d ≤ 16 * d + n ∧ 16 * d + n < 16 * d + n) by omega)]
    by_cases h : p = 16 * d + n
    · rw [if_pos h, if_pos (by omega), h]
    · rw [if_neg h]
      exact if_congr (by omega) rfl rfl

theorem State.getClu_modDie (s : State) (d : Nat) (f : ClusterState → ClusterState) (p : Nat) :
    (s.modDie d f).getClu p = if p / 16 = d then f (s.getClu p) else s.getClu p :=
  (foldl_die_getClu d f 16 s p).trans (if_congr (by omega) rfl rfl)

theorem State.modDie_only (s : State) (d : Nat) (f : ClusterState → ClusterState) :
    ∃ u us, s.modDie d f = { s with clu := u, clus := us } := by
  refine List.foldlRecOn (motive := fun t : State => ∃ u us, t = { s with clu := u, clus := us }) _ _
    ⟨s.clu, s.clus, rfl⟩ ?_
  rintro t ⟨u, us, rfl⟩ i -
  unfold State.setClu
  split <;> exact ⟨_, _, rfl⟩

/-! ### One thermal period (21 R460, R461) -/

/-- The valve of a zone by its temperature: 64 to 60 °C, 255 from 90 °C, in proportion between. -/
theorem valveFor_eq (t : Int) :
    valveFor t = if t ≤ 240 then 64 else if 360 ≤ t then 255 else (64 + (t - 240) * 191 / 120).toNat := by
  unfold valveFor
  split
  · omega
  · split <;> omega

/-- What the management processor has read and set of a die whose sensor answers. -/
def Mgmt.heated (m : Mgmt) (a : EvArgs) : Mgmt :=
  { m with
    flow := NatMap.set 0 (NatMap.set 0 m.flow (a.a % 8) a.b) 8 a.c
    coolant := NatMap.set 0 (NatMap.set 0 m.coolant (a.a % 8) a.w.toInt) 8 a.x.toInt
    valve := NatMap.set 0 m.valve (a.a % 8) (valveFor a.temp)
    pump := pumpFor (NatMap.set 0 m.valve (a.a % 8) (valveFor a.temp))
    temp := NatMap.set 0 m.temp (a.a % 8) a.temp
    silent := NatMap.set false m.silent (a.a % 8) false
    tripped := NatMap.set false m.tripped (a.a % 8) (decide (420 ≤ a.temp)) }

/-- A cluster with the thermal headroom and the thermal ceiling of its die's temperature. -/
def ClusterState.heated (t : Int) (u : ClusterState) : ClusterState :=
  { u with hr := throttleAt - t, theta := nextTheta u.theta t }.ceiled

/-- A cluster of a die that trips. -/
def ClusterState.tripped (u : ClusterState) : ClusterState := { u with oper := u.oper.trip u.tick }

/-- A die that had not tripped and whose sensor answers: its clusters are heated, and trip at 105 °C, which is logged. -/
theorem exec_thermalUpdate_runs (s : State) (hf : s.arg.flag = false) (hp : s.mgmt.power ≠ .off)
    (ht : NatMap.get false s.mgmt.tripped (s.arg.a % 8) = false) :
    let v := State.modDie { s with mgmt := s.mgmt.heated s.arg } (s.arg.a % 8) (ClusterState.heated s.arg.temp)
    exec .thermalUpdate s = .next (if 420 ≤ s.arg.temp then
      (v.modDie (s.arg.a % 8) ClusterState.tripped).logError 63 2 0x0012 false 0 0 none (s.arg.a % 8 * 2 ^ 52) else v) := by
  change execThermalUpdate s = _
  unfold execThermalUpdate
  have hoff : (s.mgmt.power == .off) = false := by simpa using hp
  simp only [hf, hoff, ht, Bool.false_eq_true, if_false, Bool.not_false, Bool.true_and, Bool.false_and, Bool.false_or,
    Bool.and_true, decide_eq_true_eq]
  rfl

/-- A cluster after one thermal period of its die. -/
def ClusterState.periodOver (t : Int) (u : ClusterState) : ClusterState :=
  if 420 ≤ t then (u.heated t).tripped else u.heated t

theorem exec_thermalUpdate_leaves (s : State) (ha : s.arg.a < 8) (hf : s.arg.flag = false) (hp : s.mgmt.power ≠ .off)
    (ht : NatMap.get false s.mgmt.tripped s.arg.a = false) : ∃ t, exec .thermalUpdate s = .next t ∧ t.ctx = s.ctx ∧
      t.mem = s.mem ∧ t.mgmt = s.mgmt.heated s.arg ∧
      ∀ p, t.getClu p = if p / 16 = s.arg.a then (s.getClu p).periodOver s.arg.temp else s.getClu p := by
  have hd := Nat.mod_eq_of_lt ha
  have hrun := exec_thermalUpdate_runs s hf hp (by rw [hd]; exact ht)
  dsimp only at hrun
  rw [hd] at hrun
  refine ⟨_, hrun, ?_⟩
  obtain ⟨u, us, hv⟩ := State.modDie_only { s with mgmt := s.mgmt.heated s.arg } s.arg.a (ClusterState.heated s.arg.temp)
  have hclu (p : Nat) := State.getClu_modDie { s with mgmt := s.mgmt.heated s.arg } s.arg.a (ClusterState.heated s.arg.temp) p
  generalize State.modDie { s with mgmt := s.mgmt.heated s.arg } s.arg.a (ClusterState.heated s.arg.temp) = v at hv hclu
  unfold ClusterState.periodOver
  split
  · obtain ⟨x, xs, hw⟩ := v.modDie_only s.arg.a ClusterState.tripped
    have hclu' (p : Nat) := v.getClu_modDie s.arg.a ClusterState.tripped p
    generalize v.modDie s.arg.a ClusterState.tripped = w at hw hclu'
    obtain ⟨m, c, o, he⟩ := w.logError_only 63 2 0x0012 false 0 0 none (s.arg.a * 2 ^ 52)
    rw [he]
    refine ⟨by rw [hw, hv], by rw [hw, hv], by rw [hw, hv], fun p => (hclu' p).trans ?_⟩
    rw [hclu p]
    split <;> rfl
  · exact ⟨by rw [hv], by rw [hv], by rw [hv], hclu⟩

theorem Oper.begin_target (o : Oper) (tick tgt : Nat) (m : Bool) :
    (o.begin tick tgt m).back = o.back ∧ (o.begin tick tgt m).tgt = tgt := by
  unfold Oper.begin
  split <;> exact ⟨rfl, rfl⟩

/-- While a die is held at OP0 what was queued stays queued: the target in force goes on. -/
theorem Oper.onward_held (o : Oper) (tick b : Nat) (h : o.back = some b) :
    (o.onward tick).back = some b ∧ (o.onward tick).tgt = o.tgt := by
  obtain ⟨hback, htgt⟩ := o.begin_target tick o.tgt false
  unfold Oper.onward
  split
  · dsimp only
    split
    · next hn => exact absurd (hn.symm.trans (hback.trans h)) (Option.some_ne_none b).symm
    · exact ⟨hback.trans h, htgt⟩
  · obtain ⟨hback, htgt⟩ := o.begin_target tick o.tgt o.byMgmt
    exact ⟨hback.trans h, htgt⟩

/-- A settled cluster of a die that trips goes to OP0, to come back to its point (21 R461). -/
theorem Oper.trip_settled (o : Oper) (tick : Nat) (hb : o.back = none) (hm : o.mgmt = none) (hs : o.settling = false) :
    (o.trip tick).back = some o.cur ∧ (o.trip tick).tgt = 0 := by
  have ht : o.trip tick = Oper.ask { o with back := some o.cur } tick 0 := by
    unfold Oper.trip
    simp only [hb, hm, hs, Option.isSome_none, Bool.false_eq_true, if_false]
  rw [ht, Oper.ask_settled { o with back := some o.cur } tick 0 hs]
  exact Oper.onward_held { o with back := some o.cur, tgt := 0, byMgmt := true } tick o.cur rfl

/-- Headroom and ceilings after a thermal period, whether the die trips or not. -/
theorem ClusterState.periodOver_ceilings (t : Int) (u : ClusterState) : (u.periodOver t).hr = throttleAt - t ∧
    (u.periodOver t).theta = nextTheta u.theta t ∧ (u.periodOver t).budgetCeil = u.budgetCeil ∧
    (u.periodOver t).ceilNew = some (wd (min u.budgetCeil (nextTheta u.theta t))) := by
  unfold ClusterState.periodOver
  split <;> exact ⟨rfl, rfl, rfl, rfl⟩

theorem ClusterState.periodOver_oper (t : Int) (u : ClusterState) :
    (u.periodOver t).oper = if 420 ≤ t then u.oper.trip u.tick else u.oper := by
  unfold ClusterState.periodOver
  split <;> rfl

/-! ### The statement -/

/-- Settles O42: each clause is what the lemmas about its event say. -/
theorem operatingPointsFollowPowerAndHeat : Obligations.OperatingPointsFollowPowerAndHeat := by
  unfold Obligations.OperatingPointsFollowPowerAndHeat
  refine ⟨fun s ha => ⟨?settles, ?waits, ?starts, ?held, ?ramp, ?ceil, ?demand⟩, ?thermal⟩
  case settles =>
    intro hs hd hm
    obtain ⟨u, hrun, htick, hoper⟩ := exec_opsetSettleStep_settles s ha hs hd
    refine ⟨_, u, hrun, s.setClu_cluSet _ u, htick, ?_⟩
    rw [hoper]
    exact ⟨Oper.settled_there _ _ hm, Oper.settled_up _ _ hm hs, Oper.settled_down _ _ hm hs⟩
  case waits =>
    intro hb hback hs
    refine ⟨_, exec_mgmtOpTransition_asks s ha hb hback, ?_⟩
    rw [Oper.ask_settling _ _ _ hs]
    exact s.setClu_cluSet _ _
  case starts =>
    intro hb hback hs hlt
    refine ⟨_, exec_mgmtOpTransition_asks s ha hb hback, ?_⟩
    rw [Oper.ask_up _ _ _ hs hlt]
    exact s.setClu_cluSet _ _
  case held =>
    intro b hb hback
    exact ⟨_, exec_mgmtOpTransition_held s b ha hb hback, s.setClu_cluSet _ _⟩
  case ramp =>
    intro hb
    refine ⟨_, _, exec_rampWrite_sets s ha hb, s.setClu_cluSet _ _, ?_, fun n _ hn => ?_, rfl⟩
    · rw [ClusterState.rampOf_set, if_pos rfl]
    · rw [ClusterState.rampOf_set, if_neg hn]
  case ceil =>
    intro hp
    obtain ⟨u, us, he⟩ := foldl_setClu_frame (ClusterState.budgeted s.mgmt.budget) (List.range 128) s
    refine ⟨_, exec_ceilUpdate_runs s hp, by rw [he], by rw [he], fun p hlt => ?_⟩
    rw [foldl_setClu_getClu (ClusterState.budgeted s.mgmt.budget) 128 p s, if_pos hlt]
    dsimp only
    rw [Nat.min_comm (s.getClu p).theta]
    rfl
  case demand =>
    exact exec_demandUpdate_draws s
  case thermal =>
    intro s ha hf hp ht
    obtain ⟨t, hrun, hctx, hmem, hmgmt, hclu⟩ := exec_thermalUpdate_leaves s ha hf hp ht
    refine ⟨t, hrun, hctx, hmem, ?temp, ?valve, ?tripped, fun p _ hd => by rw [hclu, if_neg hd], fun p _ hd => ?_⟩
    case temp =>
      rw [hmgmt, ← Nat.mod_eq_of_lt ha]
      exact (NatMap.get_set_same _ _ _ _)
    case valve =>
      rw [hmgmt, ← Nat.mod_eq_of_lt ha, ← valveFor_eq]
      exact NatMap.get_set_same _ _ _ _
    case tripped =>
      rw [hmgmt, ← Nat.mod_eq_of_lt ha]
      exact NatMap.get_set_same _ _ _ _
    obtain ⟨hhr, htheta, hbudget, hceil⟩ := (s.getClu p).periodOver_ceilings s.arg.temp
    rw [hclu, if_pos hd, ClusterState.periodOver_oper, htheta]
    refine ⟨hhr, rfl, hbudget, hceil, fun hcool => if_neg (not_le.mpr hcool), fun hhot hb hm hs => ?_⟩
    rw [if_pos hhot]
    exact Oper.trip_settled _ _ hb hm hs

end Sys2Proof.Machine
end

section
/-! ## What a bundle that issues is, and what its issue leaves (07 R188, R194, R196, 08 R218) -/

namespace Sys2Proof.Machine

open Sys2Proof

/-! ### The words of a plan -/

theorem mem_inSlotOrder {x : Slot × Option Nat × Bool} {l : List (Slot × Option Nat × Bool)} (h : x ∈ inSlotOrder l) : x ∈ l := by
  obtain ⟨_, _, hx⟩ := List.mem_flatMap.mp h
  exact (List.mem_filter.mp hx).1

/-- A hold that repeats is one of the context's, and its position is not taken (07 R194). -/
theorem State.repeats_hold (s : State) (present : List Nat) (h : Hold) (hh : h ∈ s.repeats present) :
    slotPos h.slot ∉ present ∧ ∃ k ∈ s.ctx.holds, k.slot = h.slot := by
  obtain ⟨k, hk, rfl⟩ := List.mem_map.mp hh
  obtain ⟨hk, hfree⟩ := List.mem_filter.mp hk
  have hfree : slotPos k.slot ∉ present := by simpa using hfree
  exact ⟨hfree, k, hk, rfl⟩

/-- The words of a plan: those that run anew, and the holds that repeat where the position is not among those present. -/
def State.planWords (s : State) (run : List (Slot × Option Nat × Bool)) (present : List Nat) : List (Slot × Option Nat × Bool) :=
  inSlotOrder (run ++ (s.repeats present).map fun h => (h.slot, none, true))

theorem State.mem_planWords (s : State) (run : List (Slot × Option Nat × Bool)) (present : List Nat)
    (x : Slot × Option Nat × Bool) (hx : x ∈ s.planWords run present) :
    x ∈ run ∨ x.2.2 = true ∧ ∃ h ∈ s.repeats present, h.slot = x.1 := by
  refine (List.mem_append.mp (mem_inSlotOrder hx)).imp id fun hx => ?_
  obtain ⟨h, hh, rfl⟩ := List.mem_map.mp hx
  exact ⟨rfl, h, hh, rfl⟩

/-- A plan's held words are holds of the context, and stand where no other word of it does. -/
def heldWhereFree (s : State) (words : List (Slot × Option Nat × Bool)) : Prop :=
  ∀ x ∈ words, x.2.2 = true → (∃ h ∈ s.ctx.holds, h.slot = x.1) ∧ ∀ y ∈ words, y.2.2 = false → slotPos y.1 ≠ slotPos x.1

theorem State.planWords_held (s : State) (run : List (Slot × Option Nat × Bool)) (present : List Nat)
    (hrun : ∀ y ∈ run, y.2.2 = false ∧ slotPos y.1 ∈ present) : heldWhereFree s (s.planWords run present) := by
  intro x hx hheld
  obtain hr | ⟨-, h, hh, hslot⟩ := s.mem_planWords run present x hx
  · exact absurd ((hrun x hr).1.symm.trans hheld) Bool.false_ne_true
  · obtain ⟨hfree, hk⟩ := s.repeats_hold present h hh
    rw [hslot] at hfree hk
    refine ⟨hk, fun y hy hnew he => ?_⟩
    obtain hr | ⟨hheld, -⟩ := s.mem_planWords run present y hy
    · exact hfree (he ▸ (hrun y hr).2)
    · exact absurd (hnew.symm.trans hheld) Bool.false_ne_true

/-- The words of a decoded bundle run anew, in their own positions. -/
theorem State.planOf_held (s : State) (addr : Nat) (b : Bundle) : heldWhereFree s (s.planOf addr b).words := by
  refine s.planWords_held (b.words.map fun x => (x, none, false)) (b.words.map slotPos) fun y hy => ?_
  obtain ⟨w, hw, rfl⟩ := List.mem_map.mp hy
  exact ⟨rfl, List.mem_map_of_mem hw⟩

/-- The body bundles of a loop tick's phase, numbered. -/
def Seq.phase (q : Seq) : List (Nat × Nat × Nat × Bool × List Slot) :=
  ((List.range q.body.length).zip q.body).filter fun x => x.1 % q.ii == q.tick % q.ii

theorem Seq.mem_phase (q : Seq) (x : Nat × Nat × Nat × Bool × List Slot) (h : x ∈ q.phase) :
    q.body[x.1]? = some x.2 ∧ x.1 % q.ii = q.tick % q.ii := by
  obtain ⟨hz, hp⟩ := List.mem_filter.mp h
  obtain ⟨i, hi⟩ := List.mem_iff_getElem?.mp hz
  obtain ⟨hr, hb⟩ := List.getElem?_zip_eq_some.mp hi
  obtain ⟨_, hx⟩ := List.getElem?_eq_some_iff.mp hr
  rw [List.getElem_range] at hx
  exact ⟨hx ▸ hb, by simpa using hp⟩

/-- The words that a loop tick runs anew: of each body bundle of its phase, where an iteration is due. -/
def Seq.running (q : Seq) : List (Slot × Option Nat × Bool) :=
  q.phase.flatMap fun x => match q.iterOf q.tick x.1 with
    | some i => x.2.2.2.2.map fun w => (w, some i, false)
    | none => []

theorem Seq.iterOf_some {q : Seq} {t b i : Nat} (h : q.iterOf t b = some i) :
    b ≤ t ∧ i = (t - b) / q.ii ∧ (t - b) / q.ii < q.rounds := by
  unfold Seq.iterOf at h
  split at h
  · next hb => exact ⟨hb.1, (Option.some.inj h).symm, hb.2⟩
  · exact absurd h.symm (Option.some_ne_none i)

theorem Seq.mem_running (q : Seq) (x : Slot × Option Nat × Bool) (h : x ∈ q.running) : x.2.2 = false ∧
    ∃ y ∈ q.phase, x.1 ∈ y.2.2.2.2 ∧ y.1 ≤ q.tick ∧ x.2.1 = some ((q.tick - y.1) / q.ii) ∧ (q.tick - y.1) / q.ii < q.rounds := by
  obtain ⟨y, hy, hx⟩ := List.mem_flatMap.mp h
  cases hi : q.iterOf q.tick y.1 with
  | none => simp [hi] at hx
  | some i =>
    obtain ⟨hle, rfl, hlt⟩ := Seq.iterOf_some hi
    rw [hi] at hx
    obtain ⟨w, hw, rfl⟩ := List.mem_map.mp hx
    exact ⟨rfl, y, hy, hw, hle, rfl, hlt⟩

theorem State.planTick_words (s : State) (q : Seq) :
    (s.planTick q).words = s.planWords q.running (q.phase.flatMap fun x => x.2.2.2.2.map slotPos) := rfl

theorem State.planTick_held (s : State) (q : Seq) : heldWhereFree s (s.planTick q).words := by
  refine s.planWords_held q.running _ fun x hx => ?_
  obtain ⟨hnew, y, hy, hw, -⟩ := q.mem_running x hx
  exact ⟨hnew, List.mem_flatMap.mpr ⟨y, hy, List.mem_map_of_mem hw⟩⟩

/-- What a loop tick runs anew is a word of a body bundle of its phase, in the iteration due (07 R196). -/
theorem State.planTick_iterations (s : State) (q : Seq) (x : Slot × Option Nat × Bool) (hx : x ∈ (s.planTick q).words)
    (hnew : x.2.2 = false) : ∃ b w, q.body[b]? = some w ∧ x.1 ∈ w.2.2.2 ∧ b % q.ii = q.tick % q.ii ∧ b ≤ q.tick ∧
      x.2.1 = some ((q.tick - b) / q.ii) ∧ (q.tick - b) / q.ii < q.rounds := by
  obtain hr | ⟨hheld, -⟩ := s.mem_planWords _ _ x hx
  · obtain ⟨-, y, hy, hw, hle, hi, hlt⟩ := q.mem_running x hr
    obtain ⟨hb, hmod⟩ := q.mem_phase y hy
    exact ⟨y.1, y.2, hb, hw, hmod, hle, hi, hlt⟩
  · exact absurd (hnew.symm.trans hheld) Bool.false_ne_true

/-! ### The bundle due -/

theorem State.planNext_loop (s : State) (q : Seq) (h : s.ctx.seq = some q) : s.planNext = .ok (s.planTick q) := by
  unfold State.planNext
  rw [h]

/-- Outside a loop the bundle due is a decoded one. -/
theorem State.planNext_decoded (s : State) (p : Plan) (h : s.ctx.seq = none) (hp : s.planNext = .ok p) :
    ∃ b, p = s.planOf s.ctx.pc b := by
  unfold State.planNext at hp
  rw [h] at hp
  dsimp only at hp
  split at hp
  · cases hp
  · split at hp
    · cases hp
    · split at hp
      · cases hp
      · split at hp
        · cases hp
        · split at hp <;> cases hp
        · cases hp
      · split at hp
        · cases hp
        · split at hp
          · cases hp
          · exact ⟨_, (Except.ok.inj hp).symm⟩

theorem State.planNext_held (s : State) (p : Plan) (hp : s.planNext = .ok p) : heldWhereFree s p.words := by
  cases h : s.ctx.seq with
  | none =>
    obtain ⟨b, rfl⟩ := s.planNext_decoded p h hp
    exact s.planOf_held _ b
  | some q =>
    rw [s.planNext_loop q h] at hp
    exact Except.ok.inj hp ▸ s.planTick_held q

/-! ### From the bundle due to the bundle that issues -/

theorem State.setCore_ctx (s : State) (i : Nat) (k : CoreState) : (s.setCore i k).ctx = s.ctx := by
  unfold State.setCore
  split <;> rfl

theorem State.foundInCore_ctx (s : State) (id : Nat) (unc : Bool) : (s.foundInCore id unc).ctx = s.ctx := by
  have h (sev code : Nat) := (s.logError_frame (coreBank id) sev code unc 0 0 (some (s.originOf id))).1
  unfold State.foundInCore
  dsimp only
  split
  · exact h 2 2
  · exact (State.setCore_ctx _ _ _).trans (h 1 1)

/-- Looking at the registers that a bundle reads leaves what decides on its words. -/
theorem State.regsFound_keeps (s : State) (p : Plan) :
    (s.regsFound p).ctx.seq = s.ctx.seq ∧ (s.regsFound p).ctx.holds = s.ctx.holds := by
  unfold State.regsFound
  split
  · exact ⟨rfl, rfl⟩
  · refine List.foldlRecOn (motive := fun t : State => t.ctx.seq = s.ctx.seq ∧ t.ctx.holds = s.ctx.holds) _ _ ⟨rfl, rfl⟩ ?_
    rintro t ht u -
    dsimp only
    rw [← t.foundInCore_ctx t.cur u.unc] at ht
    split
    · exact ht
    · split <;> exact ht

/-- A plan is offered only where none of the checks before it withholds it. -/
theorem else_offers {c : Prop} [Decidable c] {u t : State} {p : Plan} {r : State × Option Plan}
    (h : (if c then (u, none) else r) = (t, some p)) : r = (t, some p) := by
  split at h
  · cases h
  · exact h

/-- A bundle that is offered is the one due. -/
theorem State.offer_plan (s t : State) (p : Plan) (h : s.offer = (t, some p)) :
    ∃ v : State, v.planNext = .ok p ∧ t = v.regsFound p := by
  unfold State.offer at h
  split at h
  · cases h
  · dsimp only at h
    generalize ((s.thaw Freeze.again).boundary.reload).fetchDue = v at h
    cases hp : v.planNext with
    | error e => rw [hp] at h; cases h
    | ok q =>
      rw [hp] at h
      dsimp only at h
      split at h
      · cases h
      · have h := else_offers (else_offers h)
        split at h
        · cases h
        · split at h
          · cases h
          · obtain ⟨rfl, ho⟩ := Prod.mk.inj (else_offers (else_offers (else_offers (else_offers h))))
            obtain rfl := Option.some.inj ho
            exact ⟨v, hp, rfl⟩

/-- Where a bundle is offered, it is so in the present tick or in the next. -/
theorem State.offered_offer (s t : State) (p : Plan) (h : s.offered = (t, some p)) : ∃ u : State, u.offer = (t, some p) := by
  unfold State.offered at h
  split at h
  · cases h
  · split at h
    · exact ⟨s, h⟩
    · split at h
      · exact ⟨s.nextTick s.clusterId, h⟩
      · cases h

/-- What issues is what was offered. -/
theorem State.prep_offered (s t : State) (p : Plan) (h : s.prep = (t, some p)) : s.offered = (t, some p) := by
  unfold State.prep at h
  cases ho : s.offered with
  | mk u o =>
    cases o with
    | none => rw [ho] at h; cases h
    | some q =>
      rw [ho] at h
      dsimp only at h
      split at h
      · cases h
      · split at h <;> cases h
        rfl

/-- What issues is the bundle due, in a state that has its loop and its holds. -/
theorem State.prep_plan (s t : State) (p : Plan) (h : s.prep = (t, some p)) :
    ∃ v : State, v.planNext = .ok p ∧ t.ctx.seq = v.ctx.seq ∧ t.ctx.holds = v.ctx.holds := by
  obtain ⟨u, hu⟩ := s.offered_offer t p (s.prep_offered t p h)
  obtain ⟨v, hv, rfl⟩ := u.offer_plan t p hu
  exact ⟨v, hv, v.regsFound_keeps p⟩

theorem State.prep_held (s t : State) (p : Plan) (h : s.prep = (t, some p)) : heldWhereFree t p.words := by
  obtain ⟨v, hv, -, hholds⟩ := s.prep_plan t p h
  unfold heldWhereFree
  rw [hholds]
  exact v.planNext_held p hv

theorem State.prep_loop (s t : State) (p : Plan) (q : Seq) (h : s.prep = (t, some p)) (hq : t.ctx.seq = some q) :
    ∃ v : State, p = v.planTick q := by
  obtain ⟨v, hv, hseq, -⟩ := s.prep_plan t p h
  rw [v.planNext_loop q (hseq ▸ hq)] at hv
  exact ⟨v, (Except.ok.inj hv).symm⟩

/-- Where the context may not issue, nothing is prepared. -/
theorem State.prep_none (s : State) (h : s.mayIssue = false) : s.prep = (s, none) := by
  have ho : s.offered = (s, none) := if_pos (by rw [h]; rfl)
  unfold State.prep
  rw [ho]

theorem State.frontIf_issues (s t : State) (p : Plan) (f : State → Plan → Bool) (h : s.prep = (t, some p))
    (hf : f t p = true) : s.frontIf f = t.commit p := by
  unfold State.frontIf
  rw [h]
  exact if_pos hf

theorem State.frontIf_stays (s : State) (f : State → Plan → Bool) (h : s.mayIssue = false) : s.frontIf f = s := by
  unfold State.frontIf
  rw [s.prep_none h]

/-! ### What issuing leaves -/

/-- The stores on their way that an array stream must see reach the scratchpad first; they leave traces there. -/
theorem State.beforeStream_ctx (s : State) (p : Plan) : (if s.streaming p then s.flushPad else s).ctx = s.ctx := by
  split
  · obtain ⟨_, _, _, _, _, _, _, _, _, _, _, _, _, -, he⟩ := s.flush_traces fun f =>
      f.seenBy s.cur s.cur && f.ws.any fun g => g.addr / 0x1000000 == localPa s.clusterId 0 / 0x1000000
    unfold State.flushPad
    rw [he]
  · rfl

theorem State.commit_moves (s : State) (p : Plan) : let t := s.commit p
    t.ctx.seq = s.ctx.seq.map (fun q => { q with tick := q.tick + 1 }) ∧
    t.ctx.pc = p.next ∧ t.ctx.regs = s.ctx.regs ∧ t.ctx.c = s.ctx.c ∧ t.ctx.q = s.ctx.q ∧
    (s.flights = [] → t.mem = s.mem) ∧ t.issue.live = true ∧ t.issue.addr = p.addr := by
  have hctx := s.beforeStream_ctx p
  have hmem (h : s.flights = []) : (if s.streaming p then s.flushPad else s) = s := by
    split
    · exact s.flush_none _ h
    · rfl
  unfold State.commit
  generalize (if s.streaming p then s.flushPad else s) = v at hctx hmem
  dsimp only
  rw [hctx]
  exact ⟨rfl, rfl, rfl, rfl, rfl, fun h => by rw [hmem h], rfl, rfl⟩

end Sys2Proof.Machine
end

section
/-! ## Lock-step groups (07 R191 to R193, 09 R254) -/

namespace Sys2Proof.Machine

open Sys2Proof

/-! ### Contexts changed by a list of numbers -/

/-- Running contexts changed one after another, each in a way that is the same done twice: those of the list are changed, and no
other is. -/
theorem foldl_modCtx_each (f : Nat → Context → Context) (hf : ∀ i c, f i (f i c) = f i c) (ids : List Nat)
    (hids : ∀ i ∈ ids, i < 4096) (s : State) (j : Nat) :
    (ids.foldl (fun s i => s.modCtx i (f i)) s).getCtx j = if j ∈ ids then f j (s.getCtx j) else s.getCtx j := by
  induction ids generalizing s with
  | nil => rfl
  | cons i ids ih =>
    rw [List.foldl_cons, ih (fun k hk => hids k (List.mem_cons_of_mem i hk)),
      s.getCtx_modCtx i j (f i) (.inl (hids i List.mem_cons_self))]
    by_cases hj : j = i
    · subst hj
      simp only [if_true, List.mem_cons_self, hf, ite_self]
    · simp only [hj, if_false, List.mem_cons, false_or]

theorem foldl_modCtx_mem (f : Nat → Context → Context) (ids : List Nat) (s : State) :
    (ids.foldl (fun s i => s.modCtx i (f i)) s).mem = s.mem :=
  (foldl_keepsClu ids _ (fun t i => t.modCtx_keepsClu i (f i)) s).2.2.2

theorem NatMap.get_del_ne {α : Type} (d : α) (m : NatMap α) (k j : Nat) (h : j ≠ k) :
    NatMap.get d (NatMap.del m k) j = NatMap.get d m j := by
  unfold NatMap.get
  rw [NatMap.find?_del, if_neg h]

/-- Moving the focus leaves every running context as it is. -/
theorem State.getCtx_focus (s : State) (i j : Nat) (hj : j < 4096) : (s.focus i).getCtx j = s.getCtx j := by
  have hn : ¬ 4096 ≤ j := Nat.not_le_of_lt hj
  unfold State.focus
  split
  · rfl
  · by_cases h : j = i
    · subst h
      exact State.getCtx_cur _
    · refine (if_neg h).trans ((if_neg hn).trans ?_)
      dsimp only
      rw [NatMap.get_del_ne _ _ _ _ h, NatMap.get_set]
      unfold State.getCtx
      rw [if_neg hn]

/-! ### Lock-step starts, is suspended, and lets its members go (07 R192, R193) -/

/-- A context in lock-step, or not. -/
def Context.atG (c : Context) (b : Bool) : Context :=
  { c with c := { c.c with gid := if b then c.c.gid ||| 0x100 else c.c.gid &&& ~~~ 0x100 } }

/-- A context that its group does not hold. -/
def Context.unheld (c : Context) : Context := { c with freezes := c.freezes.filter fun f => f != .lockstep }

/-- A context that its group holds. -/
def Context.held (c : Context) : Context := { c.unheld with freezes := .lockstep :: c.unheld.freezes }

theorem gid_lockstep (w : Word) : setBits w 8 1 1 = w ||| 0x100 := by
  have h (m : Word) : (w &&& ~~~ m) ||| m = w ||| m := by
    ext i hi
    simp only [BitVec.getElem_or, BitVec.getElem_and, BitVec.getElem_not]
    cases w[i] <;> cases m[i] <;> rfl
  exact h 0x100

theorem gid_suspended (w : Word) : setBits w 8 1 0 = w &&& ~~~ 0x100 := by
  unfold setBits wd
  simp

theorem Context.atG_atG (c : Context) (b : Bool) : (c.atG b).atG b = c.atG b := by
  unfold Context.atG
  cases b
  · simp [BitVec.and_assoc]
  · simp [BitVec.or_assoc]

/-- A member as lock-step is suspended: where its bundle has G, its group goes on holding it. -/
def Context.suspended (g : Bool) (c : Context) : Context := if g then c.atG false else (c.atG false).unheld

theorem Context.unheld_unheld (c : Context) : c.unheld.unheld = c.unheld := by
  unfold Context.unheld
  simp

theorem Context.suspended_suspended (g : Bool) (c : Context) : (c.suspended g).suspended g = c.suspended g := by
  have hcomm : (c.atG false).unheld.atG false = ((c.atG false).atG false).unheld := rfl
  unfold Context.suspended
  cases g
  · simp only [Bool.false_eq_true, if_false, hcomm, Context.atG_atG, Context.unheld_unheld]
  · exact c.atG_atG false

theorem Context.held_held (c : Context) : c.held.held = c.held := by
  unfold Context.held Context.unheld
  simp

/-- The group that an event of lock-step names. -/
def State.groupIds (s : State) : List Nat := s.memberIds s.arg.a s.arg.b

/-- The state in which no member of the group waits for it. -/
def State.groupFreed (s : State) : State := s.groupIds.foldl (fun s id => s.modCtx id Context.unheld) s

theorem exec_lockstepStart_starts (s : State) (hne : s.groupIds ≠ [])
    (hall : ∀ id ∈ s.groupIds, (s.getCtx id).members = s.groupIds.length ∧ (s.getCtx id).c.gid.getLsbD 8 = false ∧
      Freeze.lockstep ∈ (s.getCtx id).freezes ∧ s.nextG id = true) :
    exec .lockstepStart s = .next (s.groupIds.foldl (fun s id => s.modCtx id fun c => c.atG true) s) := by
  change execLockstepStart s = _
  unfold execLockstepStart
  simp only [gid_lockstep]
  refine congrArg Host.Outcome.next (if_pos ?_)
  rw [Bool.and_eq_true, List.all_eq_true]
  refine ⟨by simpa [State.groupIds] using hne, fun id hid => ?_⟩
  obtain ⟨hm, hg, hf, hn⟩ := hall id hid
  rw [hm, hg, hn, List.contains_iff_mem.mpr hf]
  simp [State.groupIds]

/-- A member of a group in lock-step that nothing but the group holds (07 R193). -/
def State.memberReady (s : State) (id : Nat) : Prop :=
  (s.getCtx id).c.gid.getLsbD 8 = true ∧ (s.groupFreed.focus id).mayIssue = true ∧ s.hasRoom id = true ∧
    Freeze.lockstep ∈ (s.getCtx id).freezes ∧ ∀ l, s.launchOf (s.getCtx id) = some l → l.halt = none

/-- A group whose members are ready: each tries its bundle. Where one would not issue, all are held; else all go on, and where
only some of their bundles have G, lock-step is suspended and the members at theirs are held. -/
theorem exec_groupTick_tries (s : State) (hne : s.groupIds ≠ []) (hall : ∀ id ∈ s.groupIds, s.memberReady id) :
    (∀ id, s.groupIds.find? (fun id => !(s.groupFreed.memberTry id).2) = some id → exec .groupTick s = .next
      (State.focus (s.groupIds.foldl (fun s id => s.modCtx id Context.held) (s.groupFreed.memberTry id).1) s.cur)) ∧
    (s.groupIds.find? (fun id => !(s.groupFreed.memberTry id).2) = none → exec .groupTick s = .next
      (if (s.groupIds.filter s.nextG).isEmpty || (s.groupIds.filter s.nextG).length == s.groupIds.length then s.groupFreed
      else s.groupIds.foldl (fun t id => t.modCtx id (Context.suspended ((s.groupIds.filter s.nextG).contains id))) s)) := by
  change (∀ id, _ → execGroupTick s = _) ∧ (_ → execGroupTick s = _)
  unfold execGroupTick
  simp only [gid_suspended]
  rw [if_neg ?ready]
  case ready =>
    rw [Bool.not_eq_true', Bool.not_eq_false, Bool.and_eq_true, List.all_eq_true]
    refine ⟨by simpa [State.groupIds] using hne, fun id hid => ?_⟩
    obtain ⟨hg, hm, hr, hf, hl⟩ := hall id hid
    simp only [Bool.and_eq_true]
    refine ⟨⟨⟨⟨hg, List.contains_iff_mem.mpr hf⟩, ?_⟩, hm⟩, hr⟩
    split
    · next l hl' => rw [hl l hl']; rfl
    · rfl
  refine ⟨fun id hid => ?_, fun hid => ?_⟩
  · split
    · next x hx =>
      obtain rfl := Option.some.inj (hid.symm.trans hx)
      rfl
    · next hx => exact absurd (hid.symm.trans hx) (Option.some_ne_none id)
  · split
    · next x hx => exact absurd (hid.symm.trans hx) (Option.some_ne_none x).symm
    · rfl

/-! ### What these events leave -/

section Group

variable (s : State) (hids : ∀ id ∈ s.groupIds, id < 4096)

include hids

theorem State.getCtx_groupFreed (j : Nat) :
    s.groupFreed.getCtx j = if j ∈ s.groupIds then (s.getCtx j).unheld else s.getCtx j :=
  foldl_modCtx_each (fun _ => Context.unheld) (fun _ => Context.unheld_unheld) s.groupIds hids s j

/-- A group whose members stand at a G bundle, all of them, is in lock-step. -/
theorem lockstepStart_leaves (hne : s.groupIds ≠ [])
    (hall : ∀ id ∈ s.groupIds, (s.getCtx id).members = s.groupIds.length ∧ (s.getCtx id).c.gid.getLsbD 8 = false ∧
      Freeze.lockstep ∈ (s.getCtx id).freezes ∧ s.nextG id = true) :
    ∃ t, exec .lockstepStart s = .next t ∧ (∀ id ∈ s.groupIds, t.getCtx id = (s.getCtx id).atG true) ∧
      (∀ id, id ∉ s.groupIds → t.getCtx id = s.getCtx id) ∧ t.mem = s.mem := by
  have hctx := foldl_modCtx_each (fun _ c => c.atG true) (fun _ c => c.atG_atG true) s.groupIds hids s
  exact ⟨_, exec_lockstepStart_starts s hne hall, fun id hid => (hctx id).trans (if_pos hid),
    fun id hid => (hctx id).trans (if_neg hid), foldl_modCtx_mem _ _ s⟩

/-- Where each member would issue, all go on, or lock-step is suspended. -/
theorem groupTick_goes (hne : s.groupIds ≠ []) (hall : ∀ id ∈ s.groupIds, s.memberReady id)
    (hok : ∀ id ∈ s.groupIds, (s.groupFreed.memberTry id).2 = true) :
    ∃ t, exec .groupTick s = .next t ∧ (∀ id, id ∉ s.groupIds → t.getCtx id = s.getCtx id) ∧ t.mem = s.mem ∧
      ((∀ id ∈ s.groupIds, s.nextG id = false) ∨ (∀ id ∈ s.groupIds, s.nextG id = true) →
        ∀ id ∈ s.groupIds, t.getCtx id = (s.getCtx id).unheld) ∧
      ((∃ id ∈ s.groupIds, s.nextG id = false) → (∃ id ∈ s.groupIds, s.nextG id = true) → ∀ id ∈ s.groupIds,
        t.getCtx id = if s.nextG id then (s.getCtx id).atG false else ((s.getCtx id).atG false).unheld) := by
  have hrun := (exec_groupTick_tries s hne hall).2 (List.find?_eq_none.mpr fun id hid => by simp [hok id hid])
  refine ⟨_, hrun, ?_⟩
  by_cases hsame : (∀ id ∈ s.groupIds, s.nextG id = false) ∨ (∀ id ∈ s.groupIds, s.nextG id = true)
  · rw [if_pos (by simpa [List.filter_eq_nil_iff] using hsame)]
    have hctx := s.getCtx_groupFreed hids
    refine ⟨fun id hid => (hctx id).trans (if_neg hid), foldl_modCtx_mem _ _ s, fun _ id hid => (hctx id).trans (if_pos hid),
      fun hno hyes => ?_⟩
    obtain ⟨i, hi, hin⟩ := hno
    obtain ⟨j, hj, hjn⟩ := hyes
    obtain h | h := hsame
    · exact absurd ((h j hj).symm.trans hjn) Bool.false_ne_true
    · exact absurd (hin.symm.trans (h i hi)) Bool.false_ne_true
  · rw [if_neg (by simpa [List.filter_eq_nil_iff] using hsame)]
    have hctx := foldl_modCtx_each (fun id => Context.suspended ((s.groupIds.filter s.nextG).contains id))
      (fun id => Context.suspended_suspended _) s.groupIds hids s
    refine ⟨fun id hid => (hctx id).trans (if_neg hid), foldl_modCtx_mem _ _ s, fun h => absurd h hsame, fun _ _ id hid => ?_⟩
    have hg : (s.groupIds.filter s.nextG).contains id = s.nextG id :=
      Bool.eq_iff_iff.mpr (List.contains_iff_mem.trans (List.mem_filter.trans (and_iff_right hid)))
    rw [hctx id, if_pos hid, hg]
    rfl

/-- Where a member would not issue, all are held. -/
theorem groupTick_held (hne : s.groupIds ≠ []) (hall : ∀ id ∈ s.groupIds, s.memberReady id)
    (hno : ∃ id ∈ s.groupIds, (s.groupFreed.memberTry id).2 = false) :
    ∃ t, exec .groupTick s = .next t ∧ ∀ id ∈ s.groupIds, Freeze.lockstep ∈ (t.getCtx id).freezes := by
  obtain ⟨i, hi⟩ : ∃ i, s.groupIds.find? (fun id => !(s.groupFreed.memberTry id).2) = some i := by
    rw [← Option.isSome_iff_exists, List.find?_isSome]
    obtain ⟨id, hid, h⟩ := hno
    exact ⟨id, hid, by rw [h]; rfl⟩
  refine ⟨_, (exec_groupTick_tries s hne hall).1 i hi, fun id hid => ?_⟩
  rw [State.getCtx_focus _ _ _ (hids id hid),
    foldl_modCtx_each (fun _ => Context.held) (fun _ => Context.held_held) s.groupIds hids _ id, if_pos hid]
  exact List.mem_cons_self

end Group

end Sys2Proof.Machine
end

section
/-! ## Ticks in which nothing is offered, and the statement about bundles, groups and ticks (07 R204 to R207, 14 R384) -/

namespace Sys2Proof.Machine

open Sys2Proof Sys2Proof.Claims

/-! ### The ticks of a step pass in a cluster whose point has settled (07 R204 to R207) -/

/-- The filler's shares over the eight cores come to the deficit, a multiple of 4 wu (14 R384). -/
theorem sum_fillerShare (m : Nat) : ((List.range 8).map (fillerShare (m * 4))).foldl (· + ·) 0 = m * 4 := by
  have hshare (i : Nat) : fillerShare (m * 4) i = m / 8 * 4 + if i < m % 8 then 4 else 0 := by
    have hq : m * 4 / 32 = m / 8 := by omega
    have hr : (m * 4 - 8 * (m / 8 * 4)) / 4 = m % 8 := by omega
    unfold fillerShare
    rw [hq]
    dsimp only
    rw [hr]
    split <;> omega
  have hr : m % 8 < 8 := Nat.mod_lt _ (by decide)
  have hm : m = 8 * (m / 8) + m % 8 := (Nat.div_add_mod m 8).symm
  simp only [List.range_succ, List.range_zero, List.nil_append, List.cons_append, List.map_cons, List.map_nil, List.foldl_cons,
    List.foldl_nil, hshare]
  -- The first `m % 8` cores have 4 wu more than the others.
  generalize m % 8 = r at hr hm ⊢
  interval_cases r <;> norm_num <;> omega

theorem ClusterState.filler_eq (c : ClusterState) : c.filler = fillerOf c := by
  unfold ClusterState.filler ClusterState.deficit fillerOf
  rw [bits_eq]
  exact sum_fillerShare _

/-- A cluster once a tick has passed: a CEIL that was written is in force, and no request waits. -/
def ClusterState.refreshed (c : ClusterState) : ClusterState :=
  { c with denied := [], ceil := c.ceilNew.getD c.ceil, ceilNew := none }

theorem ClusterState.pass_settled (c : ClusterState) (hs : c.oper.settling = false) : c.pass =
    { (if c.tick % 4 = 3 then c.refreshed.endStep else c.refreshed) with tick := c.tick + 1 } := by
  have hset (d : ClusterState) (tick : Nat) (h : d.oper = c.oper) :
      (d.oper.settling && decide (d.oper.due ≤ tick)) = false := by rw [h, hs, Bool.false_and]
  unfold ClusterState.pass
  by_cases hlast : c.tick % 4 = 3
  · rw [if_pos hlast, if_pos hlast]
    dsimp only
    rw [hset c.endStep _ rfl, if_neg Bool.false_ne_true]
    rfl
  · rw [if_neg hlast, if_neg hlast]
    dsimp only
    rw [hset c _ rfl, if_neg Bool.false_ne_true]
    rfl

/-- Before the step's last tick has passed nothing else has changed. -/
theorem ClusterState.passN_within (c : ClusterState) (hs : c.oper.settling = false) (n : Nat) (h : c.tick % 4 + n ≤ 3) :
    (c.passN n).refreshed = { c.refreshed with tick := c.tick + n } := by
  induction n with
  | zero => rfl
  | succ n ih =>
    have hn := ih (by omega)
    have htick := c.passN_tick n
    have hset : (c.passN n).oper.settling = false := by
      have : (c.passN n).refreshed.oper.settling = false := by rw [hn]; exact hs
      exact this
    rw [c.passN_succ, (c.passN n).pass_settled hset, htick, if_neg (by omega), hn]
    rfl

/-- The ticks to the end of a step: filler makes up the deficit in the last (07 R207). -/
theorem ClusterState.passN_step (c : ClusterState) (hs : c.oper.settling = false) : c.passN (4 - c.tick % 4) = { c with
    tick := c.tick + (4 - c.tick % 4), fillc := c.fillc + BitVec.ofNat 64 (fillerOf c)
    slew := ⟨0, c.slew.p + fillerOf c⟩, denied := [], ceil := c.ceilNew.getD c.ceil, ceilNew := none } := by
  obtain ⟨n, hn⟩ : ∃ n, 4 - c.tick % 4 = n + 1 := ⟨3 - c.tick % 4, by omega⟩
  have hin := c.passN_within hs n (by omega)
  have hset : (c.passN n).oper.settling = false := by
    have : (c.passN n).refreshed.oper.settling = false := by rw [hin]; exact hs
    exact this
  rw [hn, c.passN_succ, (c.passN n).pass_settled hset, c.passN_tick, if_pos (by omega), hin]
  have hf : ClusterState.filler { c.refreshed with tick := c.tick + n } = fillerOf c := ClusterState.filler_eq _
  unfold ClusterState.endStep
  rw [hf]
  rfl

/-! ### Ticks of a cluster pass -/

/-- A context that looks again at what the last tick held. -/
def Context.again (c : Context) : Context := { c with freezes := c.freezes.filter fun f => !f.again }

theorem Context.again_again (c : Context) : c.again.again = c.again := by
  unfold Context.again
  simp

theorem State.nextTick_only (s : State) (p : Nat) : ∃ c cs ls,
    s.nextTick p = { s.setClu p (s.getClu p).pass with ctx := c, ctxs := cs, launches := ls } := by
  unfold State.nextTick
  exact foldl_modCtx_only (List.range 32) (fun i => 32 * p + i) Context.again (s.setClu p (s.getClu p).pass)

theorem State.getClu_nextTick (s : State) (p q : Nat) :
    (s.nextTick p).getClu q = if q = p then (s.getClu p).pass else s.getClu q := by
  obtain ⟨_, _, _, h⟩ := s.nextTick_only p
  rw [h]
  exact s.getClu_setClu p q _

theorem State.getCtx_nextTick (s : State) (p : Nat) (hp : p < 128) (x : Nat) :
    (s.nextTick p).getCtx x = if x / 32 = p then (s.getCtx x).again else s.getCtx x := by
  have h := foldl_modCtx_getCtx p 32 Context.again (s.setClu p (s.getClu p).pass) (by omega) x
  rw [s.getCtx_setClu] at h
  exact h.trans (if_congr (by omega) rfl rfl)

theorem State.nextTick_keeps (s : State) (p : Nat) : (s.nextTick p).mem = s.mem ∧ (s.nextTick p).arg = s.arg := by
  obtain ⟨_, _, _, h⟩ := s.nextTick_only p
  rw [h]
  exact ⟨s.setClu_mem _ _, by unfold State.setClu; split <;> rfl⟩

/-- `n` ticks of a cluster have passed. -/
def State.ticked (s : State) (p n : Nat) : State := (List.range n).foldl (fun s _ => s.nextTick p) s

theorem State.ticked_zero (s : State) (p : Nat) : s.ticked p 0 = s := rfl

theorem State.ticked_succ (s : State) (p n : Nat) : s.ticked p (n + 1) = (s.ticked p n).nextTick p := by
  unfold State.ticked
  rw [List.range_succ, List.foldl_append, List.foldl_cons, List.foldl_nil]

theorem State.getClu_ticked (s : State) (p n q : Nat) :
    (s.ticked p n).getClu q = if q = p then (s.getClu p).passN n else s.getClu q := by
  induction n generalizing q with
  | zero =>
    rw [s.ticked_zero]
    split
    · next h => rw [h]; rfl
    · rfl
  | succ n ih =>
    rw [s.ticked_succ, State.getClu_nextTick, ih, ih, if_pos rfl, ClusterState.passN_succ]
    split <;> rfl

theorem State.getCtx_ticked (s : State) (p : Nat) (hp : p < 128) (n x : Nat) :
    (s.ticked p (n + 1)).getCtx x = if x / 32 = p then (s.getCtx x).again else s.getCtx x := by
  induction n with
  | zero => rw [s.ticked_succ, s.ticked_zero, s.getCtx_nextTick p hp]
  | succ n ih =>
    rw [s.ticked_succ, State.getCtx_nextTick _ p hp, ih]
    split
    · exact Context.again_again _
    · rfl

theorem State.ticked_keeps (s : State) (p n : Nat) : (s.ticked p n).mem = s.mem ∧ (s.ticked p n).arg = s.arg := by
  induction n with
  | zero => exact ⟨rfl, rfl⟩
  | succ n ih =>
    rw [s.ticked_succ, ((s.ticked p n).nextTick_keeps p).1, ((s.ticked p n).nextTick_keeps p).2]
    exact ih

/-- Ticks of the cluster that the event names have passed, as the statement writes them. -/
theorem State.ticked_named (s : State) (n : Nat) : (List.range n).foldl (fun s _ => s.nextTick s.arg.a) s = s.ticked s.arg.a n := by
  induction n with
  | zero => rw [s.ticked_zero]; rfl
  | succ n ih =>
    rw [s.ticked_succ, List.range_succ, List.foldl_append, ih, List.foldl_cons, List.foldl_nil,
      (s.ticked_keeps s.arg.a n).2]

/-- SLEW_FILLER's ticks, where none may pass. -/
theorem foldl_tick_none (s : State) (p : Nat) (h : s.tickOver p = false) (l : List Nat) :
    l.foldl (fun s _ => if s.tickOver p then s.nextTick p else s) s = s := by
  induction l with
  | nil => rfl
  | cons n l ih => rw [List.foldl_cons, h, if_neg Bool.false_ne_true, ih]

/-- SLEW_FILLER's ticks, where each may pass. -/
theorem foldl_tick_each (s : State) (p n : Nat) (h : ∀ k, k < n → (s.ticked p k).tickOver p = true) :
    (List.range n).foldl (fun s _ => if s.tickOver p then s.nextTick p else s) s = s.ticked p n := by
  induction n with
  | zero => rw [s.ticked_zero]; rfl
  | succ n ih =>
    rw [List.range_succ, List.foldl_append, ih fun k hk => h k (Nat.lt_succ_of_lt hk), List.foldl_cons, List.foldl_nil,
      h n (Nat.lt_succ_self n), if_pos rfl, s.ticked_succ]

theorem exec_slewFiller_waits (s : State) (ha : s.arg.a < 128) (h : s.tickOver s.arg.a = false) : exec .slewFiller s = .next s := by
  change execSlewFiller s = _
  unfold execSlewFiller
  rw [Nat.mod_eq_of_lt ha]
  exact congrArg Host.Outcome.next (foldl_tick_none s _ h _)

theorem exec_slewFiller_ticks (s : State) (ha : s.arg.a < 128)
    (h : ∀ k, k < 4 - (s.getClu s.arg.a).tick % 4 → (s.ticked s.arg.a k).tickOver s.arg.a = true) :
    exec .slewFiller s = .next (s.ticked s.arg.a (4 - (s.getClu s.arg.a).tick % 4)) := by
  change execSlewFiller s = _
  unfold execSlewFiller
  rw [Nat.mod_eq_of_lt ha]
  exact congrArg Host.Outcome.next (foldl_tick_each s _ _ h)

/-- The ticks to the end of a step in a cluster whose point has settled: the last makes up the deficit, and the contexts of the
cluster look again at what its limits held. -/
theorem slewFiller_leaves (s : State) (ha : s.arg.a < 128)
    (hover : ∀ k, k < 4 - (s.getClu s.arg.a).tick % 4 → (s.ticked s.arg.a k).tickOver s.arg.a = true)
    (hs : (s.getClu s.arg.a).oper.settling = false) :
    let u := s.getClu s.arg.a
    ∃ t, exec .slewFiller s = .next t ∧ t.getClu s.arg.a = { u with
        tick := u.tick + (4 - u.tick % 4), fillc := u.fillc + BitVec.ofNat 64 (fillerOf u)
        slew := ⟨0, u.slew.p + fillerOf u⟩, denied := [], ceil := u.ceilNew.getD u.ceil, ceilNew := none } ∧
      (∀ q, q ≠ s.arg.a → t.getClu q = s.getClu q) ∧ t.mem = s.mem ∧
      ∀ id, t.getCtx id = if id / 32 = s.arg.a then (s.getCtx id).again else s.getCtx id := by
  refine ⟨_, exec_slewFiller_ticks s ha hover, ?_, fun q hq => ?_, (s.ticked_keeps _ _).1, fun id => ?_⟩
  · rw [s.getClu_ticked, if_pos rfl, ClusterState.passN_step _ hs]
  · rw [s.getClu_ticked, if_neg hq]
  · obtain ⟨n, hn⟩ : ∃ n, 4 - (s.getClu s.arg.a).tick % 4 = n + 1 := ⟨3 - (s.getClu s.arg.a).tick % 4, by omega⟩
    rw [hn, s.getCtx_ticked _ ha]

/-! ### The statement -/

/-- What issues, and what its issue leaves, in the statement's order. -/
theorem issue_leaves (s s1 : State) (p : Plan) (h : s.prep = (s1, some p)) (q : Seq) (hq : s1.ctx.seq = some q) :
    (s1.commit p).ctx.seq = some { q with tick := q.tick + 1 } ∧ ∀ x ∈ p.words, x.2.2 = false → ∃ b w, q.body[b]? = some w ∧
      x.1 ∈ w.2.2.2 ∧ b % q.ii = q.tick % q.ii ∧ b ≤ q.tick ∧ x.2.1 = some ((q.tick - b) / q.ii) ∧
      (q.tick - b) / q.ii < q.rounds := by
  obtain ⟨v, rfl⟩ := s.prep_loop s1 p q h hq
  exact ⟨by rw [(s1.commit_moves _).1, hq]; rfl, fun x hx hnew => v.planTick_iterations q x hx hnew⟩

/-- Settles O41: issue by what is prepared, groups and ticks by what their events leave. -/
theorem bundlesIssueGroupsTick : Obligations.BundlesIssueGroupsTick := by
  unfold Obligations.BundlesIssueGroupsTick
  refine ⟨⟨fun s s1 p h => ?issues, fun s h => ?stays⟩, fun s => ⟨?starts, ?group, ?waits, ?ticks⟩⟩
  case issues =>
    obtain ⟨-, hmoves⟩ := s1.commit_moves p
    refine ⟨fun hq hheld => ?_, fun hheld => ?_, fun q hq => ⟨?_, issue_leaves s s1 p h q hq⟩, s.prep_held s1 p h, hmoves⟩
    · exact congrArg Host.Outcome.next (s.frontIf_issues s1 p _ h (by simpa [hq] using hheld))
    · exact congrArg Host.Outcome.next (s.frontIf_issues s1 p _ h (by simpa using hheld))
    · exact congrArg Host.Outcome.next (s.frontIf_issues s1 p _ h (by rw [hq]; rfl))
  case stays =>
    exact ⟨congrArg Host.Outcome.next (s.frontIf_stays _ h), congrArg Host.Outcome.next (s.frontIf_stays _ h),
      congrArg Host.Outcome.next (s.frontIf_stays _ h)⟩
  case starts =>
    intro hne hall
    exact lockstepStart_leaves s (fun id hid => (hall id hid).1) hne fun id hid => (hall id hid).2
  case group =>
    intro hne hall
    have hids (id : Nat) (hid : id ∈ s.groupIds) : id < 4096 := (hall id hid).1
    have hready (id : Nat) (hid : id ∈ s.groupIds) : s.memberReady id := (hall id hid).2
    exact ⟨groupTick_goes s hids hne hready, groupTick_held s hids hne hready⟩
  case waits => exact fun ha => exec_slewFiller_waits s ha
  case ticks =>
    intro ha hover hs
    refine slewFiller_leaves s ha (fun k hk => ?_) hs
    rw [← s.ticked_named k]
    exact hover k hk

end Sys2Proof.Machine
end

section
/-! ## Decoding what was encoded (08 R215 to R228) -/

namespace Sys2Proof

/-! ### Fields of a slot word -/

theorem fld_or (a b : BitVec 64) (lo n : Nat) : fld (a ||| b) lo n = fld a lo n ||| fld b lo n :=
  BitVec.extractLsb'_or

theorem fld_zero (lo n : Nat) : fld 0#64 lo n = 0#n := by
  apply BitVec.eq_of_getLsbD_eq
  intro i _
  simp [fld]

/-- A field reads as it was put. -/
theorem extract_shift_same {n : Nat} (v : BitVec n) (size lo : Nat) (h : lo + n ≤ size) :
    (v.setWidth size <<< lo).extractLsb' lo n = v := by
  apply BitVec.eq_of_getLsbD_eq
  intro i hi
  have hlt : lo + i < size := by omega
  simp [hi, hlt]

/-- A field that lies below or above the one put reads 0. -/
theorem extract_shift_apart {m : Nat} (v : BitVec m) (size l lo n : Nat) (h : lo + n ≤ l ∨ l + m ≤ lo) :
    (v.setWidth size <<< l).extractLsb' lo n = 0#n := by
  apply BitVec.eq_of_getLsbD_eq
  intro i hi
  obtain h | h := h
  · have hbelow : lo + i < l := by omega
    simp [hbelow]
  · have habove : v.getLsbD (lo + i - l) = false := BitVec.getLsbD_of_ge _ _ (by omega)
    simp [habove]

theorem fld_put_same {n : Nat} (v : BitVec n) (lo : Nat) (h : lo + n ≤ 64) : fld (put v lo) lo n = v :=
  extract_shift_same v 64 lo h

theorem fld_put_apart {m : Nat} (v : BitVec m) (l lo n : Nat) (h : lo + n ≤ l ∨ l + m ≤ lo) : fld (put v l) lo n = 0#n :=
  extract_shift_apart v 64 l lo n h

/-- A field within one that is 0 is 0. -/
theorem fld_within (w : BitVec 64) (m lo n : Nat) (h : fld w 0 m = 0#m) (hle : lo + n ≤ m) : fld w lo n = 0#n := by
  apply BitVec.eq_of_getLsbD_eq
  intro i hi
  have hbit := congrArg (BitVec.getLsbD · (lo + i)) h
  have hlt : lo + i < m := by omega
  simpa [fld, hi, hlt] using hbit

/-- The first word of a pair has the fields below bit 32. -/
theorem extract_low (w : BitVec 64) (lo n : Nat) (h : lo + n ≤ 32) : (w.setWidth 32).extractLsb' lo n = fld w lo n := by
  apply BitVec.eq_of_getLsbD_eq
  intro i hi
  have hlt : lo + i < 32 := by omega
  simp [fld, hi, hlt]

/-- A word of 32 bits has the fields below bit 32. -/
theorem fld_low (w : BitVec 64) (lo n : Nat) (h : lo + n ≤ 32) : fld ((w.setWidth 32).setWidth 64) lo n = fld w lo n := by
  apply BitVec.eq_of_getLsbD_eq
  intro i hi
  have hlt : lo + i < 32 := by omega
  have hlt64 : lo + i < 64 := by omega
  simp [fld, hi, hlt, hlt64]

/-- The two words of a pair make it up. -/
theorem high_append_low (w : BitVec 64) : ((w >>> 32).setWidth 32 ++ w.setWidth 32 : BitVec 64) = w := by
  apply BitVec.eq_of_getLsbD_eq
  intro i hi
  rw [BitVec.getLsbD_append]
  by_cases h : i < 32
  · simp [h]
  · have hlt : i - 32 < 32 := by omega
    have heq : 32 + (i - 32) = i := by omega
    simp [h, hlt, heq]

/-! ### The rows of the decoder, class by class -/

theorem ck_ok {b : Bool} {d : BitVec 8} {k : Except DErr Instr} {i : Instr} (hb : b = true) (hk : k = .ok i) :
    ck b d k = .ok i := by
  rw [ck, if_pos hb, hk]

theorem ok_of_eq {i j : Instr} (h : i = j) : (Except.ok i : Except DErr Instr) = .ok j := congrArg _ h

section
/- The word `w` carries the opcode and the operands of `i`, the latter in as many bits as the form has. Form, opcode and operands
are named apart from `i`, so that a case split on `i` puts each constructor's own in their place. -/
variable (e : Env) (i : Instr) (w : BitVec 64) {f64 : Bool} {op : BitVec 6} {x : BitVec 64} (hcode : i.code = (f64, op, x))
  (hok : i.fieldsOk e = true) (hop : opcode w = op.toNat)
  (hfld : ∀ lo n, 13 ≤ lo → lo + n ≤ (if f64 then 64 else 32) → fld w lo n = fld x lo n)
include hcode hok hop hfld

/- A row of the decoder checks what `Instr.fieldsOk` says of its instruction, and reads each field where `Instr.code` puts it. -/

theorem decodeC_carries (hs : i.slots = (0, 1)) (hh : e.hold = false) : decodeC e f64 w = .ok i := by
  unfold decodeC
  rw [hop]
  cases i <;> cases hs <;> cases hcode
  all_goals
    unfold Instr.fieldsOk at hok
    dsimp only at hok
    repeat' apply ck_ok
    any_goals apply ok_of_eq
    all_goals simp_all only [fld_or, fld_put_same, fld_put_apart, fld_zero, Nat.reduceAdd, Nat.reduceLeDiff, reduceIte,
      Bool.not_false, Bool.false_eq_true, or_true, true_or, BitVec.or_zero, BitVec.zero_or,
      BitVec.ofNat_eq_ofNat, beq_self_eq_true]

theorem decodeS_carries (hs : i.slots = (1, 2)) : decodeS e f64 w = .ok i := by
  unfold decodeS
  rw [hop]
  cases i <;> cases hs <;> cases hcode
  all_goals
    unfold Instr.fieldsOk at hok
    dsimp only at hok
    repeat' apply ck_ok
    any_goals apply ok_of_eq
    all_goals simp_all only [fld_or, fld_put_same, fld_put_apart, Nat.reduceAdd, Nat.reduceLeDiff, reduceIte, Bool.and_eq_true,
      Bool.false_eq_true, or_true, true_or, BitVec.or_zero, BitVec.zero_or, BitVec.ofNat_eq_ofNat,
      beq_self_eq_true]

theorem decodeL_carries (hs : i.slots = (3, 1)) : decodeL e f64 w = .ok i := by
  unfold decodeL
  rw [hop]
  cases i <;> cases hs <;> cases hcode
  -- LDL and LDACQ share an opcode and differ in bit 29.
  case' ldl =>
    have hacq : fld w 29 1 = 0#1 := by
      rw [hfld 29 1 (by decide) (by decide)]
      simp [fld_or, fld_put_apart]
    refine (if_pos (beq_iff_eq.mpr hacq)).trans ?_
  case' ldacqLong =>
    have hacq : fld w 29 1 = 1#1 := by
      rw [hfld 29 1 (by decide) (by decide)]
      simp [fld_or, fld_put_apart, fld_put_same]
    refine (if_neg (by rw [hacq]; decide)).trans ?_
  all_goals
    unfold Instr.fieldsOk at hok
    dsimp only at hok
    repeat' apply ck_ok
    any_goals apply ok_of_eq
    all_goals simp_all only [fld_or, fld_put_same, fld_put_apart, Nat.reduceAdd, Nat.reduceLeDiff, reduceIte, Bool.and_eq_true,
      Bool.false_eq_true, or_true, true_or, BitVec.or_zero, BitVec.zero_or, BitVec.ofNat_eq_ofNat,
      beq_self_eq_true]

theorem decodeT_carries (hs : i.slots = (4, 1)) : decodeT e f64 w = .ok i := by
  unfold decodeT
  rw [hop]
  cases i <;> cases hs <;> cases hcode
  all_goals
    unfold Instr.fieldsOk at hok
    dsimp only at hok
    repeat' apply ck_ok
    any_goals apply ok_of_eq
    all_goals simp_all only [fld_or, fld_put_same, fld_put_apart, Nat.reduceAdd, Nat.reduceLeDiff, reduceIte, Bool.and_eq_true,
      Bool.false_eq_true, or_true, true_or, BitVec.or_zero, BitVec.zero_or, BitVec.ofNat_eq_ofNat,
      beq_self_eq_true]

theorem decodeA_carries (hs : i.slots = (5, 1)) : decodeA e f64 w = .ok i := by
  unfold decodeA
  rw [hop]
  cases i <;> cases hs <;> cases hcode
  all_goals
    unfold Instr.fieldsOk at hok
    dsimp only at hok
    repeat' apply ck_ok
    any_goals apply ok_of_eq
    all_goals simp_all only [fld_or, fld_put_same, fld_put_apart, fld_zero, Nat.reduceAdd, Nat.reduceLeDiff, reduceIte,
      Bool.and_eq_true, Bool.false_eq_true, or_true, true_or, BitVec.or_zero, BitVec.zero_or,
      BitVec.ofNat_eq_ofNat, beq_self_eq_true]

theorem decodeK_carries (hs : i.slots = (6, 1)) : decodeK e f64 w = .ok i := by
  unfold decodeK
  rw [hop]
  cases i <;> cases hs <;> cases hcode
  all_goals
    unfold Instr.fieldsOk at hok
    dsimp only at hok
    repeat' apply ck_ok
    any_goals apply ok_of_eq
    all_goals simp_all only [fld_or, fld_put_same, fld_put_apart, Nat.reduceAdd, Nat.reduceLeDiff, reduceIte, Bool.false_eq_true,
      or_true, true_or, BitVec.or_zero, BitVec.zero_or, BitVec.ofNat_eq_ofNat, beq_self_eq_true]

theorem decodeP_carries (hs : i.slots = (7, 1)) : decodeP e f64 w = .ok i := by
  unfold decodeP
  rw [hop]
  cases i <;> cases hs <;> cases hcode
  all_goals
    unfold Instr.fieldsOk at hok
    dsimp only at hok
    repeat' apply ck_ok
    any_goals apply ok_of_eq
    all_goals simp_all only [fld_or, fld_put_same, fld_put_apart, Nat.reduceAdd, Nat.reduceLeDiff, reduceIte, Bool.and_eq_true,
      Bool.false_eq_true, or_true, true_or, BitVec.or_zero, BitVec.zero_or, BitVec.ofNat_eq_ofNat,
      beq_self_eq_true]

theorem decodeQ_carries (hs : i.slots = (8, 1)) : decodeQ e f64 w = .ok i := by
  unfold decodeQ
  rw [hop]
  cases i <;> cases hs <;> cases hcode
  all_goals
    unfold Instr.fieldsOk at hok
    dsimp only at hok
    repeat' apply ck_ok
    any_goals apply ok_of_eq
    all_goals simp_all only [fld_or, fld_put_same, fld_put_apart, Nat.reduceAdd, Nat.reduceLeDiff, reduceIte, Bool.false_eq_true,
      or_true, true_or, BitVec.or_zero, BitVec.zero_or, BitVec.ofNat_eq_ofNat, beq_self_eq_true]

theorem decodeV_carries (hs : i.slots = (9, 8)) : decodeV e f64 w = .ok i := by
  unfold decodeV
  rw [hop]
  cases i <;> cases hs <;> cases hcode
  all_goals
    unfold Instr.fieldsOk at hok
    dsimp only at hok
    repeat' apply ck_ok
    any_goals apply ok_of_eq
    all_goals simp_all only [fld_or, fld_put_same, fld_put_apart, Nat.reduceAdd, Nat.reduceLeDiff, reduceIte, Bool.and_eq_true,
      Bool.false_eq_true, or_true, true_or, BitVec.or_zero, BitVec.zero_or, BitVec.ofNat_eq_ofNat,
      beq_self_eq_true]
end

/-! ### The word of an instruction -/

/-- Operands stand above bit 12 (08 R219). -/
theorem Instr.code_operands {i : Instr} {f64 : Bool} {op : BitVec 6} {x : BitVec 64} (h : i.code = (f64, op, x)) :
    fld x 0 13 = 0#13 := by
  cases i <;> cases h
  all_goals simp only [fld_or, fld_put_apart, fld_zero, Nat.reduceAdd, Nat.reduceLeDiff, true_or, BitVec.or_zero, BitVec.ofNat_eq_ofNat]

/-- The word as four fields below bit 13 and the operands (08 R219). -/
theorem Instr.word_eq (e : Env) {i : Instr} {f64 : Bool} {op : BitVec 6} {x : BitVec 64} (h : i.code = (f64, op, x)) :
    i.word e = put (BitVec.ofBool f64) 0 ||| put (BitVec.ofBool e.hold) 2 ||| put e.pred 3 ||| put op 7 ||| x := by
  unfold Instr.word
  rw [h]
  cases f64 <;> cases e.hold <;> rfl

section
variable (e : Env) {i : Instr} {f64 : Bool} {op : BitVec 6} {x : BitVec 64} (h : i.code = (f64, op, x))
include h

theorem Instr.word_operand (lo n : Nat) (hlo : 13 ≤ lo) : fld (i.word e) lo n = fld x lo n := by
  have apart {m : Nat} (v : BitVec m) (l : Nat) (hl : l + m ≤ 13) : fld (put v l) lo n = 0#n :=
    fld_put_apart v l lo n (.inr (hl.trans hlo))
  rw [i.word_eq e h]
  simp [fld_or, apart]

theorem Instr.word_selector : fld (i.word e) 0 2 = if f64 then 1#2 else 0#2 := by
  rw [i.word_eq e h]
  simp only [fld_or, fld_within x 13 0 2 (i.code_operands h), fld_put_apart, Nat.reduceAdd, Nat.reduceLeDiff, true_or, BitVec.or_zero]
  cases f64 <;> rfl

theorem Instr.word_hold : fld (i.word e) 2 1 = BitVec.ofBool e.hold := by
  rw [i.word_eq e h]
  simp [fld_or, fld_within x 13 2 1 (i.code_operands h), fld_put_apart, fld_put_same]

theorem Instr.word_pred : fld (i.word e) 3 4 = e.pred := by
  rw [i.word_eq e h]
  simp [fld_or, fld_within x 13 3 4 (i.code_operands h), fld_put_apart, fld_put_same]

theorem Instr.word_opcode : fld (i.word e) 7 6 = op := by
  rw [i.word_eq e h]
  simp [fld_or, fld_within x 13 7 6 (i.code_operands h), fld_put_apart, fld_put_same]

end

/-- What the decoder takes for the slot word: the first code word, with the second above it in a pair. -/
def slotWord (f64 : Bool) (w : BitVec 64) : BitVec 64 :=
  if f64 then (w >>> 32).setWidth 32 ++ w.setWidth 32 else (w.setWidth 32).setWidth 64

theorem fld_slotWord (f64 : Bool) (w : BitVec 64) (lo n : Nat) (h : lo + n ≤ (if f64 then 64 else 32)) :
    fld (slotWord f64 w) lo n = fld w lo n := by
  cases f64
  · exact fld_low w lo n h
  · exact congrArg (fld · lo n) (high_append_low w)

/-- The slot positions of each class (08 R217): first and count. -/
theorem Instr.slots_class (i : Instr) (h : i.isWord = true) :
    i.slots ∈ [(0, 1), (1, 2), (3, 1), (4, 1), (5, 1), (6, 1), (7, 1), (8, 1), (9, 8)] := by
  rcases hs : i.slots with ⟨first, count⟩
  cases i <;> cases hs <;> cases h <;> decide

/-- The decoder reads a well-formed instruction back from its word, at any position of its class. -/
theorem decodeAt_slotWord (e : Env) (i : Instr) (hw : i.isWord = true) (hok : i.fieldsOk e = true) (hplace : i.placeOk e = true) :
    decodeAt e i.code.1 (slotWord i.code.1 (i.word e)) = .ok i := by
  rcases hcode : i.code with ⟨f64, op, x⟩
  have hfld (lo n : Nat) (hlo : 13 ≤ lo) (hn : lo + n ≤ (if f64 then 64 else 32)) :
      fld (slotWord f64 (i.word e)) lo n = fld x lo n :=
    (fld_slotWord f64 _ lo n hn).trans (i.word_operand e hcode lo n hlo)
  have hop : opcode (slotWord f64 (i.word e)) = op.toNat := by
    have hn : 7 + 6 ≤ (if f64 then 64 else 32) := by cases f64 <;> decide
    exact congrArg BitVec.toNat ((fld_slotWord f64 _ 7 6 hn).trans (i.word_opcode e hcode))
  unfold Instr.placeOk at hplace
  simp only [Bool.and_eq_true, decide_eq_true_eq] at hplace
  obtain ⟨⟨hfirst, hlast⟩, hhold⟩ := hplace
  have hclass := i.slots_class hw
  simp only [List.mem_cons, List.not_mem_nil, or_false] at hclass
  unfold decodeAt
  dsimp only
  obtain hs | hs | hs | hs | hs | hs | hs | hs | hs := hclass <;> rw [hs] at hfirst hlast hhold
  · rw [show e.pos.toNat = 0 by omega]
    exact decodeC_carries e i _ hcode hok hop hfld hs (by simpa using hhold)
  · obtain hp | hp : e.pos.toNat = 1 ∨ e.pos.toNat = 2 := by omega
    all_goals
      rw [hp]
      exact decodeS_carries e i _ hcode hok hop hfld hs
  · rw [show e.pos.toNat = 3 by omega]
    exact decodeL_carries e i _ hcode hok hop hfld hs
  · rw [show e.pos.toNat = 4 by omega]
    exact decodeT_carries e i _ hcode hok hop hfld hs
  · rw [show e.pos.toNat = 5 by omega]
    exact decodeA_carries e i _ hcode hok hop hfld hs
  · rw [show e.pos.toNat = 6 by omega]
    exact decodeK_carries e i _ hcode hok hop hfld hs
  · rw [show e.pos.toNat = 7 by omega]
    exact decodeP_carries e i _ hcode hok hop hfld hs
  · rw [show e.pos.toNat = 8 by omega]
    exact decodeQ_carries e i _ hcode hok hop hfld hs
  · obtain ⟨n, hn⟩ := Nat.exists_eq_add_of_le' hfirst
    rw [hn]
    exact decodeV_carries e i _ hcode hok hop hfld hs

/-! ### Prefixes -/

/-- RND as a word of code (08 R225). -/
def rndWord (c : BitVec 3) (r : BitVec 5) : W32 := 2#32 ||| (c.setWidth 32 <<< 6) ||| (r.setWidth 32 <<< 9)

/-- SAT as a word of code. -/
def satWord (m : BitVec 2) (b : BitVec 24) : W32 := 6#32 ||| (m.setWidth 32 <<< 6) ||| (b.setWidth 32 <<< 8)

/-- SCO as a word of code. -/
def scoWord (c : BitVec 3) : W32 := 14#32 ||| (c.setWidth 32 <<< 6)

/-- SNP as a word of code. -/
def snpWord (c : BitVec 2) : W32 := 18#32 ||| (c.setWidth 32 <<< 6)

/-- IMX as a word of code. -/
def imxWord (h : BitVec 26) : W32 := 10#32 ||| (h.setWidth 32 <<< 6)

theorem pfxKind_rndWord (c : BitVec 3) (r : BitVec 5) : pfxKind (rndWord c r) = 0 := by
  simp [pfxKind, rndWord, BitVec.extractLsb'_or, extract_shift_apart]

theorem pfxKind_satWord (m : BitVec 2) (b : BitVec 24) : pfxKind (satWord m b) = 1 := by
  simp [pfxKind, satWord, BitVec.extractLsb'_or, extract_shift_apart]

theorem pfxKind_imxWord (h : BitVec 26) : pfxKind (imxWord h) = 2 := by
  simp [pfxKind, imxWord, BitVec.extractLsb'_or, extract_shift_apart]

theorem pfxKind_scoWord (c : BitVec 3) : pfxKind (scoWord c) = 3 := by
  simp [pfxKind, scoWord, BitVec.extractLsb'_or, extract_shift_apart]

theorem pfxKind_snpWord (c : BitVec 2) : pfxKind (snpWord c) = 4 := by
  simp [pfxKind, snpWord, BitVec.extractLsb'_or, extract_shift_apart]

theorem Pfx.add_rndWord (p : Pfx) (c : BitVec 3) (r : BitVec 5) : p.add (rndWord c r) = { p with rnd := some (c, r) } := by
  rw [Pfx.add, pfxKind_rndWord]
  simp [rndWord, BitVec.extractLsb'_or, extract_shift_apart, extract_shift_same]

theorem Pfx.add_satWord (p : Pfx) (m : BitVec 2) (b : BitVec 24) : p.add (satWord m b) = { p with sat := some (m, b) } := by
  rw [Pfx.add, pfxKind_satWord]
  simp [satWord, BitVec.extractLsb'_or, extract_shift_apart, extract_shift_same]

theorem Pfx.add_imxWord (p : Pfx) (h : BitVec 26) : p.add (imxWord h) = { p with imx := some h } := by
  rw [Pfx.add, pfxKind_imxWord]
  simp [imxWord, BitVec.extractLsb'_or, extract_shift_same]

theorem Pfx.add_scoWord (p : Pfx) (c : BitVec 3) : p.add (scoWord c) = { p with sco := some c } := by
  rw [Pfx.add, pfxKind_scoWord]
  simp [scoWord, BitVec.extractLsb'_or, extract_shift_same]

theorem Pfx.add_snpWord (p : Pfx) (c : BitVec 2) : p.add (snpWord c) = { p with snp := some c } := by
  rw [Pfx.add, pfxKind_snpWord]
  simp [snpWord, BitVec.extractLsb'_or, extract_shift_same]

theorem Pfx.words_eq (p : Pfx) :
    p.words = (p.rnd.map fun v => rndWord v.1 v.2).toList ++ (p.sat.map fun v => satWord v.1 v.2).toList ++
      (p.sco.map scoWord).toList ++ (p.snp.map snpWord).toList ++ (p.imx.map imxWord).toList := by
  obtain ⟨_ | _, _ | _, _ | _, _ | _, _ | _⟩ := p <;> rfl

/-- A set of prefixes is made up again from its words. -/
theorem Pfx.foldl_add_words (p : Pfx) : p.words.foldl Pfx.add Pfx.empty = p := by
  rw [p.words_eq]
  obtain ⟨_ | _, _ | _, _ | _, _ | _, _ | _⟩ := p <;>
    simp [Pfx.empty, Pfx.add_rndWord, Pfx.add_satWord, Pfx.add_scoWord, Pfx.add_snpWord, Pfx.add_imxWord]

theorem Pfx.mem_words {p : Pfx} {w : W32} (h : w ∈ p.words) :
    (∃ c r, p.rnd = some (c, r) ∧ w = rndWord c r) ∨ (∃ m b, p.sat = some (m, b) ∧ w = satWord m b) ∨
    (∃ c, p.sco = some c ∧ w = scoWord c) ∨ (∃ c, p.snp = some c ∧ w = snpWord c) ∨
    (∃ v, p.imx = some v ∧ w = imxWord v) := by
  rw [p.words_eq] at h
  simp only [List.mem_append, Option.mem_toList, Option.map_eq_some_iff, Prod.exists, or_assoc] at h
  simpa only [eq_comm (b := w)] using h

theorem Pfx.selector_words {p : Pfx} {w : W32} (h : w ∈ p.words) : w.extractLsb' 0 2 = 2#2 := by
  obtain ⟨c, r, -, rfl⟩ | ⟨m, b, -, rfl⟩ | ⟨c, -, rfl⟩ | ⟨c, -, rfl⟩ | ⟨v, -, rfl⟩ := Pfx.mem_words h <;>
    simp [rndWord, satWord, scoWord, snpWord, imxWord, BitVec.extractLsb'_or, extract_shift_apart]

/-- No kind comes twice among the words of a set of prefixes. -/
theorem Pfx.kinds_words_nodup (p : Pfx) : (p.words.map pfxKind).Nodup := by
  rw [p.words_eq]
  obtain ⟨_ | _, _ | _, _ | _, _ | _, _ | _⟩ := p <;>
    simp [pfxKind_rndWord, pfxKind_satWord, pfxKind_scoWord, pfxKind_snpWord, pfxKind_imxWord]

theorem getLsbD_acc5 : ∀ rnd sat imx sco snp : Bool, (acc5 rnd sat imx sco snp).getLsbD 0 = rnd ∧
    (acc5 rnd sat imx sco snp).getLsbD 1 = sat ∧ (acc5 rnd sat imx sco snp).getLsbD 2 = imx ∧
    (acc5 rnd sat imx sco snp).getLsbD 3 = sco ∧ (acc5 rnd sat imx sco snp).getLsbD 4 = snp := by
  decide

theorem Pfx.kinds_getLsbD {p : Pfx} {w : W32} (h : w ∈ p.words) : p.kinds.getLsbD (pfxKind w) = true := by
  obtain ⟨hrnd, hsat, himx, hsco, hsnp⟩ := getLsbD_acc5 p.rnd.isSome p.sat.isSome p.imx.isSome p.sco.isSome p.snp.isSome
  obtain ⟨c, r, hp, rfl⟩ | ⟨m, b, hp, rfl⟩ | ⟨c, hp, rfl⟩ | ⟨c, hp, rfl⟩ | ⟨v, hp, rfl⟩ := Pfx.mem_words h
  · rw [pfxKind_rndWord, Pfx.kinds, hrnd, hp, Option.isSome_some]
  · rw [pfxKind_satWord, Pfx.kinds, hsat, hp, Option.isSome_some]
  · rw [pfxKind_scoWord, Pfx.kinds, hsco, hp, Option.isSome_some]
  · rw [pfxKind_snpWord, Pfx.kinds, hsnp, hp, Option.isSome_some]
  · rw [pfxKind_imxWord, Pfx.kinds, himx, hp, Option.isSome_some]

/-- A set within another has its members there. -/
theorem getLsbD_of_and_not_eq_zero {a b : BitVec 5} (h : a &&& ~~~b = 0#5) {k : Nat} (ha : a.getLsbD k = true) :
    b.getLsbD k = true := by
  have hk := BitVec.lt_of_getLsbD ha
  have hbit := congrArg (BitVec.getLsbD · k) h
  simpa [ha, hk] using hbit

/-- The words that take no RND with code 5 have none (09 R274). -/
theorem Instr.noSR_of_fieldsOk {e : Env} {i : Instr} (hsr : i.refusesSR = true) (hok : i.fieldsOk e = true) : noSR e = true := by
  cases i <;> cases hsr <;> exact hok

theorem Pfx.code_of_noSR {e : Env} (hsr : noSR e = true) {w : W32} (h : w ∈ e.pfx.words) (hk : pfxKind w = 0) :
    w.extractLsb' 6 3 ≠ 5#3 := by
  obtain ⟨c, r, hp, rfl⟩ | ⟨m, b, -, rfl⟩ | ⟨c, -, rfl⟩ | ⟨c, -, rfl⟩ | ⟨v, -, rfl⟩ := Pfx.mem_words h
  · have hcode : (rndWord c r).extractLsb' 6 3 = c := by
      simp [rndWord, BitVec.extractLsb'_or, extract_shift_apart, extract_shift_same]
    simpa [noSR, hp, hcode] using hsr
  · rw [pfxKind_satWord] at hk
    cases hk
  · rw [pfxKind_scoWord] at hk
    cases hk
  · rw [pfxKind_snpWord] at hk
    cases hk
  · rw [pfxKind_imxWord] at hk
    cases hk

/-! ### The checks of the prefixes of an item -/

theorem leadPfx_append {ps rest : List W32} (hps : ∀ w ∈ ps, w.extractLsb' 0 2 = 2#2) (hrest : leadPfx rest = []) :
    leadPfx (ps ++ rest) = ps := by
  induction ps with
  | nil => exact hrest
  | cons w ps ih =>
    have hw : w.extractLsb' 0 2 = 2#2 := hps w List.mem_cons_self
    have htail : leadPfx (ps ++ rest) = ps := ih fun v hv => hps v (List.mem_cons_of_mem _ hv)
    simp [leadPfx, hw, htail]

theorem badPfx_none (n : Nat) {ws : List W32} (h : ∀ w ∈ ws, pfxOwn w = none) : badPfx n ws = none := by
  induction ws generalizing n with
  | nil => rfl
  | cons w ws ih =>
    have hw : pfxOwn w = none := h w List.mem_cons_self
    have htail : badPfx (n + 1) ws = none := ih (n + 1) fun v hv => h v (List.mem_cons_of_mem _ hv)
    simp [badPfx, hw, htail]

/-- No word of a run of prefixes is an orphan where there are at most two, of kinds that differ and are accepted, and no RND has the
code SR where that is refused. -/
theorem orphanAt_none {acc : BitVec 5} {sr : Bool} {ws : List W32} (prev : Option Nat) (n : Nat) (hlen : n + ws.length ≤ 2)
    (hacc : ∀ w ∈ ws, acc.getLsbD (pfxKind w) = true)
    (hsr : sr = true → ∀ w ∈ ws, pfxKind w = 0 → w.extractLsb' 6 3 ≠ 5#3)
    (hnodup : (ws.map pfxKind).Nodup) (hprev : ∀ k ∈ ws.map pfxKind, prev ≠ some k) :
    orphanAt acc sr prev n ws = none := by
  induction ws generalizing prev n with
  | nil => rfl
  | cons w ws ih =>
    simp only [List.map_cons, List.nodup_cons, List.length_cons, List.forall_mem_cons] at hlen hacc hsr hnodup hprev
    obtain ⟨hfresh, hnodup⟩ := hnodup
    have htail : orphanAt acc sr (some (pfxKind w)) (n + 1) ws = none :=
      ih (some (pfxKind w)) (n + 1) (by omega) hacc.2 (fun h => (hsr h).2) hnodup
        fun k hk heq => hfresh (Option.some.inj heq ▸ hk)
    have hn : ¬ 2 ≤ n := by omega
    have hcode : ¬ (sr = true ∧ pfxKind w = 0 ∧ w.extractLsb' 6 3 = 5#3) := fun ⟨h1, h2, h3⟩ => (hsr h1).1 h2 h3
    simp only [orphanAt]
    rw [if_neg (by simp [hn, hacc.1, hprev.1]), if_neg (by simpa using hcode), htail]

/-! ### The item -/

/-- A well-formed set of prefixes is good where the slot word takes it. -/
theorem Pfx.orphanAt_words {e : Env} {i : Instr} (hok : i.fieldsOk e = true) (hpfx : e.pfx.ok = true)
    (hacc : e.pfx.kinds &&& ~~~i.accepts = 0#5) : orphanAt i.accepts i.refusesSR none 0 e.pfx.words = none := by
  simp only [Pfx.ok, Bool.and_eq_true, decide_eq_true_eq] at hpfx
  obtain ⟨-, hlen⟩ := hpfx
  exact orphanAt_none none 0 (by omega) (fun w hw => getLsbD_of_and_not_eq_zero hacc (Pfx.kinds_getLsbD hw))
    (fun hsr w hw hk => Pfx.code_of_noSR (i.noSR_of_fieldsOk hsr hok) hw hk) e.pfx.kinds_words_nodup (by simp)

theorem Pfx.badPfx_words {p : Pfx} (h : p.ok = true) : badPfx 0 p.words = none := by
  simp only [Pfx.ok, Bool.and_eq_true, List.all_eq_true, beq_iff_eq] at h
  exact badPfx_none 0 h.1

theorem Instr.low_selector (e : Env) (i : Instr) :
    ((i.word e).setWidth 32).extractLsb' 0 2 = if i.code.1 then 1#2 else 0#2 :=
  (extract_low _ 0 2 (by decide)).trans (i.word_selector e rfl)

theorem Instr.low_pred (e : Env) (i : Instr) : ((i.word e).setWidth 32).extractLsb' 3 4 = e.pred :=
  (extract_low _ 3 4 (by decide)).trans (i.word_pred e rfl)

theorem Instr.low_hold (e : Env) (i : Instr) : ((i.word e).setWidth 32).getLsbD 2 = e.hold := by
  have hbit := congrArg (BitVec.getLsbD · 0) ((extract_low _ 2 1 (by decide)).trans (i.word_hold e rfl))
  simpa using hbit

theorem Instr.wf_word {e : Env} {i : Instr} (hw : i.isWord = true) (h : i.wf e = true) :
    i.fieldsOk e = true ∧ i.placeOk e = true ∧ e.pfx.ok = true ∧ e.pfx.kinds &&& ~~~i.accepts = 0#5 := by
  simpa [Instr.wf, hw, and_assoc] using h

/-- The second word of a pair counts in a pair only. -/
theorem ite_high {f64 : Bool} {w : BitVec 64} {hi : W32} (h : f64 = true → hi = (w >>> 32).setWidth 32) :
    (if f64 then hi ++ w.setWidth 32 else (w.setWidth 32).setWidth 64 : BitVec 64) = slotWord f64 w := by
  cases f64
  · rw [slotWord, if_neg Bool.false_ne_true, if_neg Bool.false_ne_true]
  · rw [slotWord, if_pos rfl, if_pos rfl, h rfl]

/-- An item with the prefixes, the word and, in a pair, the second word of a well-formed instruction is that instruction. -/
theorem decodeItem_word (e : Env) (i : Instr) (hw : i.isWord = true) (h : i.wf e = true) (hi : W32)
    (hhigh : i.code.1 = true → hi = (i.word e >>> 32).setWidth 32) :
    decodeItem e.pos e.pfx.words ((i.word e).setWidth 32) hi = .ok ⟨e, i⟩ := by
  obtain ⟨hok, hplace, hpfx, hacc⟩ := i.wf_word hw h
  have hform : (((i.word e).setWidth 32).extractLsb' 0 2 == 1#2) = i.code.1 := by
    rw [i.low_selector e]
    cases i.code.1 <;> rfl
  have hslot : (if i.code.1 then hi ++ (i.word e).setWidth 32 else ((i.word e).setWidth 32).setWidth 64 : BitVec 64) =
      slotWord i.code.1 (i.word e) := by
    exact ite_high hhigh
  simp only [decodeItem, Pfx.badPfx_words hpfx, hform, i.low_pred e, i.low_hold e, e.pfx.foldl_add_words]
  rw [hslot, decodeAt_slotWord e i hw hok hplace]
  simp only [Pfx.orphanAt_words hok hpfx hacc]

/-- Settles O55: the fields of the envelope, of the operands and of the prefixes are read from where they were put, and no
check of the decoder refuses them, as they are the checks of `Instr.wf`. -/
theorem encodeThenDecode : Obligations.EncodeThenDecode := by
  unfold Obligations.EncodeThenDecode
  intro e i hw h
  have hlead : leadPfx (encode e i) = e.pfx.words := by
    rw [encode, if_pos hw]
    refine leadPfx_append (fun w => Pfx.selector_words) ?_
    rw [leadPfx, i.low_selector e]
    cases i.code.1 <;> rfl
  have hdrop : (encode e i).drop e.pfx.words.length =
      (i.word e).setWidth 32 :: (if i.code.1 then [(i.word e >>> 32).setWidth 32] else []) := by
    rw [encode, if_pos hw, List.drop_left]
  unfold decodeWords
  simp only [hlead, hdrop, i.low_selector e]
  rw [decodeItem_word e i hw h _ fun hc => by rw [hc]; rfl]
  cases i.code.1 <;> rfl

/-- Settles O57: each worked bundle is decoded. -/
theorem wordsOfTheSpecDecode : Obligations.WordsOfTheSpecDecode := by
  unfold Obligations.WordsOfTheSpecDecode
  intro plain
  refine ⟨?_, ?_, ?_, ?_, ?_, ?_, ?_, ?_, ?_, ?_, ?_, ?_, ?_, ?_, ?_⟩ <;> decide

end Sys2Proof
end

section
/-! ## Compares into a predicate (09 R273, 08 R224) -/

namespace Sys2Proof.Machine

open Sys2Proof Sys2Proof.Claims

/-- Sign extension of a field is the field as a signed number. -/
theorem sext_toNat {w : Nat} (f : BitVec w) : sext w f.toNat = f.toInt := by
  have hmod : (f.toNat : Int) % 2 ^ w = f.toNat := Int.emod_eq_of_lt (Int.natCast_nonneg _) (by exact_mod_cast f.isLt)
  rw [BitVec.toInt_eq_toNat_cond, sext, Nat.mod_eq_of_lt f.isLt, hmod, Nat.cast_pow, Nat.cast_ofNat]
  obtain rfl | hw := Nat.eq_zero_or_pos w
  · simp [BitVec.toNat_of_zero_length]
  · have hhalf : f.toNat < 2 ^ (w - 1) ↔ 2 * f.toNat < 2 ^ w := by
      rw [← Nat.two_pow_pred_mul_two hw]
      omega
    simp only [hhalf]

/-- An immediate as the state reads it is its field, after IMX the field with 26 bits above it (08 R225). -/
theorem State.imm_eq_immediate (s : State) {w : Nat} (f : BitVec w) : s.imm f = immediate s f := by
  unfold State.imm immediate
  cases s.env.pfx.imx with
  | none => exact sext_toNat f
  | some h =>
    have happend : (h ++ f).toNat = h.toNat * 2 ^ w + f.toNat := by
      rw [BitVec.toNat_append, Nat.shiftLeft_eq, Nat.mul_comm, Nat.two_pow_add_eq_or_of_lt f.isLt]
    simp only [← happend, Nat.add_comm w 26]
    exact sext_toNat (h ++ f)

/-- The condition of a code of R224, on signed and on unsigned numbers. -/
theorem icond_eq_holds (x y : Word) : ∀ c, icond c x y = holds c x y
  | 0 | 1 | 2 | 3 | 4 | 5 | 6 | 7 | 8 => rfl
  | _ + 9 => rfl

/-- A slot word with a field that is not allowed is not well-formed. -/
theorem wf_of_not_fieldsOk {e : Env} {i : Instr} (hw : i.isWord = true) (hok : i.fieldsOk e = false) : i.wf e = false := by
  simp [Instr.wf, hw, hok]

section
variable {s : State} {a b : BitVec 6}

theorem State.compare_clean (kd : Nat) (f : Word → Word → Bool) (h : clean s [a.toNat, b.toNat]) :
    s.compare a b kd f = .next (owingK s kd (f (s.sreg a.toNat) (s.sreg b.toNat)) true) := by
  obtain ⟨hpred, hreads⟩ := h
  rw [State.compare, State.scalar_true _ _ hpred, State.consume_clean _ _ _ hreads]
  rfl

theorem State.compareImm_clean (kd c : Nat) (v : Int) (h : clean s [a.toNat]) :
    s.compareImm a kd c v = .next (owingK s kd (holds c (s.sreg a.toNat) (BitVec.ofInt 64 v)) true) := by
  obtain ⟨hpred, hreads⟩ := h
  rw [State.compareImm, State.scalar_true _ _ hpred, State.consume_clean _ _ _ hreads, icond_eq_holds]
  rfl

end

/-- Settles O3: the compares owe the condition of their code, and `Instr.fieldsOk` refuses a code above 9. -/
theorem integerCompareResults : Obligations.IntegerCompareResults := by
  unfold Obligations.IntegerCompareResults
  intro s c k4 a b k i6 i37 e
  refine ⟨fun _ => ⟨fun h => ⟨?_, ?_⟩, fun h => ⟨?_, ?_⟩⟩, fun hc => ?_, fun _ _ _ => rfl⟩
  · rw [← icond_eq_holds]
    exact State.compare_clean k.toNat (icond c.toNat) h
  · rw [← icond_eq_holds]
    exact State.compare_clean k4.toNat (icond c.toNat) h
  · rw [← s.imm_eq_immediate]
    exact State.compareImm_clean k.toNat c.toNat (s.imm i6) h
  · exact State.compareImm_clean k4.toNat c.toNat i37.toInt h
  · have hcode : ¬ c.toNat ≤ 9 := by omega
    have hrefused : decide (c.toNat ≤ 9) = false := decide_eq_false hcode
    exact ⟨wf_of_not_fieldsOk rfl hrefused, wf_of_not_fieldsOk rfl hrefused,
      wf_of_not_fieldsOk rfl hrefused, wf_of_not_fieldsOk rfl hrefused⟩

end Sys2Proof.Machine
end

section
/-! ## What a false predicate stops, and that words owe their results (08 R220, 02 R47, R68) -/

namespace Sys2Proof.Machine

open Sys2Proof Sys2Proof.Claims

/-! ### A false predicate -/

/-- The words of the classes before V but the array's act under their predicate (08 R220). -/
theorem exec_scalar_false (i : Instr) (s : State) (hw : i.isWord = true) (hlt : i.slots.1.blt 9 = true)
    (hne : (i.slots.1 != 5) = true) (h : ¬ s.pred = true) : exec i s = .next s := by
  cases i <;> cases hw <;> cases hlt <;> cases hne <;> exact congrArg Host.Outcome.next (if_neg h)

theorem State.aldWord_pass (s : State) (i : Instr) (tg : Target) (b : BitVec 7) (k : BitVec 9) (n : BitVec 6) (t : BitVec 1)
    (lay : BitVec 2) : ∃ regs opnds run, s.aldWord i tg b k n t lay = s.pass i regs opnds run := ⟨_, _, _, rfl⟩

theorem State.matWord_pass (s : State) (i : Instr) (b z : BitVec 7) (m : MatArgs) :
    ∃ regs opnds run, s.matWord i b z m = s.pass i regs opnds run := ⟨_, _, _, rfl⟩

/-- The words of the array are steps of a pass. -/
theorem exec_pass (i : Instr) (s : State) (hs : i.slots.1 = 5) : ∃ regs opnds run, exec i s = s.pass i regs opnds run := by
  unfold exec
  cases i <;> cases hs <;> dsimp only
  case ald | alds => exact State.aldWord_pass ..
  case amm | amms => exact State.matWord_pass ..
  all_goals exact ⟨_, _, _, rfl⟩

/-- A pass after a step whose predicate is false (13 R351). -/
def Pass.skipped (p : Pass) : Pass := { p with k := p.k + 1, cut := false, row := if p.k % 2 = 0 then [] else p.row }

/-- A step whose predicate is false moves its pass where the context owns the array, and does nothing else. -/
theorem State.pass_false (s : State) (i : Instr) (regs : List Nat) (opnds : State → List Nat) (run : State → Pass → State)
    (h : s.pred = false) : s.pass i regs opnds run = .next (if s.core.array.owner = some s.cur then
      withA s { s.core.array with pass := some (s.passOf i regs (opnds s)).skipped } else s) := by
  rw [State.pass, h]
  rfl

/-- A word before class V whose predicate is false does nothing but to count a step of the owner's pass. -/
theorem exec_pred_false (i : Instr) (s : State) (hw : i.isWord = true) (hlt : i.slots.1 < 9) (h : s.pred = false) :
    (i.slots.1 ≠ 5 ∨ s.core.array.owner ≠ some s.cur → exec i s = .next s) ∧
      ∃ p, exec i s = .next (withA s { s.core.array with pass := p }) := by
  by_cases ha : i.slots.1 = 5
  · obtain ⟨regs, opnds, run, hexec⟩ := exec_pass i s ha
    rw [hexec, s.pass_false i regs opnds run h]
    by_cases ho : s.core.array.owner = some s.cur
    · rw [if_pos ho]
      exact ⟨fun hor => absurd ho (hor.resolve_left (not_not_intro ha)), _, rfl⟩
    · rw [if_neg ho]
      exact ⟨fun _ => rfl, s.core.array.pass, rfl⟩
  · have hexec : exec i s = .next s := exec_scalar_false i s hw (by simpa using hlt) (by simpa using ha) (by simp [h])
    exact ⟨fun _ => hexec, s.core.array.pass, hexec⟩

/-! ### What a word that owes its results keeps -/

/-- `t` has the registers of `s`, in the same focus and with the same agenda. -/
def State.Keeps (s t : State) : Prop := t.ctx.regs = s.ctx.regs ∧ t.cur = s.cur ∧ t.agenda = s.agenda

namespace State.Keeps

variable {s t : State}

theorem refl (s : State) : Keeps s s := ⟨rfl, rfl, rfl⟩

theorem trans {u : State} (h : Keeps s t) (h' : Keeps t u) : Keeps s u :=
  ⟨h'.1.trans h.1, h'.2.1.trans h.2.1, h'.2.2.trans h.2.2⟩

theorem ite {p : Prop} [Decidable p] {u : State} (ht : Keeps s t) (hu : Keeps s u) : Keeps s (if p then t else u) := by
  split
  · exact ht
  · exact hu

theorem foldl {β : Type} {l : List β} {f : State → β → State} (hf : ∀ u x, Keeps u (f u x)) (h : Keeps s t) :
    Keeps s (l.foldl f t) :=
  List.foldlRecOn l f h fun _ hu x _ => hu.trans (hf _ x)

theorem ofTraces (h : tracesOnly s t) : Keeps s t := by
  obtain ⟨_, _, _, _, _, _, _, _, _, _, _, _, _, -, rfl⟩ := h
  exact refl s

/-! #### Traps -/

theorem logError (h : Keeps s t) (bank sev code : Nat) (psn : Bool) (akind loc : Nat) (org : Option Nat) :
    Keeps s (t.logError bank sev code psn akind loc org) :=
  h.trans (ofTraces (t.logError_traces ..))

theorem failLaunch (s : State) (c : Context) (code : Nat) : Keeps s (s.failLaunch c code) := by
  unfold State.failLaunch
  dsimp only
  split <;> exact refl s

theorem unbind (s : State) (n : Nat) : Keeps s (s.unbind n) := by
  unfold State.unbind
  exact ite (refl s) (refl s)

theorem doubleTrap (s : State) : Keeps s s.doubleTrap := by
  have hlog := logError (refl s) (coreBank s.cur) 2 0x000A false 0 0 (some (s.originOf s.cur))
  unfold State.doubleTrap
  dsimp only
  generalize s.logError (coreBank s.cur) 2 0x000A false 0 0 (some (s.originOf s.cur)) = u at *
  have hfail := hlog.trans (failLaunch u u.ctx 7)
  generalize u.failLaunch u.ctx 7 = v at *
  exact hfail.trans (unbind v u.ctx.bound)

theorem boundary (s : State) : Keeps s s.boundary := by
  unfold State.boundary
  split
  · exact refl s
  · exact ite (refl s) (refl s)

theorem takeTrap (s : State) (cause : BitVec 8) (detail : BitVec 16) (tbund tnext va : Nat) :
    Keeps s (s.takeTrap cause detail tbund tnext va) := by
  unfold State.takeTrap
  refine ite (doubleTrap s) ?_
  have hposted (p : Bool) (u : State) (tid c d a src aux : Nat) : Keeps u (if p then u.post tid 1 c d a src aux [] else u) :=
    ite (ofTraces (u.post_traces ..)) (refl u)
  exact (boundary s).trans (hposted _ _ _ _ _ _ _ _)

theorem trapBefore (s : State) (cause : BitVec 8) (detail : BitVec 16) (va : Nat) : Keeps s (s.trapBefore cause detail va) :=
  takeTrap s ..

theorem trapMchk (s : State) : Keeps s s.trapMchk :=
  (logError (refl s) ..).trans (trapBefore ..)

/-! #### The gates of a word -/

section
variable {f : State → State}

theorem consume {l : List Nat} (h : Keeps s (f s)) : Keeps s (s.consume l f) := ite (trapMchk s) h

theorem consumeV {l : List Nat} {lanes : BitVec 16} (h : Keeps s (f s)) : Keeps s (s.consumeV l lanes f) := ite (trapMchk s) h

theorem consumeVS {r : Nat} (h : Keeps s (f s)) : Keeps s (s.consumeVS r f) := ite (consume h) h

theorem checkMem {l : List (Nat × Nat × Nat × Bool × Nat)} (h : Keeps s (f s)) : Keeps s (s.checkMem l f) := by
  unfold State.checkMem
  refine ite (trapBefore ..) ?_
  split
  · exact ite (trapBefore ..) (trapBefore ..)
  · split
    · exact trapBefore ..
    · exact h

theorem checkCopy {l : List CopyArg} (h : Keeps s (f s)) : Keeps s (s.checkCopy l f) := by
  unfold State.checkCopy
  refine ite (trapBefore ..) ?_
  dsimp only
  split
  · exact ite (trapBefore ..) (trapBefore ..)
  · split
    · exact trapBefore ..
    · exact h

end

/-! #### Accesses -/

theorem setClu (s : State) (n : Nat) (c : ClusterState) : Keeps s (s.setClu n c) := by
  unfold State.setClu
  exact ite (refl s) (refl s)

theorem walkInstall (s : State) (clu : Option Nat) (tid va : Nat) (wr : Bool) : Keeps s (s.walkInstall clu tid va wr).1 := by
  have hwalk := ofTraces (s.walked_leaves clu tid va)
  unfold State.walkInstall
  dsimp only
  split
  · exact hwalk
  · next entry _ _ _ =>
    have hmark := hwalk.trans (ofTraces (State.markEntry_leaves _ tid entry wr))
    cases clu with
    | none => exact hmark
    | some p => exact hmark.trans (setClu _ _ _)

theorem translateCtx (s : State) (va : Nat) (acc : Access) : Keeps s (s.translateCtx va acc).1 := by
  unfold State.translateCtx State.translate
  dsimp only
  split
  · exact refl s
  · split
    · exact refl s
    · split
      · exact refl s
      · split
        · exact refl s
        · have hwalk := walkInstall s (some s.clusterId) (s.tidOf s.ctx) va
            (acc.wr && s.mayWrite (some s.clusterId) (s.tidOf s.ctx) va acc)
          split <;> next heq => rw [heq] at hwalk; exact hwalk

theorem prefLine (s : State) (va : Nat) : Keeps s (s.prefLine va) := by
  have htranslate := translateCtx s va .read
  unfold State.prefLine
  split
  · exact refl s
  · split
    · next heq =>
      rw [heq] at htranslate
      exact ite (htranslate.trans (ofTraces (State.visit_traces ..))) htranslate
    · next heq =>
      rw [heq] at htranslate
      exact htranslate

theorem pushCmd (s : State) (op : CopyOp) (land : Option (LandKind × Nat)) : Keeps s (s.pushCmd op land) := by
  unfold State.pushCmd
  cases land <;> exact refl s

/-! #### What a word owes and measures -/

theorem owe (h : Keeps s t) {r : Result} : Keeps s (t.owe r) := h

theorem oweV (h : Keeps s t) {g r : Nat} {val : BitVec 512} {lanes poison : BitVec 16} {lat : Nat} :
    Keeps s (t.oweV g r val lanes poison lat) := h

theorem measV (h : Keeps s t) {wgt act els : Nat} : Keeps s (t.measV wgt act els) := h

theorem markDraw (h : Keeps s t) {b : Bool} : Keeps s (t.markDraw b) := h

/-! #### The array -/

theorem modA (h : Keeps s t) {f : ArrayState → ArrayState} : Keeps s (t.modA f) := h

theorem stepDone (h : Keeps s t) {p : Pass} : Keeps s (t.stepDone p) := h

theorem measF (h : Keeps s t) {w num den : Nat} : Keeps s (t.measF w num den) := h

theorem setCore (s : State) (n : Nat) (c : CoreState) : Keeps s (s.setCore n c) := by
  unfold State.setCore
  exact ite (refl s) (refl s)

theorem foundInCore (s : State) (id : Nat) (unc : Bool) : Keeps s (s.foundInCore id unc) := by
  have hlog := logError (refl s) (coreBank id) (if unc then 2 else 1) (if unc then 2 else 1) unc 0 0 (some (s.originOf id))
  unfold State.foundInCore
  exact ite hlog (hlog.trans (setCore _ _ _))

theorem meetUpset (s : State) (u : Upset) : Keeps s (s.meetUpset u) := by
  have hcore := foundInCore s s.cur u.unc
  have hmem := ofTraces (s.found_traces u)
  unfold State.meetUpset
  split
  · exact ite hcore hcore
  · exact ite hcore hcore
  · exact ite hmem (hmem.trans (setCore _ _ _))
  · exact refl s

theorem meet (h : Keeps s t) {p : Site → Bool} : Keeps s (t.meet p) := foldl meetUpset h

theorem winFind (h : Keeps s t) {l : List (Nat × Nat)} : Keeps s (t.winFind l) := ite h (meet h)

theorem cellFind (h : Keeps s t) {p : Nat → Bool} {rows : List (Nat × Nat)} : Keeps s (t.cellFind p rows) := ite h (meet h)

theorem overRow (h : Keeps s t) {src r : Nat} : Keeps s (t.overRow src r) := ite h h

theorem overZero (h : Keeps s t) {n : Nat} : Keeps s (t.overZero n) := ite h h

theorem clearRow (h : Keeps s t) {clr : Bool} {src r : Nat} : Keeps s (t.clearRow clr src r) := ite (modA (overRow h)) h

theorem residue (h : Keeps s t) {bad : ArrayState → Nat → ArrayState} : Keeps s (t.residue bad) := by
  unfold State.residue
  split
  · exact h
  · refine ite (logError ?_ ..) (logError ?_ ..) <;> exact h

theorem drawn (h : Keeps s t) {n : Nat} : Keeps s { t with draws := n } := h

theorem rowsOf (s : State) (p : Pass) : Keeps s (s.rowsOf p).1 := by
  unfold State.rowsOf
  split <;> exact refl s

section
variable {f : State → State} (hf : ∀ u, Keeps u (f u))
include hf

theorem eats (s : State) (reads : List (Nat × Nat)) (p : Nat → Bool) (rows : List (Nat × Nat)) : Keeps s (s.eats reads p rows f) := by
  have hfound : Keeps s ((s.winFind (reads.filter fun x => !s.localBad x.1 x.2)).cellFind p rows) := cellFind (winFind (refl s))
  exact ite (hfound.trans (trapMchk _)) (hfound.trans (hf _))

theorem checkStreams (s : State) (bases a b w : List (Nat × Nat)) : Keeps s (s.checkStreams bases a b w f) := by
  unfold State.checkStreams
  refine ite (trapBefore ..) ?_
  split
  · exact trapBefore ..
  · refine ite (trapBefore ..) ?_
    dsimp only
    split
    · exact trapBefore ..
    · exact (winFind (refl s)).trans (hf _)

theorem gridCheck (s : State) (p : Pass) (spline : Option Bool) (kind : Option PlaneKind) :
    Keeps s (s.gridCheck p spline kind f) :=
  ite (trapBefore ..) (ite (trapBefore ..) (hf s))

end

end State.Keeps

/-! #### Words -/

/-- A word goes on to a state that keeps what `s` has. -/
def Out.Keeps (s : State) (o : Out) : Prop := ∃ t, o = .next t ∧ State.Keeps s t

namespace Out.Keeps

open State.Keeps (refl ite foldl consume consumeV consumeVS checkMem checkCopy pushCmd trapBefore trapMchk owe oweV measV markDraw)

theorem next {s t : State} (h : State.Keeps s t) : Out.Keeps s (.next t) := ⟨t, rfl, h⟩

theorem scalar {s : State} {f : State → State} (h : State.Keeps s (f s)) : Out.Keeps s (s.scalar f) := next (ite h (refl s))

theorem pass {s : State} {i : Instr} {regs : List Nat} {opnds : State → List Nat} {run : State → Pass → State}
    (h : ∀ p, State.Keeps s (run s p)) : Out.Keeps s (s.pass i regs opnds run) := by
  unfold State.pass
  refine next ?_
  dsimp only
  exact ite (ite (refl s) (refl s)) (ite (trapMchk s) (ite (h _) (trapBefore ..)))

variable (s : State)

/-! ##### Classes S, K and Q -/

theorem alu1 (d a : BitVec 6) (f : Word → Word) : Out.Keeps s (s.alu1 d a f) := scalar (consume (refl s))

theorem alu2 (d a b : BitVec 6) (lat : Nat) (f : Word → Word → Word) : Out.Keeps s (s.alu2 d a b lat f) :=
  scalar (consume (refl s))

theorem compare (a b : BitVec 6) (kd : Nat) (f : Word → Word → Bool) : Out.Keeps s (s.compare a b kd f) :=
  scalar (consume (refl s))

theorem compareImm (a : BitVec 6) (kd c : Nat) (v : Int) : Out.Keeps s (s.compareImm a kd c v) := scalar (consume (refl s))

theorem latch (a : Nat) (f : Word → List LatchWrite) : Out.Keeps s (s.latch a f) :=
  scalar (consume (ite (refl s) (trapBefore ..)))

theorem logic (d a b g : Nat) (k : BitVec 1) (f : BitVec 16 → BitVec 16 → BitVec 16) : Out.Keeps s (s.logic d a b g k f) :=
  scalar (ite (refl s) (refl s))

theorem exec_classS (i : Instr) (h : i.slots.1 = 1) : Out.Keeps s (exec i s) := by
  unfold exec
  cases i <;> cases h <;> dsimp only
  case mov | sel | movi | movi64 | aird | rng => exact scalar (refl s)
  case bfi | ffma | cvtf | aiwr => exact scalar (consume (refl s))
  case cmp | cmp64 | fcmp | fcmp64 => exact compare ..
  case cmpi | cmpi64 => exact compareImm ..
  case addi | addi64 | clz | ctz | popc | bfx | bfxs => exact alu1 ..
  all_goals exact alu2 ..

theorem exec_classK (i : Instr) (h : i.slots.1 = 6) : Out.Keeps s (exec i s) := by
  unfold exec
  cases i <;> cases h <;> dsimp only <;> exact latch ..

theorem exec_classQ (i : Instr) (h : i.slots.1 = 8) : Out.Keeps s (exec i s) := by
  unfold exec
  cases i <;> cases h <;> dsimp only
  case psetk | pcnt | pfirst => exact scalar (refl s)
  case pktom => exact scalar (foldl (fun u _ => refl u) (refl s))
  all_goals exact logic ..

/-! ##### Classes L, T and P -/

theorem scalarLoad (d base sz : Nat) (sx : Bool) (disp : Int) (limit : Nat) (acq : Option Nat) :
    Out.Keeps s (s.scalarLoad d base sz sx disp limit acq) := scalar (consume (checkMem (refl s)))

theorem scalarLong (d base sz : Nat) (sx : Bool) (ad : Nat) (disp : Int) (acq : Option Nat) :
    Out.Keeps s (s.scalarLong d base sz sx ad disp acq) := scalar (consume (checkMem (refl s)))

theorem scalarStore (d base sz : Nat) (disp : Int) (limit : Nat) (rel : Option Nat) :
    Out.Keeps s (s.scalarStore d base sz disp limit rel) := scalar (consume (checkMem (refl s)))

theorem exec_classL (i : Instr) (h : i.slots.1 = 3) : Out.Keeps s (exec i s) := by
  unfold exec
  cases i <;> cases h <;> dsimp only
  case ld | ld64 | ldacq | ldacq64 => exact scalarLoad ..
  case ldl | ldacqLong => exact scalarLong ..
  case pref => exact scalar (consume (foldl (fun u _ => State.Keeps.prefLine u _) (refl s)))
  case vldx => exact scalar (ite (trapMchk s) (consume (checkMem (refl s))))
  case tld => exact scalar (consume (ite (checkMem (refl s)) (checkMem (refl s))))
  all_goals exact scalar (consume (checkMem (refl s)))

theorem exec_classT (i : Instr) (h : i.slots.1 = 4) : Out.Keeps s (exec i s) := by
  unfold exec
  cases i <;> cases h <;> dsimp only
  case st | st64 | strel | strel64 => exact scalarStore ..
  case vstm | vstm64 => exact scalar (consume (ite (trapBefore ..) (checkMem (refl s))))
  case vstx => exact scalar (ite (trapMchk s) (consume (checkMem (refl s))))
  all_goals exact scalar (consume (checkMem (refl s)))

theorem exec_classP (i : Instr) (h : i.slots.1 = 7) : Out.Keeps s (exec i s) := by
  unfold exec
  cases i <;> cases h <;> dsimp only
  case cpacc => exact scalar (consume (ite (trapBefore ..) (checkCopy (pushCmd ..))))
  case cpstat => exact scalar (pushCmd ..)
  case cpsend =>
    unfold execCpsend
    exact scalar (consume (checkCopy (pushCmd ..)))
  case cpbinit =>
    unfold execCpbinit
    exact scalar (consume (checkCopy (pushCmd ..)))
  all_goals exact scalar (consume (checkCopy (pushCmd ..)))

/-! ##### Class V -/

theorem vmap (d : Nat) (srcs : List Nat) (c wgt lat : Nat) (draws : Bool) (f : Nat → Nat → List Nat → Nat) :
    Out.Keeps s (s.vmap d srcs c wgt lat draws f) := next (consumeV (refl s))

theorem vfloat (d : Nat) (srcs : List Nat) (c wgt lat : Nat) (f : List Fl → Fl) : Out.Keeps s (s.vfloat d srcs c wgt lat f) := by
  unfold State.vfloat
  exact vmap ..

theorem vadd (d a b c : Nat) : Out.Keeps s (s.vadd d a b c) := by
  unfold State.vadd
  exact vfloat ..

theorem vsub (d a b c : Nat) : Out.Keeps s (s.vsub d a b c) := by
  unfold State.vsub
  exact vfloat ..

theorem vmul (d a b c : Nat) : Out.Keeps s (s.vmul d a b c) := by
  unfold State.vmul
  exact vfloat ..

theorem vminmax (mx : Bool) (d a b c : Nat) : Out.Keeps s (s.vminmax mx d a b c) := by
  unfold State.vminmax
  exact vmap ..

theorem vsign (neg : Bool) (d a c : Nat) : Out.Keeps s (s.vsign neg d a c) := by
  unfold State.vsign
  exact vmap ..

theorem vspecial (fn wgt lat d a c : Nat) : Out.Keeps s (s.vspecial fn wgt lat d a c) := by
  unfold State.vspecial
  exact vmap ..

theorem vlanes (d : Nat) (srcs : List Nat) (f : List W32 → W32) : Out.Keeps s (s.vlanes d srcs f) := by
  unfold State.vlanes
  exact vmap ..

theorem vshift (k d a b c : Nat) : Out.Keeps s (s.vshift k d a b c) := by
  unfold State.vshift
  exact vmap ..

theorem vint (d : Nat) (srcs : List Nat) (c wgt lat : Nat) (f : List Int → Int) : Out.Keeps s (s.vint d srcs c wgt lat f) := by
  unfold State.vint
  exact vmap ..

theorem viadd (d a b c : Nat) : Out.Keeps s (s.viadd d a b c) := by
  unfold State.viadd
  exact vint ..

theorem visub (d a b c : Nat) : Out.Keeps s (s.visub d a b c) := by
  unfold State.visub
  exact vint ..

theorem vimul (d a b c : Nat) : Out.Keeps s (s.vimul d a b c) := by
  unfold State.vimul
  exact vint ..

theorem vimin (d a b c : Nat) : Out.Keeps s (s.vimin d a b c) := by
  unfold State.vimin
  exact vint ..

theorem vimax (d a b c : Nat) : Out.Keeps s (s.vimax d a b c) := by
  unfold State.vimax
  exact vint ..

theorem vcompare (md a b c part : Nat) (f : Nat → Nat → Bool) : Out.Keeps s (s.vcompare md a b c part f) :=
  next (consumeV (refl s))

theorem vcopy (d wgt lat : Nat) (full : Bool) (src : Nat → Nat × Nat) : Out.Keeps s (s.vcopy d wgt lat full src) := next (refl s)

theorem vperm (d a b w : Nat) : Out.Keeps s (s.vperm d a b w) := next (consumeV (refl s))

theorem vplace (d a sd w : Nat) (zero : Bool) (n : Nat) (srcOf : Nat → Option Nat) :
    Out.Keeps s (s.vplace d a sd w zero n srcOf) := next (refl s)

theorem vcompress (d a sd w : Nat) (zero : Bool) : Out.Keeps s (s.vcompress d a sd w zero) := by
  unfold State.vcompress
  exact vplace ..

theorem vexpand (d a sd w : Nat) (zero : Bool) : Out.Keeps s (s.vexpand d a sd w zero) := by
  unfold State.vexpand
  exact vplace ..

theorem vredadd (d a c : Nat) (wide : Bool) : Out.Keeps s (s.vredadd d a c wide) := next (consumeV (refl s))

theorem vredext (mx : Bool) (d a c : Nat) : Out.Keeps s (s.vredext mx d a c) := next (consumeV (refl s))

theorem vscan (d a c : Nat) (ex : Bool) : Out.Keeps s (s.vscan d a c ex) := next (consumeV (refl s))

theorem exec_classV (i : Instr) (h : i.slots.1 = 9) : Out.Keeps s (exec i s) := by
  unfold exec
  cases i <;> cases h <;> dsimp only
  case vadd | vadd64 => exact vadd ..
  case vsub | vsub64 => exact vsub ..
  case vmul | vmul64 => exact vmul ..
  case vfma | vfms => exact vfloat ..
  case vmin | vmin64 | vmax | vmax64 => exact vminmax ..
  case vabs | vabs64 | vneg | vneg64 => exact vsign ..
  case vand | vand64 | vor | vor64 | vxor | vxor64 | vnot | vnot64 => exact vlanes ..
  case vshl | vshl64 | vshr | vshr64 | vsar | vsar64 => exact vshift ..
  case viadd | viadd64 => exact viadd ..
  case visub | visub64 => exact visub ..
  case vimul | vimul64 => exact vimul ..
  case vimin | vimin64 => exact vimin ..
  case vimax | vimax64 => exact vimax ..
  case vrnd => exact vmap ..
  case vcmp | vcmp64 | vicmp | vicmp64 => exact vcompare ..
  case vsel | vmov | vmov64 | vxcp | vxcp64 => exact vcopy ..
  case vperm | vperm64 => exact vperm ..
  case vcompress | vcompress64 => exact vcompress ..
  case vexpand | vexpand64 => exact vexpand ..
  case vredadd | vredadd64 => exact vredadd ..
  case vredmax | vredmax64 | vredmin | vredmin64 => exact vredext ..
  case vscan | vscan64 => exact vscan ..
  case vsplat | vsplat64 => exact next (measV (oweV (refl s)))
  case vrng => exact next (measV (markDraw (oweV (refl s))))
  case viota => exact next (consumeVS (measV (oweV (refl s))))
  case vcvt => exact next (consumeVS (consumeV (measV (markDraw (oweV (refl s))))))
  case vpack | vblkscl => exact next (consumeV (measV (oweV (refl s))))
  case vspcomp => exact next (consumeV (measV (owe (oweV (oweV (oweV (refl s)))))))
  case vunpk =>
    unfold execVunpk
    refine next ?_
    split
    · exact consumeVS (consumeV (measV (oweV (refl s))))
    · exact consumeV (measV (oweV (refl s)))
  all_goals exact vspecial ..

/-! ##### Class A -/

section

open State.Keeps (eats checkStreams gridCheck trans modA stepDone measF overZero residue clearRow cellFind rowsOf drawn overRow)

theorem aldWord (i : Instr) (tg : Target) (b : BitVec 7) (k : BitVec 9) (n : BitVec 6) (t : BitVec 1) (lay : BitVec 2) :
    Out.Keeps s (s.aldWord i tg b k n t lay) :=
  pass fun _ => ite (trapBefore ..) (checkStreams (fun u => stepDone (modA (refl u))) ..)

theorem matWord (i : Instr) (b z : BitVec 7) (m : MatArgs) : Out.Keeps s (s.matWord i b z m) := by
  unfold State.matWord
  exact pass fun _ => ite (trapBefore ..) (gridCheck (fun _ => ite (trapBefore ..) (eats (fun _ => checkStreams (fun u =>
    stepDone (measF (ite (modA (residue (overRow (modA (drawn (refl _)))))) (residue (overRow (modA (drawn (refl _)))))))) ..) ..)) ..)

theorem exec_aeval (b : BitVec 7) (r : BitVec 12) (o : BitVec 8) (n c : BitVec 1) : Out.Keeps s (execAeval b r o n c s) := by
  unfold execAeval
  exact pass fun p => gridCheck (fun u => ite
    (eats (fun _ => checkStreams (fun _ => eats (fun v => stepDone (measF (refl v))) ..) ..) ..)
    (trans (rowsOf u p) (eats (fun _ => stepDone (measF (residue (overRow (modA (drawn (refl _))))))) ..))) ..

theorem exec_abwd (b : BitVec 7) (r : BitVec 12) (z : BitVec 7) (q : BitVec 12) (o : BitVec 8) (c : BitVec 1) :
    Out.Keeps s (execAbwd b r z q o c s) := by
  unfold execAbwd
  exact pass fun p => ite (trapBefore ..) (ite
    (eats (fun _ => checkStreams (fun _ => eats (fun v => stepDone (measF (refl v))) ..) ..) ..)
    (trans (rowsOf s p) (eats (fun _ => stepDone (measF (residue (overRow (modA (drawn (refl _))))))) ..)))

theorem exec_agrad (b : BitVec 7) (r : BitVec 12) (z : BitVec 7) (q : BitVec 12) (c : BitVec 1) :
    Out.Keeps s (execAgrad b r z q c s) := by
  unfold execAgrad
  exact pass fun p => ite (trapBefore ..) (ite
    (eats (fun _ => checkStreams (fun _ => eats (fun v =>
      stepDone (measF (ite (modA (overZero (refl v))) (refl v)))) ..) ..) ..)
    (trans (rowsOf s p) (eats (fun v => stepDone (measF (residue (modA (refl v))))) ..)))

theorem exec_aupd (a : BitVec 6) (r : BitVec 5) : Out.Keeps s (execAupd a r s) := by
  unfold execAupd
  exact pass fun _ => ite (trapBefore ..) (eats (fun u => stepDone (residue (modA (refl u)))) ..)

theorem exec_aknot (b : BitVec 6) (d : BitVec 13) : Out.Keeps s (execAknot b d s) := by
  unfold execAknot
  refine pass fun _ => checkStreams (fun u => stepDone (modA ?_)) ..
  exact ite (refl u) ⟨rfl, rfl, rfl⟩

theorem exec_arefine : Out.Keeps s (execArefine s) := by
  unfold execArefine
  exact pass fun _ => ite (trapBefore ..) (ite (trapBefore ..)
    (eats (fun u => stepDone (modA (overZero (cellFind (refl u))))) ..))

theorem exec_aextend (l u : BitVec 4) : Out.Keeps s (execAextend l u s) := by
  unfold execAextend
  exact pass fun _ => ite (trapBefore ..) (ite (trapBefore ..) (eats (fun u => stepDone (modA (cellFind (refl u)))) ..))

theorem exec_aout (d : BitVec 10) (g : BitVec 3) (c : BitVec 2) (o : BitVec 8) (m : BitVec 6) (e : BitVec 8) (x : BitVec 1) :
    Out.Keeps s (execAout d g c o m e x s) := by
  unfold execAout
  exact pass fun _ => ite (trapBefore ..) (eats (fun u =>
    stepDone (markDraw (clearRow (foldl (fun v _ => oweV (refl v)) (refl u))))) ..)

theorem exec_aouts (b : BitVec 7) (q : BitVec 12) (c : BitVec 2) (o : BitVec 8) (m : BitVec 6) (e : BitVec 8) (x : BitVec 1) :
    Out.Keeps s (execAouts b q c o m e x s) := by
  unfold execAouts
  refine pass fun _ => ite (trapBefore ..) (eats (fun _ => checkStreams (fun _ => stepDone (markDraw (clearRow ?_))) ..) ..)
  exact ⟨rfl, rfl, rfl⟩

theorem exec_aoog (d : BitVec 6) (c : BitVec 1) : Out.Keeps s (execAoog d c s) := by
  unfold execAoog
  exact pass fun _ => stepDone (ite (modA (foldl (fun v _ => oweV (refl v)) (refl s)))
    (foldl (fun v _ => oweV (refl v)) (refl s)))

theorem exec_agout (d : BitVec 10) (g : BitVec 3) (o : BitVec 6) (q : BitVec 5) (c : BitVec 1) :
    Out.Keeps s (execAgout d g o q c s) := by
  unfold execAgout
  exact pass fun _ => stepDone (ite (modA (foldl (fun v _ => oweV (refl v)) (cellFind (refl s))))
    (foldl (fun v _ => oweV (refl v)) (cellFind (refl s))))

theorem exec_acout (d : BitVec 10) (g : BitVec 3) (o : BitVec 6) (q : BitVec 5) (l : BitVec 1) :
    Out.Keeps s (execAcout d g o q l s) := by
  unfold execAcout
  exact pass fun _ => stepDone (foldl (fun v _ => oweV (refl v)) (cellFind (refl s)))

theorem exec_classA (i : Instr) (h : i.slots.1 = 5) : Out.Keeps s (exec i s) := by
  unfold exec
  cases i <;> cases h <;> dsimp only
  case ald | alds => exact aldWord ..
  case amm | amms => exact matWord ..
  case aeval => exact exec_aeval ..
  case abwd => exact exec_abwd ..
  case agrad => exact exec_agrad ..
  case aupd => exact exec_aupd ..
  case aknot => exact exec_aknot ..
  case arefine => exact exec_arefine s
  case aextend => exact exec_aextend ..
  case aout => exact exec_aout ..
  case aouts => exact exec_aouts ..
  case aoog => exact exec_aoog ..
  case agout => exact exec_agout ..
  case acout => exact exec_acout ..
  case aswap => exact pass fun _ => stepDone (modA (cellFind (refl s)))
  case azero => exact pass fun _ => stepDone (modA (overZero (refl s)))
  case amode => exact pass fun _ => stepDone (modA (refl s))

end

/-- The words of every class but C keep the registers (02 R47, R68). -/
theorem exec_word (i : Instr) (hw : i.isWord = true) (hc : i.slots.1 ≠ 0) : Out.Keeps s (exec i s) := by
  have hclass := i.slots_class hw
  simp only [List.mem_cons, List.not_mem_nil, or_false] at hclass
  obtain h | h | h | h | h | h | h | h | h := hclass <;> have hfirst := congrArg Prod.fst h
  · exact absurd hfirst hc
  · exact exec_classS s i hfirst
  · exact exec_classL s i hfirst
  · exact exec_classT s i hfirst
  · exact exec_classA s i hfirst
  · exact exec_classK s i hfirst
  · exact exec_classP s i hfirst
  · exact exec_classQ s i hfirst
  · exact exec_classV s i hfirst

end Out.Keeps

/-- Settles O60: before class V the predicate gates every word, a step of a pass by counting it; and what a word of any class but C
calls leaves the registers to the results it owes. -/
theorem predicatesAndResultsGate : Obligations.PredicatesAndResultsGate := by
  unfold Obligations.PredicatesAndResultsGate
  refine ⟨fun s i hw hlt h => exec_pred_false i s hw hlt h, fun s t i hw hc h => ?_⟩
  obtain ⟨u, hu, hkeeps⟩ := Out.Keeps.exec_word s i hw hc
  cases hu.symm.trans h
  exact hkeeps

end Sys2Proof.Machine
end

section
/-! ## A step runs the decoded bundle (07 R188, 08 R216 to R219, 09 R261) -/

namespace Sys2Proof.Machine

open Sys2Proof

/-! ### Accesses find no error where none waits -/

/-- `t` has the context of `s`, and no error waits in its storage where none does in that of `s`. -/
structure State.Calm (s t : State) : Prop where
  ctx : t.ctx = s.ctx
  upsets : s.upsets = [] → t.upsets = []

namespace State.Calm

variable {s t : State}

theorem refl (s : State) : Calm s s := ⟨rfl, id⟩

theorem trans {u : State} (h : Calm s t) (h' : Calm t u) : Calm s u := ⟨h'.ctx.trans h.ctx, fun hs => h'.upsets (h.upsets hs)⟩

theorem ite {p : Prop} [Decidable p] {u : State} (ht : Calm s t) (hu : Calm s u) : Calm s (if p then t else u) := by
  split
  · exact ht
  · exact hu

theorem foldl {β : Type} {l : List β} {f : State → β → State} (hf : ∀ u x, Calm u (f u x)) (h : Calm s t) : Calm s (l.foldl f t) :=
  List.foldlRecOn l f h fun _ hu x _ => hu.trans (hf _ x)

theorem ofTraces (h : tracesOnly s t) (hu : s.upsets = [] → t.upsets = []) : Calm s t := by
  obtain ⟨_, _, _, _, _, _, _, _, _, _, _, _, _, -, rfl⟩ := h
  exact ⟨rfl, hu⟩

theorem visit (s : State) (pa : Nat) (wr alloc : Bool) : Calm s (s.visit pa wr alloc).1 :=
  ofTraces (s.visit_traces pa wr alloc) fun h => by
    obtain ⟨_, hv⟩ := s.visit_cached pa wr alloc h
    rw [hv]
    exact h

theorem writeG (s : State) (g : Granule) : Calm s (s.writeG g) := by
  unfold State.writeG
  split <;> exact ⟨rfl, id⟩

theorem store (s : State) (g : Granule) (alloc : Bool) : Calm s (s.store g alloc) := by
  have hwhole : Calm s { s with upsets := s.upsets.filter fun u => !s.meets g.addr u.site } := ⟨rfl, fun h => by simp [h]⟩
  exact (trans (ite hwhole (refl s)) (visit _ g.addr true alloc)).trans (writeG _ g)

theorem report (s : State) (pa : Nat) : Calm s (s.report pa) := ⟨rfl, id⟩

theorem noteHome (s : State) (pa n : Nat) (wr : Bool) (tid kind agent : Nat) : Calm s (s.noteHome pa n wr tid kind agent) := ⟨rfl, id⟩

theorem send (s : State) (m : Message) : Calm s (s.send m) := ⟨rfl, id⟩

theorem setClu (s : State) (n : Nat) (c : ClusterState) : Calm s (s.setClu n c) := by
  unfold State.setClu
  exact ite ⟨rfl, id⟩ ⟨rfl, id⟩

theorem walkInstall (s : State) (clu : Option Nat) (tid va : Nat) (wr : Bool) : Calm s (s.walkInstall clu tid va wr).1 := by
  have hwalk : Calm s (s.walked clu tid va) := ofTraces (s.walked_leaves ..) fun h => by
    obtain ⟨_, _, _, hw⟩ := s.walked_traces clu tid va h
    rw [hw]
    exact h
  have hmark (u : State) (entry : Nat) : Calm u (u.markEntry tid entry wr) := ofTraces (u.markEntry_leaves ..) fun h => by
    obtain ⟨_, _, _, hm⟩ := u.markEntry_traces tid entry wr h
    rw [hm]
    exact h
  unfold State.walkInstall
  dsimp only
  split
  · exact hwalk
  · next entry _ _ _ =>
    have hmarked := hwalk.trans (hmark _ entry)
    cases clu with
    | none => exact hmarked
    | some p => exact hmarked.trans (setClu _ _ _)

theorem translate (s : State) (clu : Option Nat) (tid : Nat) (l : Option Launch) (va : Nat) (acc : Access) :
    Calm s (s.translate clu tid l va acc).1 := by
  have hwalk := walkInstall s clu tid va (acc.wr && s.mayWrite clu tid va acc)
  unfold State.translate
  dsimp only
  split
  · exact refl s
  · split
    · exact refl s
    · split
      · exact refl s
      · split
        · exact refl s
        · split <;> next heq => rw [heq] at hwalk; exact hwalk

theorem ringWrite (s : State) (r : FqRec) (h : s.ringWrite r = some t) : Calm s t := by
  have htranslate := translate s none r.tid none
    ((NatMap.get .reset s.tenants r.tid).fqbase.toNat / 64 * 64 +
      64 * ((NatMap.get .reset s.tenants r.tid).fqtail % (NatMap.get .reset s.tenants r.tid).ringSize)) .write
  unfold State.ringWrite at h
  dsimp only at h
  split at h
  · cases h
  · split at h
    · next u pa leaf heq =>
      rw [heq] at htranslate
      split at h
      · cases h
      · have hstored : Calm s ((granules pa (r.words.flatMap fun w => valBytes w 8) false).foldl (fun s g =>
            ((s.store g true).report g.addr).noteHome g.addr 8 true r.tid 4 0) u) :=
          foldl (fun v g => (store v g true).trans ((report _ _).trans (noteHome ..))) htranslate
        have hsent := hstored.trans (ite (p := pa / spaceSize = 4) (send _ (.cxlRequest r.tid pa true)) (refl _))
        rw [← Option.some.inj h]
        exact ite ⟨hsent.ctx, hsent.upsets⟩ ⟨hsent.ctx, hsent.upsets⟩
    · cases h

theorem postRec (s : State) (r : FqRec) (informs : Bool) : Calm s (s.postRec r informs) := by
  unfold State.postRec
  dsimp only
  split
  · next heq =>
    split at heq
    · cases heq
    · exact ringWrite s r heq
  · exact ite ⟨rfl, id⟩ ⟨rfl, id⟩

theorem homeWrite (s : State) (tid kind agent : Nat) (g : Granule) (alloc : Bool) : Calm s (s.homeWrite tid kind agent g alloc) := by
  have hstored : Calm s ((s.store g alloc).report g.addr) := (store s g alloc).trans (report _ _)
  exact (hstored.trans (ite (send _ _) (refl _))).trans (foldl (fun u r => postRec u r true) (refl _))

theorem flush (s : State) (p : Flight → Bool) : Calm s (s.flush p) :=
  foldl (fun u f => foldl (fun v g => homeWrite v f.tid 0 f.cid g f.alloc) (refl u)) ⟨rfl, id⟩

end State.Calm

/-! ### Fetching and the tick leave what is due -/

/-- The same bundle is due in `t` as in `s`, and no error waits in storage where none does in `s`. -/
structure State.SameDue (s t : State) : Prop where
  pc : t.ctx.pc = s.ctx.pc
  seq : t.ctx.seq = s.ctx.seq
  checked : t.ctx.checked = s.ctx.checked
  upsets : s.upsets = [] → t.upsets = []

namespace State.SameDue

variable {s t : State}

theorem refl (s : State) : SameDue s s := ⟨rfl, rfl, rfl, id⟩

theorem trans {u : State} (h : SameDue s t) (h' : SameDue t u) : SameDue s u :=
  ⟨h'.pc.trans h.pc, h'.seq.trans h.seq, h'.checked.trans h.checked, fun hs => h'.upsets (h.upsets hs)⟩

theorem foldl {β : Type} {l : List β} {f : State → β → State} (hf : ∀ u x, SameDue u (f u x)) (h : SameDue s t) :
    SameDue s (l.foldl f t) :=
  List.foldlRecOn l f h fun _ hu x _ => hu.trans (hf _ x)

theorem ofCalm (h : State.Calm s t) : SameDue s t := ⟨by rw [h.ctx], by rw [h.ctx], by rw [h.ctx], h.upsets⟩

theorem fetchG (s : State) (va : Nat) : SameDue s (s.fetchG va) := by
  have htranslate := State.Calm.translate s (some s.clusterId) (s.tidOf s.ctx) (s.launchOf s.ctx) va .exec
  unfold State.fetchG State.translateCtx
  split
  · exact refl s
  · split
    · next heq =>
      rw [heq] at htranslate
      exact ofCalm htranslate
    · next u pa leaf heq =>
      rw [heq] at htranslate
      have hread : State.Calm s (((u.flushAt pa).visit pa false (!leaf.getLsbD 8)).1.noteHome pa 8 false (u.tidOf u.ctx) 0 u.cur) :=
        htranslate.trans ((State.Calm.flush u _).trans ((State.Calm.visit ..).trans (State.Calm.noteHome ..)))
      have hsame := ofCalm hread
      dsimp only
      split
      · exact hsame
      · exact ⟨hsame.pc, hsame.seq, hsame.checked, hsame.upsets⟩

theorem fetchCodeAt (s : State) (addr len : Nat) : SameDue s (s.fetchCodeAt addr len) := foldl (fun u _ => fetchG u _) (refl s)

theorem fetchDue (s : State) : SameDue s s.fetchDue := by
  have hown := fetchCodeAt s s.ctx.pc (s.spanOf 1 s.ctx.pc)
  unfold State.fetchDue
  split
  · exact refl s
  · dsimp only
    split
    · exact hown
    · split
      · exact hown
      · exact hown.trans (fetchCodeAt _ _ _)

theorem modCtx (s : State) (i : Nat) {f : Context → Context} (hpc : ∀ c, (f c).pc = c.pc) (hseq : ∀ c, (f c).seq = c.seq)
    (hchecked : ∀ c, (f c).checked = c.checked) : SameDue s (s.modCtx i f) := by
  unfold State.modCtx State.setCtx
  split
  · next h =>
    rw [h, State.getCtx_cur]
    exact ⟨hpc _, hseq _, hchecked _, id⟩
  · split
    · split <;> exact ⟨rfl, rfl, rfl, id⟩
    · exact ⟨rfl, rfl, rfl, id⟩

theorem nextTick (s : State) (p : Nat) : SameDue s (s.nextTick p) :=
  foldl (fun u _ => modCtx u _ (fun _ => rfl) (fun _ => rfl) fun _ => rfl) (ofCalm (State.Calm.setClu ..))

/-- Outside a loop what an offer looks at is due as it was. -/
theorem looked (s : State) (h : s.ctx.seq = none) : SameDue s ((s.thaw Freeze.again).boundary.reload).fetchDue := by
  have hthaw : SameDue s (s.thaw Freeze.again) := ⟨rfl, rfl, rfl, id⟩
  have hseq : (s.thaw Freeze.again).ctx.seq = none := h
  have hreload : (s.thaw Freeze.again).reload = s.thaw Freeze.again := by
    unfold State.reload
    rw [hseq]
  rw [State.boundary_none _ hseq, hreload]
  exact hthaw.trans (fetchDue _)

end State.SameDue

/-! ### The bundle that issues -/

theorem State.regsFound_none (s : State) (p : Plan) (h : s.upsets = []) : s.regsFound p = s := by
  unfold State.regsFound
  rw [h]
  rfl

/-- A bundle that is offered is the one due once its code is fetched. -/
theorem State.offer_fetched (s t : State) (p : Plan) (h : s.offer = (t, some p)) :
    (((s.thaw Freeze.again).boundary.reload).fetchDue).planNext = .ok p ∧
      t = (((s.thaw Freeze.again).boundary.reload).fetchDue).regsFound p := by
  unfold State.offer at h
  split at h
  · cases h
  · dsimp only at h
    generalize ((s.thaw Freeze.again).boundary.reload).fetchDue = v at h ⊢
    cases hp : v.planNext with
    | error e => rw [hp] at h; cases h
    | ok q =>
      rw [hp] at h
      dsimp only at h
      split at h
      · cases h
      · have h := else_offers (else_offers h)
        split at h
        · cases h
        · split at h
          · cases h
          · obtain ⟨rfl, ho⟩ := Prod.mk.inj (else_offers (else_offers (else_offers (else_offers h))))
            obtain rfl := Option.some.inj ho
            exact ⟨rfl, rfl⟩

/-- Outside a loop, with no error waiting in storage, a bundle that issues is the one due, in a state where the same is due. -/
theorem State.prep_due (s t : State) (p : Plan) (h : s.prep = (t, some p)) (hseq : s.ctx.seq = none) (hu : s.upsets = []) :
    State.SameDue s t ∧ t.planNext = .ok p := by
  have hoffer {u : State} (hsame : State.SameDue s u) (ho : u.offer = (t, some p)) : State.SameDue s t ∧ t.planNext = .ok p := by
    obtain ⟨hplan, ht⟩ := u.offer_fetched t p ho
    have hlooked := hsame.trans (State.SameDue.looked u (hsame.seq.trans hseq))
    rw [State.regsFound_none _ p (hlooked.upsets hu)] at ht
    rw [ht]
    exact ⟨hlooked, hplan⟩
  have h := s.prep_offered t p h
  unfold State.offered at h
  split at h
  · cases h
  · split at h
    · exact hoffer (State.SameDue.refl s) h
    · split at h
      · exact hoffer (State.SameDue.nextTick s _) h
      · cases h

/-- Outside a loop the bundle due is what the code at the program counter decodes to, with T where it is required and the weight that
its header gives. -/
theorem State.planNext_code (s : State) (p : Plan) (h : s.ctx.seq = none) (hp : s.planNext = .ok p) :
    ∃ b, decodeBundle (s.codeWord s.ctx.pc) = .ok b ∧ p = s.planOf s.ctx.pc b ∧ (s.ctx.checked = true → b.t = true) ∧
      4 * b.bw = p.weight := by
  unfold State.planNext at hp
  rw [h] at hp
  dsimp only at hp
  split at hp
  · cases hp
  · split at hp
    · cases hp
    · split at hp
      · cases hp
      · split at hp
        · cases hp
        · split at hp <;> cases hp
        · cases hp
      · next b hdecode =>
        split at hp
        · cases hp
        · next ht =>
          split at hp
          · cases hp
          · next hweight =>
            obtain rfl := Except.ok.inj hp
            exact ⟨b, hdecode, rfl, by simpa using ht, not_ne_iff.mp hweight⟩

/-! ### The words of a decoded bundle are in its plan -/

theorem decodeItem_pos {pos : BitVec 5} {pfx : List W32} {lo hi : W32} {x : Slot} (h : decodeItem pos pfx lo hi = .ok x) :
    x.env.pos = pos := by
  unfold decodeItem at h
  split at h
  · cases h
  · dsimp only at h
    split at h
    · cases h
    · split at h <;> cases h
      rfl

theorem decodeSlots_pos {rs : List RawSlot} {xs : List Slot} (h : decodeSlots rs = .ok xs) {x : Slot} (hx : x ∈ xs) :
    ∃ r ∈ rs, x.env.pos = BitVec.ofNat 5 r.pos := by
  induction rs generalizing xs with
  | nil =>
    cases h
    cases hx
  | cons r rs ih =>
    rw [decodeSlots] at h
    split at h
    · cases h
    · next y hy =>
      split at h <;> cases h
      next ys hys =>
      obtain rfl | hx := List.mem_cons.mp hx
      · exact ⟨r, List.mem_cons_self, decodeItem_pos hy⟩
      · obtain ⟨q, hq, hpos⟩ := ih hys hx
        exact ⟨q, List.mem_cons_of_mem _ hq, hpos⟩

/-- The items scanned stand at the positions asked for. -/
theorem scanSlots_pos {rd : Nat → Fetch} {ps : List Nat} {n len : Nat} {acc rs : List RawSlot} {early : Option (Nat × List W32)}
    (h : scanSlots rd ps n acc = .ok rs early len) {r : RawSlot} (hr : r ∈ rs) : r ∈ acc ∨ r.pos ∈ ps := by
  induction ps generalizing n acc with
  | nil =>
    cases h
    exact .inl (List.mem_reverse.mp hr)
  | cons p ps ih =>
    have hmore {m : Nat} {q : RawSlot} (hq : q.pos = p) (h : scanSlots rd ps m (q :: acc) = .ok rs early len) :
        r ∈ acc ∨ r.pos ∈ p :: ps := by
      obtain hin | hin := ih h
      · obtain rfl | hin := List.mem_cons.mp hin
        · exact .inr (hq ▸ List.mem_cons_self)
        · exact .inl hin
      · exact .inr (List.mem_cons_of_mem _ hin)
    rw [scanSlots] at h
    generalize scanPfx rd (2 ^ 50) n [] = scanned at h
    split at h
    · cases h
    · split at h
      · cases h
        exact .inl (List.mem_reverse.mp hr)
      · split at h
        · split at h
          · cases h
          · exact hmore rfl h
        · exact hmore rfl h

/-- The words of a decoded bundle stand at positions 0 to 16 (08 R217). -/
theorem decodeBundle_pos {rd : Nat → Fetch} {b : Bundle} (h : decodeBundle rd = .ok b) {x : Slot} (hx : x ∈ b.words) :
    slotPos x < 17 := by
  have hwords {hdr : W32} {rs : List RawSlot} {early : Option (Nat × List W32)} {len : Nat} {xs : List Slot}
      (hscan : scanSlots rd (presentSlots hdr) 1 [] = .ok rs early len) (hdecode : decodeSlots rs = .ok xs) (hx : x ∈ xs) :
      slotPos x < 17 := by
    obtain ⟨r, hr, hpos⟩ := decodeSlots_pos hdecode hx
    obtain hnil | hpresent := scanSlots_pos hscan hr
    · cases hnil
    · have hlt : r.pos < 17 := List.mem_range.mp (List.mem_filter.mp hpresent).1
      have hsmall : r.pos % 32 = r.pos := Nat.mod_eq_of_lt (by omega)
      rw [slotPos, hpos, BitVec.toNat_ofNat, hsmall]
      exact hlt
  unfold decodeBundle at h
  split at h
  · cases h
  · split at h
    · cases h
    · split at h
      · cases h
      · next hscan =>
        split at h
        · cases h
        · split at h
          · cases h
          · next hdecode =>
            split at h
            · cases h
            · split at h <;> cases h
            · split at h
              · cases h
                exact hwords hscan hdecode hx
              · split at h <;> cases h
                exact hwords hscan hdecode hx

theorem mem_todo {p : Plan} {x : Slot × Option Nat × Bool} : x ∈ p.todo ↔ x ∈ p.words := by
  unfold Plan.todo
  cases hlast : runsLast x.1.op <;> simp [hlast]

theorem mem_inSlotOrder_of_mem {x : Slot × Option Nat × Bool} {l : List (Slot × Option Nat × Bool)} (h : x ∈ l)
    (hpos : slotPos x.1 < 17) : x ∈ inSlotOrder l :=
  List.mem_flatMap.mpr ⟨slotPos x.1, List.mem_range.mpr hpos, List.mem_filter.mpr ⟨h, beq_self_eq_true _⟩⟩

/-- The words that a plan of a decoded bundle runs anew are the bundle's. -/
theorem State.planOf_new (s : State) (addr : Nat) (b : Bundle) {x : Slot × Option Nat × Bool} (hx : x ∈ (s.planOf addr b).todo)
    (hnew : x.2.2 = false) : x.1 ∈ b.words := by
  obtain hrun | ⟨hheld, -⟩ := s.mem_planWords (b.words.map fun w => (w, none, false)) (b.words.map slotPos) x (mem_todo.mp hx)
  · obtain ⟨w, hw, rfl⟩ := List.mem_map.mp hrun
    exact hw
  · exact absurd (hnew.symm.trans hheld) Bool.false_ne_true

theorem State.planOf_all (s : State) (addr : Nat) {b : Bundle} {rd : Nat → Fetch} (h : decodeBundle rd = .ok b) {x : Slot}
    (hx : x ∈ b.words) : (x, none, false) ∈ (s.planOf addr b).todo :=
  mem_todo.mpr (mem_inSlotOrder_of_mem (List.mem_append_left _ (List.mem_map_of_mem hx)) (decodeBundle_pos h hx))

/-! ### The step -/

theorem State.commit_issue (s : State) (p : Plan) :
    (s.commit p).issue.live = true ∧ (s.commit p).issue.addr = p.addr ∧ (s.commit p).issue.todo = p.todo := ⟨rfl, rfl, rfl⟩

/-- An event that commits no bundle runs by `exec` alone, where no RMW has read and not written. -/
theorem State.doAct_event (s t : State) (i : Instr) (x : EvArgs) (hr : s.openRmws = []) (hi : Instr.isWord i = false)
    (he : exec i { s with arg := x } = .next t) (hl : t.issue.live = false) :
    s.doAct (.event i x) = .next { t with arg := s.arg } := by
  unfold State.doAct
  rw [hr]
  simp only [List.isEmpty_nil, Bool.true_or, if_true, hi, Bool.false_eq_true, if_false, he, State.runIssued, hl]

/-- A bundle that issues and whose words run is settled. -/
theorem State.doAct_issue (s s1 t : State) (p : Plan) (hr : s.openRmws = []) (hp : s.prep = (s1, some p))
    (hrun : runWords p.todo (s1.commit p) = .next t) : s.doAct .issue = .next (s1.settled t p.addr) := by
  obtain ⟨hlive, haddr, htodo⟩ := s1.commit_issue p
  have hfront : s.front = s1.commit p := by
    unfold State.front
    rw [hp]
  unfold State.doAct
  rw [hr]
  simp only [List.isEmpty_nil, Bool.true_or, if_true, hfront, State.runIssued, hlive, haddr, htodo, hrun, hp]

theorem step_of_doAct {s t : State} {a : Act} {rest : List Act} (ha : s.agenda = a :: rest)
    (h : State.doAct { s with agenda := rest } a = .next t) : step s = .next t.postWatched := by
  rw [step_cons s a rest ha, State.runAct, h]

/-- One word that does not trap, alone in its bundle. -/
theorem runWords_single {x : Slot × Option Nat × Bool} {s u : State} (hd : (s.enter x).deadRead x = false)
    (h : exec x.1.op (s.enter x) = .next u) (ht : u.issue.trap = none) : runWords [x] s = .next (u.measure x) :=
  runWords_next x [] s u hd h ht

theorem State.settled_trap {s t : State} {e : Before} (addr : Nat) (h : t.issue.trap = some e) :
    s.settled t addr = (s.foundBy t).undone addr e := by
  unfold State.settled
  rw [h]

theorem State.settled_end {s t : State} (addr : Nat) (h : t.issue.trap = none) (hw : t.issue.watch = none) :
    s.settled t addr = t.finish s.inh := by
  unfold State.settled
  rw [h, hw]

/-- Consumed poison takes MCHK and changes no byte (02 R78). -/
theorem State.trapMchk_mem (s : State) (h : s.inh = false) :
    s.trapMchk.mem = s.mem ∧ s.trapMchk.issue.trap.map Prod.fst = some 0x12 := by
  have hlog := s.logError_frame (coreBank s.cur) 2 0x0008 false 0 0 (some (s.originOf s.cur))
  dsimp only at hlog
  obtain ⟨hctx, -, -, -, hmem, -⟩ := hlog
  unfold State.trapMchk State.trapBefore
  dsimp only
  generalize s.logError (coreBank s.cur) 2 0x0008 false 0 0 (some (s.originOf s.cur)) = u at *
  have hinh : u.inh = false := by rw [State.inh, hctx]; exact h
  have htrap := u.takeTrap_frame mchk (BitVec.ofNat 16 (coreBank s.cur)) u.issue.addr u.issue.addr 0 hinh (by decide) (by decide)
    (by decide)
  dsimp only at htrap
  obtain ⟨-, -, -, -, -, -, -, -, -, htmem, -⟩ := htrap
  exact ⟨htmem.trans hmem, rfl⟩

/-- A word that reads what an error has taken is the last of its bundle (02 R77). -/
theorem runWords_dead (x : Slot × Option Nat × Bool) (xs : List (Slot × Option Nat × Bool)) (s : State)
    (hd : (s.enter x).deadRead x = true) : runWords (x :: xs) s = .next (s.enter x).trapMchk := by
  have htrap : (s.enter x).trapMchk.issue.trap.isSome = true := rfl
  rw [runWords, if_pos hd]
  simp only [htrap, if_true]

/-- Settles O56: a step that issues commits the bundle that was decoded, runs its words and settles what they leave; an event runs by
`exec` alone. -/
theorem stepRunsTheDecodedBundle : Obligations.StepRunsTheDecodedBundle := by
  unfold Obligations.StepRunsTheDecodedBundle
  refine ⟨fun s s1 t rest p ha hr => ?_, fun x xs s t => ⟨fun hd he => ⟨fun ht => runWords_next x xs s t hd he ht,
    fun ht => runWords_trap x xs s t hd he ht⟩, s.deadRead_none x, fun hd hi => ?_⟩, fun s t rest i x ha hr hi he hl =>
      step_of_doAct ha (State.doAct_event { s with agenda := rest } t i x hr hi he hl)⟩
  · intro s0 hp
    have hstep {t : State} (hrun : runWords p.todo (s1.commit p) = .next t) : step s = .next (s1.settled t p.addr).postWatched :=
      step_of_doAct ha (s0.doAct_issue s1 t p hr hp hrun)
    refine ⟨hstep, fun x u hx hd he => ⟨fun ht hw => ?_, fun e ht => ?_⟩, fun hseq hu => ?_⟩
    · rw [hstep (hx ▸ runWords_single hd he ht), State.settled_end p.addr (t := u.measure x) ht hw]
    · have htrap : runWords p.todo (s1.commit p) = .next u := hx ▸ runWords_trap x [] _ u hd he (by rw [ht]; rfl)
      rw [hstep htrap, State.settled_trap p.addr ht]
    · obtain ⟨hsame, hplan⟩ := s0.prep_due s1 p hp hseq hu
      obtain ⟨b, hdecode, rfl, ht, hweight⟩ := s1.planNext_code p (hsame.seq.trans hseq) hplan
      rw [hsame.pc] at hdecode
      refine ⟨b, hdecode, hsame.pc, congrArg (· + 4 * b.len) hsame.pc, hweight, fun hc => ht (hsame.checked.trans hc),
        fun x hx => s1.planOf_all _ hdecode hx, fun x hx hnew => s1.planOf_new _ b hx hnew⟩
  · exact ⟨(s.enter x).trapMchk, runWords_dead x xs s hd, (s.enter x).trapMchk_mem hi⟩

end Sys2Proof.Machine
end
